-- ==== Sys2Proof/Word.lean ====
section
/-!
DEFINITION. Sys2Proof/Word.lean: bytes, and the plainest arithmetic on register words (R8, R9): bit ranges, saturating
counters, little-endian bytes.
-/
namespace Sys2Proof

/-- One byte on a wire, in a payload or in memory. -/
abbrev Byte := BitVec 8

/-- Bits [hi:lo] of a word. -/
def bitsOf (w hi lo : Nat) : Nat := (w >>> lo) % 2 ^ (hi + 1 - lo)

/-- Bit n of a word, as 0 or 1. -/
def bitOf (w n : Nat) : Nat := (w >>> n) % 2

/-- A truth value as a bit. -/
def b2n (b : Bool) : Nat := if b then 1 else 0

/-- A counter of `w` bits counts up by `n` and saturates at its maximum. -/
def satAdd (w a n : Nat) : Nat := min (a + n) (2 ^ w - 1)

/-- The signed value of a `w`-bit two's complement field. -/
def signed (w v : Nat) : Int := if v % 2 ^ w < 2 ^ (w - 1) then (v % 2 ^ w : Nat) else (v % 2 ^ w : Nat) - (2 ^ w : Nat)

/-- The `w`-bit two's complement field of an integer. -/
def unsigned (w : Nat) (i : Int) : Nat := (i % (2 ^ w : Nat)).toNat

/-- Division rounded up. -/
def ceilDiv (a b : Nat) : Nat := (a + b - 1) / b

/-- The `n` low bytes of `v`, least significant byte first (R8). -/
def leBytes : Nat → Nat → List Byte
  | 0, _ => []
  | n + 1, v => BitVec.ofNat 8 v :: leBytes n (v / 256)

/-- The number that bytes spell, least significant byte first (R8). -/
def ofLe : List Byte → Nat
  | [] => 0
  | b :: t => b.toNat + 256 * ofLe t

/-- Byte `i` of a list, 0 beyond its end. -/
def byteAt (l : List Byte) (i : Nat) : Nat := match l[i]? with
  | some b => b.toNat
  | none => 0

/-- The little-endian number in bytes i .. i+n-1 of a list. -/
def numAt (l : List Byte) (i n : Nat) : Nat := ofLe ((l.drop i).take n)

/-- Serial-number distance modulo 2^w from a to b. -/
def serialDist (w a b : Nat) : Nat := (b + 2 ^ w - a % 2 ^ w) % 2 ^ w

/-- The natural number of a list's elements that satisfy a test. -/
def countWhere {α : Type} (p : α → Bool) (l : List α) : Nat := (l.filter p).length

/-- The sum of a list of naturals. -/
def sumNat (l : List Nat) : Nat := l.foldl (· + ·) 0

end Sys2Proof
end

