-- ==== Sys2Proof/Syntax.lean ====
section
/-!
DEFINITION. Sys2Proof/Syntax.lean: the commands of the block (spec/opcode_table.json, one constructor a row) and the types of
their operands. The table gives no bits; an operand holds what the sender of the command supplies: an access and its data, the
bytes or fields of a message that arrives, the level or the measurement that a pin or a sensor shows.
-/
namespace Sys2Proof

/-- The two trunk ports, by ball group (R29). -/
inductive Port where
  | tu | td
deriving DecidableEq, Repr

/-- A bay, B0 to B3. -/
abbrev Bay := Fin 4

/-- A virtual host context, V0 to V63. -/
abbrev Vhc := Fin 64

/-- The paths that reach the register space (R455), and VF BAR0, which reaches one VHC page (R211). -/
inductive Path where
  | window | pfBar | lmp | engine
  | vfBar (v : Vhc)
deriving DecidableEq, Repr

/-- The fields of a cell (R62, R63): the header, the first `len` bytes of the payload field, and the E2E CRC as carried.
Padding is sent as zero (R62) and is not held. -/
structure Cell where
  ctype   : Nat := 4
  cls     : Nat := 0
  ce      : Bool := false
  psn     : Bool := false
  dhub    : Nat := 0
  dport   : Nat := 0
  shub    : Nat := 0
  sport   : Nat := 0
  rsv0    : Nat := 0
  tunnel  : Nat := 0
  tseq    : Nat := 0
  fst     : Bool := true
  lst     : Bool := true
  wc      : Bool := false
  rsv1    : Nat := 0
  vhc     : Nat := 0
  gen     : Nat := 0
  tag     : Nat := 0
  rsv2    : Nat := 0
  lseq    : Nat := 0
  hops    : Nat := 0
  len     : Nat := 0
  rsv3    : Nat := 0
  payload : List Byte := []
  /-- The padding behind the payload as received; empty when it is all 0x00, as it must be (R62). -/
  pad     : List Byte := []
  e2e     : Nat := 0
deriving DecidableEq, Repr


/-- A sideband frame as received (R36): whether both delimiters are right, and bytes 1 to 6: type, payload, CRC-8. -/
structure SbFrame where
  delims : Bool
  bytes  : List Byte
deriving DecidableEq, Repr

/-- A sideband frame at the port that receives it. -/
structure SbArrival where
  port  : Port
  frame : SbFrame
deriving DecidableEq, Repr

/-- A RETRAIN_REQ as received (R66, R75): the port and byte 1, its cause. -/
structure RetrainReq where
  port  : Port
  cause : Nat
deriving DecidableEq, Repr

/-- A function that consumes from a local egress (R130): the egress's code less 2, and at a bay which of its functions. -/
structure Consumer where
  code : Fin 6
  fn   : Fin 3
deriving DecidableEq, Repr

/-- A cell as a local egress hands it to one of its functions. -/
structure Delivery where
  fn   : Fin 3
  cell : Cell
deriving DecidableEq, Repr

/-- An allotment table as received (R168): the hub that its cells name as their source, and the message. -/
structure TableMsg where
  shub  : Fin 64
  bytes : List Byte
deriving DecidableEq, Repr

/-- What the Granary's SECDED check finds on a read (R144): nothing, a corrected error, an uncorrectable payload error. -/
inductive Ecc where
  | good | corrected | bad
deriving DecidableEq, Repr

/-- What a display head finds at its sink (R273–R275): whether AUX answers, the rates that it allows (bit k: rate code k), its lanes, the adapter found
behind DDC (0 none, type 1, type 2) with byte 0x1D, and its EDID blocks, each as read at most four times. -/
structure Sink where
  aux     : Bool
  rates   : Nat
  lanes   : Nat
  adapter : Nat
  limit   : Nat
  edid    : List (List (List Byte))
deriving DecidableEq, Repr

/-- What a head knows of a display head (R237, R239): its size in pixels, whether it is double-buffered, its budget of 192 bytes, its depth of 10. -/
structure HeadGeo where
  width  : Nat
  height : Nat
  bpp6   : Bool
  ten    : Bool
deriving DecidableEq, Repr

/-- What an xHCI event needs of the controller's rings: the address of its place in the event ring and its cycle bit, the TRB that it points to, the bytes not
transferred, slot, endpoint, the interrupter, and whether the TD asks for an event when it ends well. -/
structure UsbEv where
  addr  : Nat
  cycle : Bool
  ioc   : Bool
  ptr   : Nat
  left  : Nat
  slot  : Nat
  ep    : Nat
  irq   : Nat
deriving DecidableEq, Repr

/-- An endpoint that a Configure Endpoint command adds: its device context index, whether it is isochronous and IN, the bytes and packets of an interval that
serves it, its period and phase in bus intervals, and its time in a translator's 1 ms frame in µs. -/
structure EpCfg where
  dci    : Nat
  iso    : Bool
  isIn   : Bool
  bytes  : Nat
  pkts   : Nat
  period : Nat
  phase  : Nat
  ttUs   : Nat
deriving DecidableEq, Repr

/-- A memory access of a USB controller that failed (R294). -/
inductive UsbFail where
  | transfer | context | ring | eventWrite
deriving DecidableEq, Repr

/-- What a bay's PCIe device sends upstream (R327): a read of an address, a length and the device's tag; a write; an INTx Assert; an error message. -/
inductive DevReq where
  | read (addr len tag : Nat)
  | write (addr : Nat) (data : List Byte)
  | intx | errCor | errNonfatal | errFatal
deriving DecidableEq, Repr

/-- A power data object (R338): kind 0 fixed, 1 PPS, 2 EPR fixed; the lowest (PPS) and the highest voltage in 20 mV units, the current in 10 mA units. -/
structure Pdo where
  kind : Nat
  vmin : Nat
  v    : Nat
  i    : Nat
deriving DecidableEq, Repr

/-- What a policy hook answers (R358): a decision, or nothing within 5 ms; a bay without a table has the hook's default as its answer. -/
inductive Hook where
  | accept | reject | wait | late
deriving DecidableEq, Repr

/-- A partner's answer to a Request or a swap (R341, R346). -/
inductive PdAns where
  | accept | reject | wait
deriving DecidableEq, Repr

/-- A VDM that a bay receives (R348, R349): the cable's identity from SOP'; answers of the partner, positive or not, with what they carry; Attention; Exit Mode; a command that the partner starts. -/
inductive Vdm where
  | cable (a5 v50 : Bool) (dpMax ss : Nat)
  | identity (ack : Bool)
  | svids (dp : Bool)
  | modes (c d : Bool)
  | enter (ack : Bool)
  | status (hpd irq : Bool)
  | configure (ack : Bool)
  | attention (hpd irq : Bool)
  | exitMode
  | other
deriving DecidableEq, Repr

/-- A request to an engine (R386, R410) without its sequence number. -/
inductive MbReq where
  | getInfo
  | loadTiming (id : Nat)
  | loadWindow (w id : Nat) (stuck : Bool)
  | loadFreeze (id : Nat)
  | updBegin (kind size : Nat)
  | updData (off : Nat) (d : List Byte)
  | updVerify
  | updCommit
  | updAbort
  | confirm
  | profilePin (id : Nat)
  | keyWrite (slot use : Nat) (burn : Bool) (key : List Byte)
  | keyDerive (slot parent use : Nat) (label context : List Byte)
  | keyInvalidate (slot : Nat)
  | keyMac (slot : Nat) (d : List Byte)
  | keyUpdate (msg : List Byte)
  | gateClose
  | attest (nonce : List Byte)
  | unknown (op : Nat) (payload : List Byte)
deriving DecidableEq, Repr

/-- A boot record (R389): sequence, active and previous slots of firmware and tables (0 A, 1 B), trial bit, trial-boot count. -/
structure BootRec where
  seq    : Nat
  fw     : Nat
  tbl    : Nat
  prevFw : Nat
  prevTbl : Nat
  trial  : Bool
  count  : Nat
deriving DecidableEq, Repr

/-- What boot finds in the SPI flash (R388): the two boot records, none where the CRC is bad; the profile of a pin record that is valid by R399; the firmware and table slots' bytes; whether
the flash answers at all. -/
structure Flash where
  answers : Bool
  recA : Option BootRec
  recB : Option BootRec
  pin  : Option Nat
  fwA  : List Byte
  fwB  : List Byte
  tblA : List Byte
  tblB : List Byte
deriving DecidableEq, Repr

/-- A resource that a trim puts into low power (R425): a lost trunk lane, a bay's Ethernet and PCIe pairs, the clocks of a disabled bay, the clock of an idle engine. -/
inductive Trim where
  | lane (p : Port) (l : Fin 2)
  | ethPair (n : Bay)
  | pciePair (n : Bay)
  | bayClock (n : Bay)
  | engine (e : Fin 16)
deriving DecidableEq, Repr

/-- What could wake a sleeping part (R437): GPIOs at their wake level for 100 µs, activity on the local management port, a PD message, Hard Reset or detach, a feed event, signal from the
partner on the TD and the TU ball group. -/
structure Wake where
  gpio : Nat
  mgmt : Bool
  pd   : Bool
  feed : Bool
  td   : Bool
  tu   : Bool
deriving DecidableEq, Repr

/-- What the watch sequencer's front ends sample (R435): CC attach, leakage in kΩ and a bay's die temperature, by bay; feeds A, B and VOR_S in 100 mV; the die temperature in °C; signal-detect of the
TU and the TD ball group. -/
structure Watch where
  cc    : List Bool
  moist : List Nat
  feeds : List Nat
  temp  : Int
  sig   : List Bool
deriving DecidableEq, Repr

/-- The commands, in the order of the table. -/
inductive Instr where
  /-- REGISTER_WRITE (R9). A write to a register field that has no behaviour of its own takes effect by its access code (RW, RWL, W1C, W1S, WO, RSV). -/
  | registerWrite (path : Path) (addr be data : Nat)
  /-- RC_FIELD_READ (R11). A read of an RC field returns its value and clears it; a change in the same clock is kept for the next read. -/
  | rcFieldRead (path : Path) (addr be : Nat)
  /-- TIME_LO_READ (R122). A read of CTIM TIME_LO returns chain time [31:0] and latches TIME_HI. -/
  | timeLoRead (path : Path)
  /-- FRAME_T_LO_READ (R285). A read of DISP FRAME_T_LO latches FRAME_T_HI. -/
  | frameTLoRead (path : Path) (n : Bay)
  /-- PFQ_DATA2_READ (R468). A read of EVT PFQ_DATA2 returns the chain time of the head PF event queue entry and removes the entry. -/
  | pfqData2Read (path : Path)
  /-- BLOCK_RESET (R460). A write of PG_CTL.srst returns the header and block registers to reset, then the block performs its page-specific action. -/
  | blockReset (p : Nat)
  /-- COUNTER_SNAPSHOT (R459). A write of PG_CTL.frz freezes or releases the visible values of the page's counters while they keep counting underneath. -/
  | counterSnapshot (p : Nat) (frz : Bool)
  /-- PAGE_LOCK (R9). A write of 1 to PG_CTL.lock locks the RWL fields of the page until block or hub reset. -/
  | pageLock (p : Nat)
  /-- EVENT_SET (R458). A write to EV_SET sets the matching EV_RAW bits without capturing an error or counting. -/
  | eventSet (p w : Nat)
  /-- POWER_ON_RESET (R448). POR_N low or VDD_AON below threshold resets the main die and clears the always-on domain and Cellar. -/
  | powerOnReset
  /-- PIN_RESET (R448). RESET_N low for at least 1 µs resets the main die, keeping the always-on domain and Cellar. -/
  | pinReset
  /-- COMMAND_RESET (R448). GLB.RST_CTL with key 0xA5 and go, or HUB_RESET at t_go, resets the main die. -/
  | commandReset (v : Option Nat)
  /-- WATCHDOG_RESET (R382). Expiry of E15's watchdog resets the main die. -/
  | watchdogReset
  /-- THERMAL_RESET (R448). Main-die Tj at or above 125 °C resets the main die and holds it until Tj falls below 110 °C. -/
  | thermalReset
  /-- CLOCK_RESET (R441). Root PLL lock lost for more than 10 µs resets the main die until the reference returns and the PLL relocks. -/
  | clockReset
  /-- BOOT_COMPLETE (R450). E15 finishes the boot sequence, writes the Cellar bank 7 record, sets boot_done and reports the end of boot. -/
  | bootComplete (f : Flash)
  /-- COMPANION_POWER_ON (R361). VOR_S rising above 8.5 V powers the companion die and resets every PWP, HVD and VBS register. -/
  | companionPowerOn
  /-- COMPANION_POWER_OFF (R361). VOR_S falling below 8.0 V powers off the companion die. -/
  | companionPowerOff
  /-- COMPANION_LINK_LOST (R13). No valid supervised-link frame for 1 ms in P0 or P1 makes the companion die declare the link lost and hold all outputs. -/
  | companionLinkLost
  /-- COMPANION_LINK_RESTORED (R21). E7 re-establishes the supervised link and the companion die reports the loss in HVD. -/
  | companionLinkRestored
  /-- PORT_ENABLE (R39). A write of PORT_CFG.port_en = 1 puts the trunk port into DETECT to start bring-up. -/
  | portEnable (p : Port)
  /-- PORT_DISABLE (R61). A write of PORT_CFG.port_en = 0 takes the link down deliberately or puts the port in DISABLED. -/
  | portDisable (p : Port)
  /-- PORT_HOLD_DOWN (R61). A write of PORT_CTL.hold_down = 1 takes the link down with cause FORCED and keeps the port in DETECT without transmitting. -/
  | portHoldDown (p : Port) (v : Bool)
  /-- PORT_RENEGO (R61). PORT_CTL.renego takes the link down with cause FORCED, clears failed marks and restarts at step 4 of bring-up. -/
  | portRenego (p : Port)
  /-- PORT_RETRAIN (R50). PORT_CTL.retrain starts a RECOVER of the hop. -/
  | portRetrain (p : Port)
  /-- MEDIA_AUTO_TIMEOUT (R34). With media = auto and no CC attach within 200 ms of port enable, the medium resolves to twinax. -/
  | mediaAutoTimeout (p : Port) (signal : Bool)
  /-- TRUNK_CC_TOGGLE (R52). In toggle role the trunk port alternates Rd and Rp every 50 ms while no opposite termination is seen. -/
  | trunkCcToggle (p : Port)
  /-- TRUNK_CC_ATTACH (R52). The opposite termination seen on exactly one CC line for 150 ms declares trunk attach and sets orientation. -/
  | trunkCcAttach (p : Port)
  /-- TRUNK_CC_DETACH (R52). The opposite termination absent for 15 ms declares trunk detach. -/
  | trunkCcDetach (p : Port)
  /-- ENTER_NEGOTIATE (R39). Signal-detect on a receive lane or a valid sideband frame moves the port into NEGOTIATE. -/
  | enterNegotiate (p : Port) (bySideband : Bool)
  /-- HOP_PAGE_SEND (R37). Every 1 ms in NEGOTIATE the port sends HOP_PAGE on the sideband. -/
  | hopPageSend (p : Port)
  /-- HOP_PAGE_RX (R40). A received hop page records the partner's modes and lanes and leads to mode and lane selection. -/
  | hopPageRx (p : Port) (f : SbFrame)
  /-- HOP_ACK_SEND (R37). After selection the port sends HOP_ACK every 1 ms until TRAIN. -/
  | hopAckSend (p : Port)
  /-- HOP_ACK_RX (R39). A partner HOP_ACK naming the same mode and lanes moves the port into TRAIN, otherwise back to selection. -/
  | hopAckRx (p : Port) (f : SbFrame)
  /-- KEEPALIVE_SEND (R37). A KEEPALIVE frame is sent every SB_CFG.keep_ms while no other frame is due. -/
  | keepaliveSend (p : Port)
  /-- KEEPALIVE_RX (R38). A valid KEEPALIVE frame keeps the sideband up. -/
  | keepaliveRx (p : Port) (f : SbFrame)
  /-- SIDEBAND_LOST (R38). No valid sideband frame for 8 ms marks the sideband down and raises sb_err without taking the link down. -/
  | sidebandLost (p : Port)
  /-- INBAND_NEGOTIATE (R39). With no sideband frame within 20 ms of NEGOTIATE, or sideband disabled, the port trains at its lowest qualifying G mode carrying its page in training frames. -/
  | inbandNegotiate (p : Port)
  /-- TRAINING_FRAME_RX (R39). A partner training frame in NEGOTIATE ends any sideband wait and joins the in-band path. -/
  | trainingFrameRx (p : Port) (page : List Byte) (ack : List Byte)
  /-- FFE_REQUEST_RX (R45). A partner FFE request in TRAIN or RECOVER adjusts the transmit taps, answering 'at limit' beyond FFE_ENV. -/
  | ffeRequestRx (p : Port) (lane : Fin 2) (pre : Nat) (post : Nat)
  /-- TRAINING_CONVERGED (R39). Training converges within its mode limit and the port enters ALIGN. -/
  | trainingConverged (p : Port)
  /-- TRAINING_TIMEOUT (R39). Training or ALIGN not completing in time marks the mode failed and selects the next lower common mode. -/
  | trainingTimeout (p : Port)
  /-- TRAIN_FAIL_RETRY (R39). After the 1 s wait of a train failure the port returns to NEGOTIATE. -/
  | trainFailRetry (p : Port)
  /-- P1_ATTEMPT (R39). With no G mode left or no partner page within 300 ms, the port sends forerunner idle on L0 and seeks P1 alignment. -/
  | p1Attempt (p : Port)
  /-- P1_ALIGNED (R39). Forerunner cell alignment within 50 ms brings a P1 hop to UP. -/
  | p1Aligned (p : Port) (isP1200 : Bool) (serial beyond : Nat)
  /-- LINK_UP (R39). The partner's aligned report arrives and the port enters UP, raises link_up, starts the link layer and informs E0. -/
  | linkUp (p : Port)
  /-- EQ_SETPOINT_WRITE (R44). A write to CTLE_SET, DFE_Ln_x or FFE_Ln re-seeds the loop, clamping to the envelope and pinning when outside. -/
  | eqSetpointWrite (p : Port) (off : Nat) (v : Nat)
  /-- EQ_ENVELOPE_WRITE (R45). A write to an equaliser envelope takes effect or is refused with cfg_err when min exceeds max. -/
  | eqEnvelopeWrite (p : Port) (off : Nat) (v : Nat)
  /-- LANE_LOST (R47). A lane without signal, lock or alignment for 10 µs or with excess symbol errors is declared lost and the partner is notified. -/
  | laneLost (p : Port) (lane : Fin 2) (cause : Nat)
  /-- LANE_NOTICE_RX (R47). A LANE_NOTICE makes the partner stop striping onto the lost lane at the next cell boundary. -/
  | laneNoticeRx (p : Port) (delims : Bool) (bytes : List Byte)
  /-- LANE_READY (R49). A lost lane clean for 100 consecutive 1 ms windows is marked ready and reported to the head. -/
  | laneReady (p : Port) (lane : Fin 2)
  /-- UNCORRECTABLE_LIMIT (R50). Uncorrectable codewords reaching unc_max in a 1 ms window start RECOVER. -/
  | uncorrectableLimit (p : Port) (n : Nat)
  /-- RECOVER_RX (R50). A partner RECOVER request makes the port join the retrain. -/
  | recoverRx (p : Port) (f : Option SbFrame)
  /-- RECOVER_COMPLETE (R50). Retraining completes within 200 µs, cells resume and the link layer replays unacknowledged cells. -/
  | recoverComplete (p : Port)
  /-- RECOVER_TIMEOUT (R50). A RECOVER not complete within 200 µs takes the link down with cause LINK_LAYER or RECOVER_FAIL. -/
  | recoverTimeout (p : Port)
  /-- LINK_LOSS (R58). Signal absent 10 µs on every lane, CC detach or module LOS takes an up link down, or returns a training port to DETECT. -/
  | linkLoss (p : Port) (cause : Nat)
  /-- DOWN_NOTICE_RX (R59). A partner DOWN_NOTICE takes the link down with cause PARTNER_DOWN. -/
  | downNoticeRx (a : SbArrival)
  /-- NEGOTIATE_TIMEOUT (R58). 20 ms without sideband frames or signal in NEGOTIATE returns the port to DETECT. -/
  | negotiateTimeout (p : Port)
  /-- DOWN_STATE_EXPIRY (R59). After 1 ms in DOWN the port goes to DETECT, or to DISABLED when port_en = 0. -/
  | downStateExpiry (p : Port)
  /-- SLEEP_NOTICE_RX (R55). A partner SLEEP message announces that the partner port is entering P2 or P3. -/
  | sleepNoticeRx (p : Port) (f : SbFrame)
  /-- BEACON_SEND (R56). BEACON_CFG.send starts a beacon on L0 or continuous light to wake the partner. -/
  | beaconSend (p : Port)
  /-- BEACON_ANSWERED (R56). Signal from the partner stops the beacon and the port goes to NEGOTIATE. -/
  | beaconAnswered (p : Port)
  /-- BEACON_TIMEOUT (R56). A beacon unanswered for max_ms stops and raises beacon_unanswered. -/
  | beaconTimeout (p : Port)
  /-- CELL_RX (R73). A cell arrives on a trunk hop; a sequenced cell is accepted in order or discarded with a nak, and accepted cells are forwarded. -/
  | cellRx (p : Port) (raw : List (List Byte))
  /-- STATUS_BLOCK_RX (R74). A received status block releases acknowledged buffers, handles nak and replay start, and updates the round-trip measurement. -/
  | statusBlockRx (p : Port) (w0 ts echo hold : Nat)
  /-- CREDIT_BLOCK_RX (R82). A received credit block updates returned credits and granted limits. -/
  | creditBlockRx (p : Port) (fields : List Nat)
  /-- STATUS_SEND (R73). The receiver sends a status block at least every ack_ns while cells are outstanding. -/
  | statusSend (p : Port)
  /-- REPLAY_TIMER_EXPIRY (R75). No acknowledgement progress for t_rt plus rpl_margin_us with cells outstanding starts a replay. -/
  | replayTimerExpiry (p : Port)
  /-- STATUS_TIMEOUT (R75). stat_tmo_us with cells outstanding and no valid status block sends RETRAIN_REQ and starts RECOVER. -/
  | statusTimeout (p : Port)
  /-- RETRAIN_REQ_RX (R75). A received RETRAIN_REQ makes the port join RECOVER unless already recovering. -/
  | retrainReqRx (r : RetrainReq)
  /-- CRD_CFG_WRITE (R83). A write of CRD_CFG resizes the credit pools or is refused with cfg_err when m_share + g_share exceeds 15. -/
  | crdCfgWrite (p : Port) (v : Nat)
  /-- SLOT_TRANSMIT (R131). In each slot a trunk egress sends the allotted G tunnel cell, else M, G class, T/E by DRR, replays, or a fill cell. -/
  | slotTransmit (p : Port) (e : Ecc)
  /-- LOCAL_EGRESS_DEQUEUE (R130). A local egress dequeues committed packets in class order to its consuming function. -/
  | localEgressDequeue (who : Consumer) (e : Ecc)
  /-- RESEQ_TIMEOUT (R86). An expected cell missing for tmo_us while a later cell is held is declared lost with the run up to the oldest held cell. -/
  | reseqTimeout (tunnel shub dhub half : Nat)
  /-- QUEUE_POINTER_MISMATCH (R143). A pointer copy mismatch or descriptor ECC failure resets the queue, starts an accelerated Gleaner pass and logs the reset. -/
  | queuePointerMismatch (q cause : Nat)
  /-- GLEANER_SWEEP_STEP (R145). The Gleaner reads the next descriptor and frees a buffer of an old incarnation. -/
  | gleanerSweepStep
  /-- GLEANER_PASS_END (R145). At the end of a Gleaner pass the swept counts are compared with the accounts and corrected. -/
  | gleanerPassEnd
  /-- GLEANER_FULL_PASS (R148). A write of GLN_CFG.full starts an accelerated Gleaner pass. -/
  | gleanerFullPass
  /-- ACCOUNT_LIMITS_WRITE (R135). A write of an account's floor or ceiling is accepted or refused with cfg_err when it breaks the limits. -/
  | accountLimitsWrite (a v : Nat)
  /-- RESERVE_WRITE (R137). A write of an account reserve re-seeds the placement loop, clamped to its envelope. -/
  | reserveWrite (a v : Nat)
  /-- PLACEMENT_LOOP (R137). Every PLC_CFG.period epochs the placement loop recomputes the reserves of accounts 4-9. -/
  | placementLoop
  /-- EPOCH_BOUNDARY (R104). At each epoch boundary of chain time the part performs its per-epoch actions. -/
  | epochBoundary (rdWait wrWait busy : Nat) (ack : Bool)
  /-- HB_MISS (R99). The count of epochs without a heartbeat from the home reaches hb_miss_max, raising hb_miss and the home-loss trigger. -/
  | hbMiss
  /-- HB_FIRST_TIMEOUT (R99). No heartbeat 1 s after being homed raises hb_miss and meets the home-loss trigger. -/
  | hbFirstTimeout
  /-- HEARTBEAT_RX (R99). A heartbeat from the current home resets the miss count. -/
  | heartbeatRx (p : Port) (c : Cell)
  /-- HOME_LOST_RX (R108). A hub receiving HOME_LOST becomes homeless and forwards it; a standby head or a boundary home re-homes. -/
  | homeLostRx (p : Port) (c : Cell)
  /-- REHOME_RX (R108). A homeless hub forwards REHOME, takes its address and role, records the new home and sends REHOME_ACK. -/
  | rehomeRx (p : Port) (c : Cell)
  /-- REHOME_ACK_RX (R108). The new home fills the directory entry and sends the hub GEN_CLEAR and a full allotment table. -/
  | rehomeAckRx (p : Port) (c : Cell)
  /-- ENUM_RX (R96). An addressed hub forwards ENUM; an unaddressed hub takes its address, role and home, keys its hop and sends ENUM_REPLY. -/
  | enumRx (p : Port) (c : Cell)
  /-- ENUM_REPLY_RX (R96). The head fills the directory entry, raises hub_added and sends the next ENUM or ends enumeration. -/
  | enumReplyRx (p : Port) (c : Cell)
  /-- ENUM_RESEND (R96). No reply within enum_tmo resends ENUM up to 3 times, then ends enumeration with enum_fail. -/
  | enumResend (ch : Fin 2)
  /-- STANDBY_HELLO_RX (R107). The home records the standby head's device ID and names it in heartbeats. -/
  | standbyHelloRx (p : Port) (c : Cell)
  /-- TD_UP_SEND (R98). A hub whose TD link comes up after enumeration sends TD_UP once the key exchange has ended and the partner is identified. -/
  | tdUpSend
  /-- TD_UP_RX (R98). The head continues enumeration for partner 1 or 2. -/
  | tdUpRx (p : Port) (c : Cell)
  /-- TIME_CELL_RX (R102). A time cell yields an offset by which the hub steps or slews its chain-time counter and updates lock. -/
  | timeCellRx (p : Port) (c : Cell)
  /-- CTIM_SET_GO (R122). A write of CTIM set_go loads SET into a head's chain time at the next epoch boundary. -/
  | ctimSetGo
  /-- HANDOVER_REQUEST (R111). CHN.HANDOVER.req sends HANDOVER_REQ and opens the arbitration window, or completes NO_PEER. -/
  | handoverRequest (ch : Fin 2)
  /-- ARBITRATION_WINDOW_END (R111). When the window closes with no better request, the head sends HANDOVER_GO with t_go. -/
  | arbitrationWindowEnd
  /-- HANDOVER_REQ_RX (R112). A better request received while one is pending completes the own request LOST_ARBITRATION; a hub that applied a GO answers NAK. -/
  | handoverReqRx (p : Port) (c : Cell)
  /-- HANDOVER_GO_RX (R111). Every hub forwards the HANDOVER_GO and arms it. -/
  | handoverGoRx (p : Port) (c : Cell)
  /-- HANDOVER_AT_T_GO (R111). At t_go hubs become homeless and re-home to a winning standby head, or keep their home. -/
  | handoverAtTGo
  /-- HANDOVER_NAK_RX (R112). A HANDOVER_NAK completes the request with LOST_ARBITRATION. -/
  | handoverNakRx (p : Port) (c : Cell)
  /-- DYING_GASP_REPEAT (R116). The hub repeats DYING_GASP every 10 µs gasp_rep times. -/
  | dyingGaspRepeat
  /-- DYING_GASP_RX (R117). The home records the gasp in GASP_LOG and raises gasp_rx. -/
  | dyingGaspRx (p : Port) (c : Cell)
  /-- CMD_PING (R118). CMD_CTL.go with command PING sends CMD to the targets, which only acknowledge. -/
  | cmdPing (v : Nat)
  /-- CMD_SLEEP_P2 (R119). CMD_CTL.go with SLEEP_P2 sends the sleep command or refuses it at write. -/
  | cmdSleepP2 (v : Nat)
  /-- CMD_SLEEP_P3 (R119). CMD_CTL.go with SLEEP_P3 sends the sleep command or refuses it at write. -/
  | cmdSleepP3 (v : Nat)
  /-- CMD_SET_EPOCH (R104). CMD_CTL.go with SET_EPOCH sends the epoch change for t_go. -/
  | cmdSetEpoch (v : Nat)
  /-- CMD_HUB_RESET (R118). CMD_CTL.go with HUB_RESET sends a main-die reset command for t_go. -/
  | cmdHubReset (v : Nat)
  /-- CMD_REENUM (R118). CMD_CTL.go with REENUM sends a command that makes the target and beyond homeless for re-enumeration. -/
  | cmdReenum (v : Nat)
  /-- CMD_RX (R118). A target hub arms the command and answers CMD_ACK with its status. -/
  | cmdRx (p : Port) (c : Cell)
  /-- CMD_ACK_RX (R119). The home records each CMD_ACK, and a sleep refusal sends CANCEL. -/
  | cmdAckRx (p : Port) (c : Cell)
  /-- CMD_TIMEOUT (R119). A target not answering within CMD_TMO fails the command and a sleep is cancelled. -/
  | cmdTimeout
  /-- CANCEL_RX (R119). A CANCEL disarms the named command at the hub. -/
  | cancelRx (p : Port) (c : Cell)
  /-- SET_EPOCH_APPLY (R104). At t_go the epoch code changes and any pending table is dropped. -/
  | setEpochApply
  /-- REENUM_APPLY (R118). At t_go the target and every hub beyond become homeless and the home enumerates from the target. -/
  | reenumApply
  /-- SLEEP_ENTRY (R428). At t_go or the PWS_CTL write the part powers down into P2 or P3 in the entry steps. -/
  | sleepEntry (banks : List Nat)
  /-- TUN_READ (R175). TUN_CMD op read fills TUN_DATA0-3 with the selected entry. -/
  | tunRead
  /-- TUN_WRITE (R153). TUN_CMD op write admits a routing half and sends set messages to the path hubs and then the source. -/
  | tunWrite
  /-- TUN_DELETE (R154). TUN_CMD op delete removes both halves, source first. -/
  | tunDelete
  /-- TUN_WRITE_PARAMS (R151). TUN_CMD op 0x4 writes TUN_W2 and TUN_W3 only. -/
  | tunWriteParams
  /-- TUNNEL_ENTRY_MSG_RX (R153). A hub writes or deletes a tunnel entry from a tunnel 6 message and answers done or refused. -/
  | tunnelEntryMsgRx (p : Port) (c : Cell)
  /-- TUNNEL_ENTRY_ANSWER_RX (R153). The head collects answers and proceeds to the source or completes with tun_done. -/
  | tunnelEntryAnswerRx (p : Port) (c : Cell)
  /-- TUNNEL_ENTRY_RESEND (R153). A missing answer after 1 ms is resent up to 3 times, then the half is deleted with NO_ACK. -/
  | tunnelEntryResend
  /-- TUNNEL_DELETE_WAIT_END (R154). After 2 × chain round trip the head deletes the half at the other hubs. -/
  | tunnelDeleteWaitEnd
  /-- DEMAND_REPORT_RX (R164). The head stores a part's demand report, counting it late when it arrives after the cutoff. -/
  | demandReportRx (p : Port) (shub : Fin 64) (l : List Byte)
  /-- LINK_REPORT_RX (R514). The head updates the capacity of the hop from the link report. -/
  | linkReportRx (p : Port) (c : Cell)
  /-- ALLOTTER_COMPUTE (R165). At the cutoff of each epoch the allotter computes G periods and E rates for every hop of a chain. -/
  | allotterCompute (ch : Fin 2)
  /-- ALLOTMENT_TABLE_RX (R168). A part fills its next bank from a table and builds calendars, or discards the table as late or with a wrong base. -/
  | allotmentTableRx (p : Port) (m : TableMsg)
  /-- ALT_CFG_WRITE (R156). A write of ALT_CFG is applied and propagated to every hop, or refused with cfg_err. -/
  | altCfgWrite (v : Nat)
  /-- HOP_FACTOR_WRITE (R166). A write of HOP_DATA1.f re-seeds the hop factor in the next computation. -/
  | hopFactorWrite (v : Nat)
  /-- T_REQUEST_RX (R183). An egress function sorts an arriving T request into its queues, answering RETRY when a non-posted queue is full. -/
  | tRequestRx (p : Port) (slow : Bool) (d : Delivery)
  /-- COMPLETION_RX (R187). An initiator matches a completion by vhc and tag, discarding unexpected or quarantined ones. -/
  | completionRx (d : Delivery)
  /-- COMPLETION_TIMEOUT (R188). A non-posted request times out, completes locally with CA, is logged and its tag quarantined. -/
  | completionTimeout (init : Fin 11) (v : Vhc) (tag : Nat)
  /-- QUARANTINE_EXPIRY (R188). A quarantined tag returns to the pool after the quarantine time. -/
  | quarantineExpiry (init : Fin 11) (v : Vhc) (tag : Nat)
  /-- SLOW_TARGET_RETRY (R189). A slow target not done within t_retry_us answers RETRY with a ticket and continues in a delayed-read slot. -/
  | slowTargetRetry (v : Vhc) (tag : Nat)
  /-- DELAYED_OP_COMPLETE (R190). The operation in a delayed-read slot completes and the slot becomes READY. -/
  | delayedOpComplete (n : Fin 64)
  /-- SLOT_DISCARD_EXPIRY (R191). A READY slot not collected within disc_ms is freed and DISCARD logged. -/
  | slotDiscardExpiry (n : Fin 64)
  /-- HEAD_REISSUE (R193). ivl_us after a RETRY the head re-issues the request. -/
  | headReissue (v : Vhc) (tag : Nat)
  /-- WINDOW_READ_LIMIT (R193). A host read uncompleted for rd_lim_ms completes with CA and the ticket is abandoned. -/
  | windowReadLimit (v : Vhc) (tag : Option Nat)
  /-- ERROR_EVENT_RX (R197). The head posts an error event to the owning VHC's error queue, or discards it when the generation differs. -/
  | errorEventRx (p : Port) (c : Cell)
  /-- QUOTA_WRITE (R185). A write of QUOTA_DATA sets a VHC's tag quota or is refused with cfg_err beyond 4,096 in total. -/
  | quotaWrite (v : Nat)
  /-- ERL_CLR (R208). A write of ERL_CLR empties the error log ring. -/
  | erlClr
  /-- PX_INBOUND_CYCLE (R201). The bridge claims the idle PX bus and runs an inbound read or write cycle with its timing set. -/
  | pxInboundCycle
  /-- PX_CYCLE_END (R201). The PX cycle samples RDY high, completes and the bus returns idle. -/
  | pxCycleEnd (ad : Nat)
  /-- PX_TIMEOUT (R201). RDY low beyond rdy_max_us ends the cycle; a read completes CA and a write is logged PX_TIMEOUT. -/
  | pxTimeout
  /-- EXTERNAL_MASTER_CYCLE (R202). An external master's cycle in an outbound window is served by the bridge as target. -/
  | externalMasterCycle (write : Bool) (addr : Nat) (be : Fin 4) (data : Nat)
  /-- MASTER_RETRY (R203). An external read or confirmed write not done within t_pxr_us is ended with RETRY_N and held as a delayed operation. -/
  | masterRetry
  /-- PXINT (R200). PXINT_N low sets pxint in PXB. -/
  | pxint
  /-- HOST_MMIO_REQUEST (R214). A host access to a VF BAR2 slot becomes a T request in tun_dn, or completes UR when invalid or not ACTIVE. -/
  | hostMmioRequest (v : Vhc) (slot : Fin 16) (write : Bool) (off len : Nat) (data : List Byte)
  /-- VHC_CREATE (R217). VHG CREATE makes a FREE VHC ACTIVE with an empty directory and its tag quota. -/
  | vhcCreate (w numVfs : Nat)
  /-- VHC_ADD_FUNC (R218). VHG ADD_FUNC allocates and admits the function's tunnels and makes the directory entry valid, or refuses. -/
  | vhcAddFunc (w : Nat)
  /-- VHC_REMOVE_FUNC (R225). VHG REMOVE_FUNC deletes the function's tunnels, drains it and invalidates the entry. -/
  | vhcRemoveFunc (w : Nat)
  /-- VHC_DISABLE (R224). VHG DISABLE moves the VHC to DRAINING, advances its generation at the hubs and drains. -/
  | vhcDisable (w : Nat)
  /-- VHC_ENABLE (R217). VHG ENABLE makes a DISABLED VHC ACTIVE with functions from reset under the new generation. -/
  | vhcEnable (w : Nat)
  /-- VHC_FREEZE (R227). VHG FREEZE moves the VHC to FREEZING and sends FREEZE_FN to its hubs. -/
  | vhcFreeze (w : Nat)
  /-- VHC_THAW (R217). VHG THAW makes a FROZEN VHC ACTIVE at the same generation and delivers held interrupts. -/
  | vhcThaw (w : Nat)
  /-- VHC_SAVE (R228). VHG SAVE starts writing the VHC image to host memory, or refuses with IMG_SIZE. -/
  | vhcSave (w : Nat)
  /-- VHC_RESTORE (R229). VHG RESTORE checks an image and loads it into a FREE VHC, or refuses. -/
  | vhcRestore (w : Nat) (image : Option (List Byte))
  /-- VHC_DESTROY (R217). VHG DESTROY deletes the tunnels, returns the quota and makes the VHC FREE. -/
  | vhcDestroy (w : Nat)
  /-- VHG_BAD_OP (R232). A VHG_CMD with an undefined op completes with BAD_OP. -/
  | vhgBadOp (w : Nat)
  /-- VF_FLR (R226). An FLR of a VF disables the VHC and then re-enables it with directory and tunnels kept. -/
  | vfFlr (v : Vhc)
  /-- VF_ENABLE_CLEAR (R224). The PF clearing VF Enable disables the VHCs by the DISABLE steps. -/
  | vfEnableClear
  /-- DRAIN_COMPLETE (R224). When host_np + dev_np reaches 0 the draining VHC becomes DISABLED or FROZEN. -/
  | drainComplete (v : Vhc)
  /-- DRAIN_TIMEOUT (R224). T_drain passing ends the drain; remaining requests complete CA and the VHC becomes DISABLED or FROZEN. -/
  | drainTimeout (v : Vhc)
  /-- GEN_SET_RX (R222). A hub writes GEN_TBL and GEN_VALID, parks or resets the VHC's functions and answers. -/
  | genSetRx (p : Port) (c : Cell) (own : List (Nat × Nat))
  /-- GEN_CLEAR_RX (R222). A hub clears all of GEN_VALID, parks every function and answers. -/
  | genClearRx (p : Port) (c : Cell)
  /-- GEN_QUERY_RX (R222). A hub reports the generation it holds. -/
  | genQueryRx (p : Port) (c : Cell)
  /-- FREEZE_FN_RX (R227). A hub stops or resumes the VHC's functions at the next transfer boundary and answers. -/
  | freezeFnRx (p : Port) (c : Cell)
  /-- GEN_ANSWER_RX (R222). The head collects answers to a generation message and proceeds with the command. -/
  | genAnswerRx (p : Port) (c : Cell)
  /-- GEN_MESSAGE_RESEND (R222). An unanswered generation message is resent up to 3 times, then the silent hub is recorded and gen_nak raised. -/
  | genMessageResend (seq : Nat)
  /-- INTERRUPT_EVENT_RX (R220). The event distributor maps an interrupt event cell to an MSI-X vector of the owning VF, or drops it. -/
  | interruptEventRx (p : Port) (c : Cell)
  /-- FENCE_RELEASE (R184). Once the fence tseq has been delivered and written, the held MSI-X is signalled. -/
  | fenceRelease (v : Vhc)
  /-- SAVE_COMPLETE (R228). The image write ends, IMG_LEN is set and save_done raised, or SAVE ends with DMA_ERR. -/
  | saveComplete (v : Vhc) (ok : Bool) (ctxs : List Byte)
  /-- RESTORE_COMPLETE (R229). The restored VHC becomes ACTIVE, held events are delivered and restore_done raised. -/
  | restoreComplete (v : Vhc)
  /-- EQ_CFG_WRITE (R233). A write of EQ_CFG configures the error queue and clears EQ_TAIL. -/
  | eqCfgWrite (v : Vhc) (w : Nat)
  /-- PR_TAIL_WRITE (R235). A write of PR_TAIL presents new ring entries to the encoder. -/
  | prTailWrite (v : Vhc) (f : Fin 16) (tail : Nat) (ents : List (List Byte))
  /-- PR_CFG_WRITE (R258). A write of PR_CFG configures the present ring and clears PR_HEAD, ignored while entries are pending. -/
  | prCfgWrite (v : Vhc) (f : Fin 16) (w : Nat)
  /-- ENCODE_SUBSET_START (R238). An encode pipeline takes the next subset of a bound function and fetches and codes its tiles. -/
  | encodeSubsetStart (pipe : Fin 4) (g : HeadGeo)
  /-- PIXEL_FETCH_COMPLETE (R237). Pixel fetches of an entry complete and PR_HEAD advances past it. -/
  | pixelFetchComplete (v : Vhc) (f : Fin 16) (ok : Bool) (px : List Nat)
  /-- TILE_CELL_RX (R248). A hub checks each tile of a subset into the FILLING staging bank and closes the bank at the last tile. -/
  | tileCellRx (n : Bay) (good : Bool) (c : Cell)
  /-- STAGING_TIMEOUT (R249). No cell for set_tmo_ms while FILLING drops the subset with cause TIMEOUT. -/
  | stagingTimeout (n : Bay)
  /-- TILE_ROW_COMMIT (R250). A CLOSED bank commits a tile row once the decoder has read that row, emptying the bank when done. -/
  | tileRowCommit (n : Bay)
  /-- PRESENT_DONE_RX (R253). The head receives a present-done event and writes the completion record at the final subset or first drop. -/
  | presentDoneRx (p : Port) (c : Cell)
  /-- LOFT_ALLOCATE (R254). LOFT_CMD allocate reserves granules for a display head and fills them with black, or fails. -/
  | loftAllocate (w : Nat)
  /-- LOFT_FREE (R255). LOFT_CMD free returns a head's granules, or fails with STATE. -/
  | loftFree (w : Nat)
  /-- DECODE_TILE_ROW (R263). The scan-out decoder decodes the next tile row of the front slot into its line buffer. -/
  | decodeTileRow (n : Bay) (ecc : List (Nat × Bool))
  /-- FRAME_START (R262). At frame start the head counts the frame, latches chain time, flips and applies freeze actions. -/
  | frameStart (n : Bay)
  /-- DISP_RUN (R265). A write of DISP_CTL.run = 1 starts the timing generator when the checks pass, otherwise refuses. -/
  | dispRun (n : Bay)
  /-- DISP_STOP (R265). A write of run = 0 stops the generator at the next frame start. -/
  | dispStop (n : Bay)
  /-- DISP_RETRAIN (R285). DISP_CTL.retrain restarts DisplayPort training at step 1. -/
  | dispRetrain (n : Bay) (k : Sink)
  /-- EDID_READ (R275). DISP_CTL.edid_read reads the EDID blocks into the buffer, retrying bad checksums. -/
  | edidRead (n : Bay) (edid : List (List (List Byte)))
  /-- HPD_PLUG (R272). HPD high for plug_ms raises plug and starts link training. -/
  | hpdPlug (n : Bay) (k : Sink)
  /-- HPD_IRQ (R272). HPD low for 0.25-2 ms raises hpd_irq, reads DPCD status and retrains on lost lock. -/
  | hpdIrq (n : Bay) (lost : Bool)
  /-- HPD_UNPLUG (R272). HPD low over 2 ms raises unplug and stops the stream. -/
  | hpdUnplug (n : Bay)
  /-- LINK_TRAINING_DONE (R273). A candidate's training completes; success starts the stream, failure tries the next or raises lt_fail. -/
  | linkTrainingDone (n : Bay) (ok eq : Bool)
  /-- TRIM_WRITE (R269). A write of TRIM.trim re-seeds the chain-locked trim at the next frame start. -/
  | trimWrite (n : Bay) (v : Nat)
  /-- WINDOW_SIGNATURE (R276). At a window's last pixel its signature completes and WINw_SIG updates. -/
  | windowSignature (n : Bay) (w : Fin 8)
  /-- WINDOW_CFG_WRITE (R283). A write of WINw_CFG ends any violation and restarts the window. -/
  | windowCfgWrite (n : Bay) (w : Fin 8) (k : Fin 3) (v : Nat)
  /-- WINDOW_CAPTURE (R278). WINw_CFG.capture loads the next signature into WINw_REF. -/
  | windowCapture (n : Bay) (w : Fin 8)
  /-- FREEZE_CLEAR (R277). FRZ_CLR ends a latched violation of a window or the watchdog. -/
  | freezeClear (n : Bay) (v : Nat)
  /-- PRESENT_WATCHDOG_EXPIRY (R279). wd_ms without commit or flip puts the present watchdog in violation. -/
  | presentWatchdogExpiry (n : Bay)
  /-- PORTSC_PP_WRITE (R291). A PORTSC.PP write asks the bay PD policy to source VBUS or stop. -/
  | portscPpWrite (n : Bay) (port : Fin 3) (v : Bool)
  /-- CONFIGURE_ENDPOINT (R295). Configure Endpoint completes, or with Bandwidth Error when it would exceed the isochronous or TT budget. -/
  | configureEndpoint (n : Bay) (t : Nat) (slot port : Nat) (tt : Bool) (add : List EpCfg) (drop : List Nat) (ev : UsbEv)
  /-- STOP_ENDPOINT (R301). Stop Endpoint stops an endpoint, losing to a coincident halt with Context State Error. -/
  | stopEndpoint (n : Bay) (t : Nat) (slot dci : Nat) (halt : Option Nat) (tev ev : UsbEv)
  /-- RESET_DEVICE (R302). Reset Device stops TDs in progress, clears TT buffers and drops banked isochronous data. -/
  | resetDevice (n : Bay) (t : Nat) (slot : Nat) (evs : List UsbEv) (ev : UsbEv)
  /-- DOORBELL_WRITE (R301). A doorbell rings an endpoint, with no effect when halted. -/
  | doorbellWrite (n : Bay) (t : Nat) (slot dci : Nat) (reads : List (Nat × Nat))
  /-- USB_PORT_RESET (R302). A port reset stops the device's TDs and clears its translator state. -/
  | usbPortReset (n : Bay) (t : Nat) (port : Fin 3) (evs : List UsbEv)
  /-- USB_DISCONNECT (R302). A device disconnect stops TDs in progress and discards later data. -/
  | usbDisconnect (n : Bay) (t : Nat) (port : Fin 3) (evs : List UsbEv)
  /-- STALL_RX (R300). A STALL handshake completes the TD with Stall Error and halts the endpoint. -/
  | stallRx (n : Bay) (t : Nat) (slot dci : Nat) (ev : UsbEv)
  /-- MEMORY_REQUEST_FAILURE (R294). A failed controller memory request completes the TD or command with code 192 or halts with HSE. -/
  | memoryRequestFailure (n : Bay) (t : Nat) (what : UsbFail) (slot dci : Nat) (ev : UsbEv)
  /-- ISO_INTERVAL_START (R297). At each 125 µs bus interval the bay closes and sends the IN bank, sends OUT pulls and serves the OUT bank. -/
  | isoIntervalStart (n : Bay) (t : Nat) (ins : List (UsbEv × List (Nat × List Byte))) (pull : List (UsbEv × List (Nat × Nat))) (tardy : List UsbEv)
  /-- ISO_STAGING_RX (R297). The head writes IN staging data to host memory and sends ISO_ACK, or fetches OUT pull data and returns it. -/
  | isoStagingRx (p : Port) (c : Cell) (data : List (Option (List Byte)))
  /-- ISO_ACK_RX (R297). The bay writes the Transfer Events of the acknowledged interval. -/
  | isoAckRx (n : Bay) (t : Nat) (c : Cell)
  /-- ISO_ACK_TIMEOUT (R297). No ISO_ACK within ack_ms completes the interval's TDs with code 192 and counts iso_lost. -/
  | isoAckTimeout (n : Bay) (t : Nat) (k : Nat)
  /-- ISO_OUT_DATA_RX (R298). OUT data for an interval commits in the bay's account, ready to move into its bank. -/
  | isoOutDataRx (n : Bay) (c : Cell)
  /-- HOST_RESUME_WRITE (R303). A host resume write drives resume signalling, treating a colliding device wake as a host resume. -/
  | hostResumeWrite (n : Bay) (port : Fin 3)
  /-- DEVICE_REMOTE_WAKE (R303). Device wake signalling on a suspended port is handled per xHCI or as a collision. -/
  | deviceRemoteWake (n : Bay) (port : Fin 3)
  /-- SVC_ATTACH (R305). The service device connects its pull-up when enabled and the attach condition holds in P0 or P1. -/
  | svcAttach
  /-- SVC_DETACH (R305). The service device disconnects within 1 ms when the condition or enable ends or on sleep. -/
  | svcDetach
  /-- SVC_BUS_RESET (R307). A bus reset aborts a control transfer, clears halts, returns to Default and tells E15. -/
  | svcBusReset (hs : Bool)
  /-- SVC_SUSPEND (R305). After 3 ms of bus idle the service function suspends. -/
  | svcSuspend
  /-- SVC_RESUME (R305). Resume signalling takes the service function out of suspend. -/
  | svcResume
  /-- SVC_CONTROL_REQUEST (R306). A standard request is served, any other answered with STALL. -/
  | svcControlRequest (setup : List Byte) (acked : Bool)
  /-- SVC_BULK_OUT (R384). A bulk OUT transfer is carried to E15 as one mailbox request. -/
  | svcBulkOut (seq : Nat) (r : MbReq)
  /-- ETH_RX_FRAME (R314). A received frame is filtered, timestamped, stored in the FIFO and sent as an E packet or hairpin. -/
  | ethRxFrame (n : Bay) (frame : List Byte) (fcs : Bool) (nic : Nat)
  /-- PAUSE_REPEAT (R312). PAUSE is repeated every half quanta time while the FIFO stays above xoff_kib. -/
  | pauseRepeat (n : Bay)
  /-- ETH_TX_FRAME (R315). A dequeued frame is padded, tagged and sent with FCS, or discarded without link or when too long. -/
  | ethTxFrame (n : Bay) (good : Bool) (c : Cell)
  /-- ETH_LINK_UP (R310). The PCS link comes up and link_up is raised. -/
  | ethLinkUp (n : Bay) (an : Bool) (speed : Fin 4)
  /-- ETH_LINK_DOWN (R315). The PCS link drops, ending a frame in progress with inverted FCS. -/
  | ethLinkDown (n : Bay) (cut : Option (List Byte))
  /-- MDIO_CMD (R311). MDIO_CMD.go starts a Clause 22 or 45 frame on MDC and MDIO. -/
  | mdioCmd (n : Bay) (w : Nat)
  /-- MDIO_DONE (R311). The MDIO frame completes, busy clears and read data is available. -/
  | mdioDone (n : Bay) (data : Nat)
  /-- NIC_TX_TAIL_WRITE (R318). A TX ring tail write lets the head fetch frames as shaper tokens allow and send them. -/
  | nicTxTailWrite (v : Vhc) (f : Fin 16) (q : Fin 4) (tail : Nat) (descs : List (List Byte × Option (List Byte)))
  /-- NIC_FRAME_RX (R319). The head places a received frame into its RX ring and writes back descriptors, or drops it. -/
  | nicFrameRx (p : Port) (good : Bool) (c : Cell) (bufs : List Nat)
  /-- RX_IRQ_TIMER (R319). 50 µs after the first unsignalled frame the RX queue vector is signalled. -/
  | rxIrqTimer (v : Vhc) (f : Fin 16) (q : Fin 4)
  /-- TIMESTAMP_EVENT_RX (R320). The head accepts a transmit timestamp event and writes back the waiting TX descriptor. -/
  | timestampEventRx (p : Port) (c : Cell)
  /-- TIMESTAMP_TIMEOUT (R318). No timestamp event within ts_tmo_ms writes back the descriptor with ts_valid = 0. -/
  | timestampTimeout (v : Vhc) (f : Fin 16) (q : Fin 4) (idx : Nat)
  /-- NIC_RING_CFG_WRITE (R329). A ring CFG or BASE write takes effect only while en = 0, and setting en clears the ring head. -/
  | nicRingCfgWrite (v : Vhc) (f : Fin 16) (rx : Bool) (q : Fin 4) (r : Fin 3) (w : Nat)
  /-- BAY_ENABLE (R470). BAYn.PG_CTL.en = 1 starts the bay as after a main-die reset. -/
  | bayEnable (n : Bay)
  /-- BAY_DISABLE (R470). BAYn.PG_CTL.en = 0 holds the bay in reset, gates its clocks and turns off its VBUS switch. -/
  | bayDisable (n : Bay)
  /-- PERST_RELEASE (R324). 100 ms after the clock starts the port releases PERST_N and trains. -/
  | perstRelease (n : Bay)
  /-- PCIE_LINK_UP (R324). The root port link comes up and hub firmware assigns the device BARs. -/
  | pcieLinkUp (n : Bay) (gen width : Nat) (bars : List (Nat × Nat))
  /-- PCIE_LINK_DOWN (R328). An unexpected link down completes outstanding requests with CA and schedules a retrain. -/
  | pcieLinkDown (n : Bay)
  /-- PCIE_RETRAIN_TIMER (R328). 100 ms after the link down the port retrains. -/
  | pcieRetrainTimer (n : Bay)
  /-- PCIE_PERST_WRITE (R331). A write of PCIE_CTL.perst holds or releases PERST_N. -/
  | pciePerstWrite (n : Bay) (v : Bool)
  /-- PCIE_HOT_RESET (R331). PCIE_CTL.hot_reset performs a hot reset of the link. -/
  | pcieHotReset (n : Bay)
  /-- PCIE_RETRAIN (R331). PCIE_CTL.retrain retrains the link. -/
  | pcieRetrain (n : Bay)
  /-- CONFIG_CRS_RETRY (R325). A configuration request answered CRS is reissued every 1 ms until dev_cto_ms, then completed with CRS. -/
  | configCrsRetry (n : Bay) (id : Nat) (expired : Bool)
  /-- DEVICE_COMPLETION_TIMEOUT (R326). A request not completed by the device within dev_cto_ms completes CA and logs DEVICE. -/
  | deviceCompletionTimeout (n : Bay) (id : Nat)
  /-- DEVICE_MEMORY_REQUEST (R327). A device memory request becomes a T request toward the head, or an interrupt or error message. -/
  | deviceMemoryRequest (n : Bay) (t : Nat) (r : DevReq)
  /-- CC_TOGGLE (R333). In DRP the bay alternates Rp and Rd every half of its 75 ms period while unattached. -/
  | ccToggle (n : Bay)
  /-- CC_ATTACH (R334). The opposite termination on one CC line for att_ms declares attach and starts the source sequence. -/
  | ccAttach (n : Bay)
  /-- CC_DETACH (R355). Detach ends every state; the mux returns to USB, the switch turns off, VCONN off and VBUS discharges. -/
  | ccDetach (n : Bay)
  /-- SINK_DISCONNECT (R334). As a Sink, VBUS below vSinkDisconnect declares detach. -/
  | sinkDisconnect (n : Bay)
  /-- VBUS_ON_TIMEOUT (R341). VBUS not in vSafe5V within tVBUSON records VBUS_FAULT and enters ERROR_RECOVERY. -/
  | vbusOnTimeout (n : Bay)
  /-- SOURCE_CAPS_SEND (R341). The bay sends Source_Capabilities every tTypeCSendSourceCap until GoodCRC. -/
  | sourceCapsSend (n : Bay) (acked : Bool) (late : Bool)
  /-- PD_REQUEST_RX (R341). A Request is answered through the request hook with Accept, Reject or Wait. -/
  | pdRequestRx (n : Bay) (rev3 : Bool) (pos v i : Nat) (late : Bool)
  /-- SENDER_RESPONSE_TIMEOUT (R341). No Request within tSenderResponse of the capabilities sends Hard Reset. -/
  | senderResponseTimeout (n : Bay)
  /-- SRC_TRANSITION_EXPIRY (R341). tSrcTransition after Accept the bay moves its setpoint to the new voltage. -/
  | srcTransitionExpiry (n : Bay)
  /-- PS_RDY_SEND (R341). VBUS reaching the new window sends PS_RDY and makes the contract. -/
  | psRdySend (n : Bay)
  /-- PPS_TIMEOUT (R342). No PPS Request within tPPSTimeout sends Hard Reset with cause PPS_TIMEOUT. -/
  | ppsTimeout (n : Bay)
  /-- PD_EPR_MODE_RX (R343). EPR_Mode Enter is acknowledged and EPR capabilities sent, or answered Enter Failed. -/
  | pdEprModeRx (n : Bay) (enter : Bool)
  /-- EPR_KEEPALIVE_TIMEOUT (R343). No EPR_KeepAlive within tSourceEPRKeepAlive sends Hard Reset with cause EPR_KEEPALIVE. -/
  | eprKeepaliveTimeout (n : Bay)
  /-- PD_PR_SWAP_RX (R346). A PR_Swap is answered through the pr_swap hook, always Reject while wet. -/
  | pdPrSwapRx (n : Bay) (late : Bool)
  /-- PD_DR_SWAP_RX (R346). A DR_Swap is always rejected. -/
  | pdDrSwapRx (n : Bay)
  /-- PD_VCONN_SWAP_RX (R346). A VCONN_Swap is answered through the vconn_swap hook. -/
  | pdVconnSwapRx (n : Bay) (late : Bool)
  /-- PD_HARD_RESET_RX (R356). A Hard Reset returns the mux to USB, drops VBUS to vSafe0V and waits tSrcRecover. -/
  | pdHardResetRx (n : Bay)
  /-- PD_SOURCE_CAPS_RX (R340). As a Sink the bay chooses an object through the sink_select hook and requests it. -/
  | pdSourceCapsRx (n : Bay) (rev3 : Bool) (caps : List Pdo) (late : Bool)
  /-- PD_PS_RDY_RX (R346). A partner PS_RDY completes a swap step. -/
  | pdPsRdyRx (n : Bay)
  /-- SWAP_PS_RDY_TIMEOUT (R346). No PS_RDY within 550 ms of an accepted PR_Swap enters ERROR_RECOVERY. -/
  | swapPsRdyTimeout (n : Bay)
  /-- SINKTX_WAIT_END (R344). tSinkTx after setting SinkTxNG the bay starts its own atomic sequence. -/
  | sinktxWaitEnd (n : Bay)
  /-- VCONN_OVERCURRENT (R347). VCONN overcurrent turns VCONN off within 10 µs and raises vconn_err. -/
  | vconnOvercurrent (n : Bay)
  /-- PD_VDM_RX (R349). Discover and DisplayPort VDM answers advance DP alternate mode entry and configuration. -/
  | pdVdmRx (n : Bay) (m : Vdm) (late : Bool)
  /-- SRC_RECOVER_EXPIRY (R356). After tSrcRecover the bay restores vSafe5V and VCONN and continues the source sequence. -/
  | srcRecoverExpiry (n : Bay)
  /-- MOISTURE_MEASURE (R352). Every 1 s while unattached the bay measures CC and SBU leakage, and two low readings make the port wet. -/
  | moistureMeasure (n : Bay) (term : Bool) (cc sbu : Nat) (temp : Int) (late : Bool)
  /-- DRY_WAIT_MEASURE (R353). Every dry_wait_s in DRY_WAIT the bay measures again, returning dry after dry_cnt good readings. -/
  | dryWaitMeasure (n : Bay) (cc sbu : Nat) (temp : Int)
  /-- HOOK_TIMEOUT (R358). A policy hook without an answer within 5 ms takes its default and counts hook_tmo. -/
  | hookTimeout (n : Bay)
  /-- TC_ERR_RECOVERY (R360). TC_CTL.err_recovery opens CC for 25 ms, then UNATTACHED. -/
  | tcErrRecovery (n : Bay)
  /-- TC_EXIT_ALT (R351). TC_CTL.exit_alt leaves alternate mode and returns the mux to USB. -/
  | tcExitAlt (n : Bay)
  /-- TC_PR_SWAP (R346). TC_CTL.pr_swap sends PR_Swap only where the hook allows. -/
  | tcPrSwap (n : Bay) (late : Bool)
  /-- TC_VCONN_SWAP (R360). TC_CTL.vconn_swap sends VCONN_Swap. -/
  | tcVconnSwap (n : Bay)
  /-- TC_HARD_RESET (R356). TC_CTL.hard_reset sends Hard Reset and runs the recovery. -/
  | tcHardReset (n : Bay)
  /-- TC_RENEGOTIATE (R337). TC_CTL.renegotiate sends Source_Capabilities again. -/
  | tcRenegotiate (n : Bay)
  /-- FEED_FORWARD (R362). A feed more than 30 mV above VOR_S for 10 µs turns its ideal-diode gate on. -/
  | feedForward (f : Fin 2)
  /-- FEED_REVERSE (R362). A feed more than 10 mV below VOR_S has its gate pulled off within 0.5 µs. -/
  | feedReverse (f : Fin 2)
  /-- FEED_LOW (R363). A feed below warn for 2 µs is low and a used feed drives FEED_WARN_N low. -/
  | feedLow (f : Fin 2) (below8 : Bool)
  /-- FEED_RECOVER (R363). A feed above warn + 0.5 V for 1 ms stops being low. -/
  | feedRecover (f : Fin 2)
  /-- EFUSE_WAIT_EXPIRY (R364). After 10 ms in WAIT the eFuse turns EF_PCG on and enters PRECHARGE. -/
  | efuseWaitExpiry
  /-- PRECHARGE_DONE (R364). EF_OUT reaching pg_pct of VOR_S enters RAMP with limit and fast trip armed. -/
  | prechargeDone
  /-- PRECHARGE_TIMEOUT (R364). EF_OUT not reaching pg_pct within t_pc_ms ends pre-charge with cause PRECHG_TMO. -/
  | prechargeTimeout
  /-- GATE_ENHANCED (R364). Full gate enhancement with EF_OUT in the PG window enters PG_WAIT and starts the deglitch. -/
  | gateEnhanced
  /-- PG_DEGLITCH_DONE (R364). The PG conditions holding for t_PGD raise PG and enter ON. -/
  | pgDeglitchDone
  /-- LIMIT_START (R365). The eFuse entering current limit drives FLT_N low, sets ew and starts the fault timer. -/
  | limitStart
  /-- LIMIT_END (R365). The limit episode ends before the timer expires and FLT_N returns high. -/
  | limitEnd
  /-- FAULT_TIMER_EXPIRY (R365). The fault timer expires, the gate discharges and the fault takes cause TIMER. -/
  | faultTimerExpiry (e : Nat)
  /-- FAST_TRIP (R366). Sense voltage above the fast-trip threshold pulls the gate off within 300 ns and drops PG. -/
  | fastTrip (e : Nat)
  /-- PG_WINDOW_EXIT (R367). EF_OUT leaving the PG window while PG is high drops PG after 10 µs. -/
  | pgWindowExit
  /-- COOLDOWN_END (R369). After t_cool the eFuse restarts at step 1 and counts a retry, or latches at retry_max. -/
  | cooldownEnd
  /-- EF_CLR (R369). EF_CTL.clr releases a latched eFuse to restart, with no effect during limit or cooldown. -/
  | efClr
  /-- EF_OFF_WRITE (R369). A write of EF_CTL.off turns the gate off and ends cooldown, or with 0 restarts the eFuse. -/
  | efOffWrite (v : Bool)
  /-- EFUSE_OV (R370). VOR_S above ov for 5 µs turns the gate off and drops PG with cause OV. -/
  | efuseOv
  /-- EFUSE_OV_RECOVER (R370). VOR_S below ov − 1 V for 10 ms returns the eFuse to WAIT. -/
  | efuseOvRecover
  /-- COMPANION_THERMAL_SHUTDOWN (R370). At 125 °C the eFuse gate, every bay switch and VCONN turn off with cause THERMAL. -/
  | companionThermalShutdown
  /-- COMPANION_THERMAL_RECOVER (R370). Below 110 °C the eFuse restarts after cooldown and the bays restart from UNATTACHED. -/
  | companionThermalRecover
  /-- BAY_SWITCH_TRIP (R372). Fast overcurrent, overcurrent, overvoltage or undervoltage turns the bay switch off and starts discharge. -/
  | baySwitchTrip (n : Bay) (cause : Fin 4)
  /-- DISCHARGE_DONE (R374). VBUS_S below 0.70 V ends discharge and raises disch_done. -/
  | dischargeDone (n : Bay)
  /-- DISCHARGE_FAIL (R374). VBUS_S not below 0.80 V within 650 ms raises disch_fail. -/
  | dischargeFail (n : Bay)
  /-- VBUS_TRIM_STEP (R373). Every 100 µs the VSET trim moves one duty step toward the setpoint within its envelope. -/
  | vbusTrimStep (n : Bay) (up : Bool)
  /-- VBS_TRIM_WRITE (R373). A write of VBS_TRIM.trim re-seeds the VBUS trim. -/
  | vbsTrimWrite (n : Bay) (v : Nat)
  /-- ENGINE_WATCHDOG_EXPIRY (R382). An engine's watchdog expires and E15 reloads the engine from the active bundle. -/
  | engineWatchdogExpiry (e : Fin 15)
  /-- ENGINE_RESTART (R382). ENG_CTL.restart makes E15 stop and reload the engine. -/
  | engineRestart (e : Fin 16)
  /-- ENGINE_RESTART_COMPLETE (R382). The reloaded engine restarts within 20 ms, or halts on a digest failure with table_err. -/
  | engineRestartComplete (e : Fin 16) (ok : Bool)
  /-- MAILBOX_CLAIM (R384). A write of MB_OWN.owner while 0 claims the mailbox for the source. -/
  | mailboxClaim (src : Fin 3) (e : Fin 16)
  /-- MAILBOX_RELEASE (R384). MB_CTL.release returns owner to 0 unless the request is busy. -/
  | mailboxRelease (e : Fin 16)
  /-- MAILBOX_OWN_TIMEOUT (R384). An owned mailbox left unreleased for own_ms while done or idle is released and counted. -/
  | mailboxOwnTimeout (e : Fin 16)
  /-- GET_INFO (R386). Mailbox op GET_INFO returns versions, profile and lock source, and measurements. -/
  | getInfo (src : Fin 3) (e : Fin 16) (seq : Nat)
  /-- LOAD_TIMING (R387). Mailbox op LOAD_TIMING loads a display timing entry into DISP, or completes STATE or NOT_FOUND. -/
  | loadTiming (src : Fin 3) (e : Fin 16) (seq id : Nat)
  /-- LOAD_WINDOW (R387). Mailbox op LOAD_WINDOW loads a PX window entry into PXB. -/
  | loadWindow (src : Fin 3) (e : Fin 16) (seq w id : Nat) (stuck : Bool)
  /-- LOAD_FREEZE (R386). Mailbox op LOAD_FREEZE loads a freeze set into FRZ. -/
  | loadFreeze (src : Fin 3) (e : Fin 16) (seq id : Nat)
  /-- UPD_BEGIN (R401). Mailbox op UPD_BEGIN opens an update session and erases the inactive slot. -/
  | updBegin (src : Fin 3) (e : Fin 16) (seq kind size : Nat)
  /-- UPD_DATA (R401). Mailbox op UPD_DATA writes a chunk of the new image. -/
  | updData (src : Fin 3) (e : Fin 16) (seq off : Nat) (d : List Byte)
  /-- UPD_VERIFY (R401). Mailbox op UPD_VERIFY checks the written image and returns its measurement. -/
  | updVerify (src : Fin 3) (e : Fin 16) (seq : Nat)
  /-- UPD_COMMIT (R401). Mailbox op UPD_COMMIT writes a boot record naming the new slot on trial and closes the session. -/
  | updCommit (src : Fin 3) (e : Fin 16) (seq : Nat)
  /-- UPD_ABORT (R401). Mailbox op UPD_ABORT closes the update session. -/
  | updAbort (src : Fin 3) (e : Fin 16) (seq : Nat)
  /-- CONFIRM (R401). Mailbox op CONFIRM writes a boot record with trial = 0. -/
  | confirm (src : Fin 3) (e : Fin 16) (seq : Nat)
  /-- PROFILE_PIN (R400). Mailbox op PROFILE_PIN writes a profile pin record, or completes LOCKED or PROFILE. -/
  | profilePin (src : Fin 3) (e : Fin 16) (seq id : Nat)
  /-- UPDATE_IDLE_TIMEOUT (R401). An update session idle for 60 s is aborted. -/
  | updateIdleTimeout
  /-- CURVE_LOAD (R397). E7 writes a foldback or cooldown curve once the eFuse is outside RAMP, LIMIT and COOLDOWN. -/
  | curveLoad (cooldown : Bool)
  /-- KEY_WRITE (R410). Mailbox op KEY_WRITE writes a key in the clear while the gate is open, optionally burning a row. -/
  | keyWrite (src : Fin 3) (e : Fin 16) (seq slot use : Nat) (burn : Bool) (key : List Byte)
  /-- KEY_DERIVE (R410). Mailbox op KEY_DERIVE derives a user key from a valid parent. -/
  | keyDerive (src : Fin 3) (e : Fin 16) (seq slot parent use : Nat) (label context : List Byte)
  /-- KEY_INVALIDATE (R415). Mailbox op KEY_INVALIDATE clears a slot's valid bit and advances its incarnation, orphaning descendants. -/
  | keyInvalidate (src : Fin 3) (e : Fin 16) (seq slot : Nat)
  /-- KEY_MAC (R410). Mailbox op KEY_MAC returns an HMAC-SHA-256 under a user slot with use_mac. -/
  | keyMac (src : Fin 3) (e : Fin 16) (seq slot : Nat) (d : List Byte)
  /-- KEY_UPDATE (R413). Mailbox op KEY_UPDATE checks an authenticated update message and performs its action. -/
  | keyUpdate (src : Fin 3) (e : Fin 16) (seq : Nat) (m : List Byte)
  /-- GATE_CLOSE (R409). Mailbox op GATE_CLOSE closes the key write gate until the next main-die reset. -/
  | gateClose (src : Fin 3) (e : Fin 16) (seq : Nat)
  /-- ATTEST (R417). Mailbox op ATTEST answers a nonce with the attestation payload tagged under K9. -/
  | attest (src : Fin 3) (e : Fin 16) (seq : Nat) (nonce : List Byte)
  /-- LRD_GATE_CLOSE (R409). A write of LRD_CTL.gate_close closes the key write gate. -/
  | lrdGateClose
  /-- KX_HELLO_RX (R418). A partner KX_HELLO lets the port derive the hop key and send KX_CONFIRM. -/
  | kxHelloRx (p : Port) (payload : List Byte)
  /-- KX_CONFIRM_RX (R418). A verifying partner confirm marks the hop keyed. -/
  | kxConfirmRx (p : Port) (payload : List Byte)
  /-- KX_TIMEOUT (R418). No verified confirm within 1 ms of UP leaves the hop unprotected and raises hop_unprot. -/
  | kxTimeout (p : Port)
  /-- HOP_MAC_RX (R419). A HOP_MAC tag delivers the held covered cell when it verifies, or discards it with mac_fail. -/
  | hopMacRx (p : Port) (payload : List Byte)
  /-- HOP_MAC_TIMEOUT (R419). No tag within tag_us discards the held covered cell and counts mac_fail. -/
  | hopMacTimeout (p : Port)
  /-- REMASK (R416). Every period_ms the Larder re-masks all 64 slots with new masks. -/
  | remask
  /-- TRIM_ENTER (R425). A resource idle for idle_us has its permitted trim applied. -/
  | trimEnter (r : Trim)
  /-- TRIM_EXIT (R425). The first demand on a trimmed resource ends its trim within 10 µs. -/
  | trimExit (r : Trim)
  /-- PWS_SLEEP_REQUEST (R426). PWS_CTL.go requests P2 or P3 in a standalone hub, refused elsewhere. -/
  | pwsSleepRequest (v : Nat)
  /-- WATCH_SAMPLE (R436). Each watch period the sequencer samples its due rules and fires wake or mark. -/
  | watchSample (x : Watch)
  /-- WAKE_FROM_P2 (R438). A wake source powers up the main die, fast-trains the trunks and reloads engines from the Cellar digests. -/
  | wakeFromP2 (w : Wake) (gone : List Port) (images : List Bool) (periods us : Nat)
  /-- WAKE_FROM_P3 (R439). A wake source runs the full reset and boot sequence while keeping the Cellar and always-on domain. -/
  | wakeFromP3 (w : Wake) (gone : List Port) (straps : Fin 4) (compat refsel : Bool) (f : Flash) (periods us : Nat)
  /-- OSC32_TRIM (R440). Every 1 s in P0 the 32.768 kHz oscillator is trimmed against the reference. -/
  | osc32Trim (err : Int)
  /-- AVS_INTERVAL (R444). Every ivl the AVS loop reads the monitors and steps VDD over AVSBus. -/
  | avsInterval (slack : Int) (ack : Bool)
  /-- TIMING_GUARD (R445). Slack below the critical code for 1 µs steps CLK_CORE one step slower and raises guard. -/
  | timingGuard
  /-- FRQ_SET_WRITE (R442). A write of FRQ_SET re-seeds the core frequency step, clamped to the envelope. -/
  | frqSetWrite (v : Nat) (ack : Bool)
  /-- AVS_SET_WRITE (R442). A write of AVS_SET re-seeds the commanded VDD, clamped to the envelope. -/
  | avsSetWrite (v : Nat) (ack : Bool)
  /-- FRQ_ENV_WRITE (R442). A write of FRQ_ENV changes the envelope or raises cfg_err when inverted. -/
  | frqEnvWrite (v : Nat) (ack : Bool)
  /-- AVS_ENV_WRITE (R442). A write of AVS_ENV changes the VDD envelope or raises cfg_err when inverted. -/
  | avsEnvWrite (v : Nat) (ack : Bool)
  /-- PAD_RELEASE (R433). A write of GLB.PAD_REL releases held sleep-controlled pads to their blocks. -/
  | padRelease
  /-- EVENT_HOLD_EXPIRY (R465). At the end of hold_us a held page event sends one cell with current EV_PEND. -/
  | eventHoldExpiry (page : Nat)
  /-- PAGE_EVENT_CELL_RX (R467). The head delivers a page event to the owning VHC's error queue or to the PF event queue. -/
  | pageEventCellRx (p : Port) (c : Cell)
  /-- TIMER_ENABLE (R473). A write of TMRt_CFG.en from 0 to 1 starts the timer on its period or chain-time grid. -/
  | timerEnable (t : Fin 4) (v : Nat)
  /-- TIMER_EXPIRY (R473). A timer expires, sets its EV_RAW bit and counts, rearming if periodic. -/
  | timerExpiry (t : Fin 4)
  /-- RESET_RELEASE (R450). Release of any main-die reset (POR_N or RESET_N high, reference relocked, Tj below 110 °C) latches the straps and starts the boot sequence. -/
  | resetRelease (straps : Fin 4) (compat refsel pll : Bool) (tj : Nat)
  /-- THERMAL_WARNING (R508). Main-die Tj reaching THERM.warn raises GLB thermal_warn, and companion die temperature reaching HVD_CFG.t_warn raises HVD thermal_warn. -/
  | thermalWarning (comp : Bool) (temp : Nat)
  /-- HOST_PERST (R489). In head mode a change of B0_PERST_N holds the host endpoint in reset while the pin is low and releases it when the pin goes high. -/
  | hostPerst (low : Bool)
  /-- USB_DEVICE_CONNECT (R290). A device connecting on an xHCI root port sets the connection state of that port. -/
  | usbDeviceConnect (n : Bay) (port : Fin 3)
  /-- TRANSFER_COMPLETE (R293). A TD finishes on the bus and the controller writes its Transfer Event after every data write has been issued. -/
  | transferComplete (n : Bay) (t : Nat) (slot dci : Nat) (ins : List (Nat × List Byte)) (more : Bool) (ev : UsbEv)
  /-- DISABLE_SLOT (R292). A Disable Slot command clears the translator buffers of the slot and counts the clear in TT_CNT. -/
  | disableSlot (n : Bay) (t : Nat) (slot : Nat) (ev : UsbEv)
  /-- HOST_CONTROLLER_RESET (R294). A write of USBCMD.HCRST resets the bay's host controller, clearing a halt after HSE. -/
  | hostControllerReset (n : Bay)
  /-- PAUSE_TIMER_EXPIRY (R312). The pause time set by a received PAUSE frame runs out and the MAC resumes transmitting. -/
  | pauseTimerExpiry (n : Bay)
  /-- ERROR_RECOVERY_END (R360). After 25 ms of open CC in ERROR_RECOVERY the bay returns to UNATTACHED. -/
  | errorRecoveryEnd (n : Bay)
  /-- CC_TERMINATION_CHANGE (R333). The opposite termination appearing on exactly one bay CC line stops DRP toggling and starts the attach debounce, and its disappearance before attach resumes toggling. -/
  | ccTerminationChange (n : Bay) (line : Fin 3) (ra : Bool)
  /-- TRUNK_CC_TERMINATION_CHANGE (R52). The opposite termination appearing on exactly one trunk CC line stops toggling and starts the 150 ms attach debounce, and its disappearance resumes toggling. -/
  | trunkCcTerminationChange (p : Port) (line : Nat)
  /-- PD_RESPONSE_RX (R346). An Accept, Reject or Wait from the partner answers a Request the bay sent as Sink or a swap the bay initiated. -/
  | pdResponseRx (n : Bay) (a : PdAns)
  /-- EPR_KEEPALIVE_RX (R343). An EPR_KeepAlive from the partner restarts the tSourceEPRKeepAlive timer. -/
  | eprKeepaliveRx (n : Bay)
  /-- DEVICE_COMPLETION_RX (R326). A completion from the bay's PCIe device answers a request the root port forwarded, and the port returns it toward the head. -/
  | deviceCompletionRx (n : Bay) (id : Nat) (st : Fin 4) (data : List Byte)
  /-- HOST_COMPLETION_RX (R215). A completion on the host link answers a MemRd the head issued for a bay function, and the head returns the data as Cpl in the function's tunnel. -/
  | hostCompletionRx (tag st : Nat) (data : List Byte)
deriving DecidableEq, Repr

end Sys2Proof
end

