-- ==== Sys2Proof/Machine/Sha.lean ====
section
/-!
DEFINITION. Sys2Proof/Machine/Sha.lean: SHA-256 and HMAC-SHA-256, the published functions that R404, R413, R417–R419 name (FIPS 180-4 and
RFC 2104; PRESUMED, log entry 10).
-/
namespace Sys2Proof.Machine

open Sys2Proof

/-- The numbers by which the two functions of the family differ: the width of a word, the rotations of the round's sums and of the schedule's (the last of these shifts), the round constants. -/
structure ShaKind where
  bits : Nat
  sum0 : Nat × Nat × Nat
  sum1 : Nat × Nat × Nat
  mix0 : Nat × Nat × Nat
  mix1 : Nat × Nat × Nat
  k    : List Nat

/-- A word rotated to the right. -/
def rotr (w n x : Nat) : Nat := x >>> n ||| (x <<< (w - n)) % 2 ^ w

/-- A sum of a round. -/
def shaSum (w : Nat) (r : Nat × Nat × Nat) (x : Nat) : Nat := rotr w r.1 x ^^^ rotr w r.2.1 x ^^^ rotr w r.2.2 x

/-- A sum of the schedule. -/
def shaMix (w : Nat) (r : Nat × Nat × Nat) (x : Nat) : Nat := rotr w r.1 x ^^^ rotr w r.2.1 x ^^^ x >>> r.2.2

/-- Bytes as a number, most significant first. -/
def beNat (l : List Byte) : Nat := l.foldl (fun a b => a * 256 + b.toNat) 0

/-- The bytes of a number, most significant first. -/
def beBytes (n v : Nat) : List Byte := (leBytes n v).reverse

/-- The message schedule, newest word first, extended `n` times. -/
def shaSched (c : ShaKind) : Nat → List Nat → List Nat
  | 0, l => l
  | n + 1, l => shaSched c n ((shaMix c.bits c.mix1 (l.getD 1 0) + l.getD 6 0 + shaMix c.bits c.mix0 (l.getD 14 0) + l.getD 15 0) % 2 ^ c.bits :: l)

/-- One round, with its constant and its word of the schedule. -/
def shaRound (k : ShaKind) (l : List Nat) (kw : Nat × Nat) : List Nat := match l with
  | [a, b, c, d, e, f, g, h] =>
    let t := h + shaSum k.bits k.sum1 e + ((e &&& f) ^^^ ((2 ^ k.bits - 1 - e) &&& g)) + kw.1 + kw.2
    [(t + shaSum k.bits k.sum0 a + ((a &&& b) ^^^ (a &&& c) ^^^ (b &&& c))) % 2 ^ k.bits, a, b, c, (d + t) % 2 ^ k.bits, e, f, g]
  | _ => l

/-- One block of 16 words. -/
def shaBlock (k : ShaKind) (h : List Nat) (m : List Byte) : List Nat :=
  let w := (shaSched k (k.k.length - 16) ((List.range 16).map (fun i => beNat ((m.drop (k.bits / 8 * i)).take (k.bits / 8)))).reverse).reverse
  List.zipWith (fun a b => (a + b) % 2 ^ k.bits) h ((k.k.zip w).foldl (shaRound k) h)

/-- Blocks of 16 words, structural on their number. -/
def shaBlocks (k : ShaKind) : Nat → List Nat → List Byte → List Nat
  | 0, h, _ => h
  | n + 1, h, m => shaBlocks k n (shaBlock k h (m.take (2 * k.bits))) (m.drop (2 * k.bits))

/-- The words of the hash of a message from an initial value: a one, zeros, and the length in bits in the last two words fill it up to whole blocks. -/
def shaRun (k : ShaKind) (h : List Nat) (m : List Byte) : List Nat :=
  let b := 2 * k.bits
  let t := k.bits / 4
  let p := m ++ [0x80] ++ List.replicate ((2 * b - 1 - t - m.length % b) % b) 0 ++ beBytes t (8 * m.length)
  shaBlocks k (p.length / b) h p

/-- The primes below 410: the first 80, by division by the primes up to 19. -/
def shaPrimes : List Nat :=
  let l := [2, 3, 5, 7, 11, 13, 17, 19]
  l ++ (List.range 410).filter (fun n => 19 < n && l.all (fun d => n % d != 0))

/-- The first `b` bits of the fraction of the `e`-th root of a number below 512, bit by bit from the top of the root. -/
def rootBits (e b p : Nat) : Nat :=
  ((List.range (b + 5)).reverse.foldl (fun r i => if (r + 2 ^ i) ^ e <= p * 2 ^ (b * e) then r + 2 ^ i else r) 0) % 2 ^ b

/-- The round constants: the fractions of the cube roots of the first `n` primes. -/
def shaK (b n : Nat) : List Nat := (shaPrimes.take n).map (rootBits 3 b)

/-- An initial value: the fractions of the square roots of eight primes, the first of them number `n`. -/
def shaH (b n : Nat) : List Nat := ((shaPrimes.drop n).take 8).map (rootBits 2 b)

/-- SHA-256. -/
def sha256 (m : List Byte) : List Byte :=
  (shaRun ⟨32, (2, 13, 22), (6, 11, 25), (7, 18, 3), (17, 19, 10), shaK 32 64⟩ (shaH 32 0) m).flatMap (beBytes 4)

/-- HMAC-SHA-256 with a key of at most 64 bytes. -/
def hmac (key m : List Byte) : List Byte :=
  let k := key ++ List.replicate (64 - key.length) 0
  sha256 (k.map (· ^^^ 0x5c) ++ sha256 (k.map (· ^^^ 0x36) ++ m))

/-- The bytes of an ASCII string. -/
def ascii (s : String) : List Byte := s.toList.map (fun c => BitVec.ofNat 8 c.toNat)

end Sys2Proof.Machine
end

