-- ==== Sys2Proof/Machine/Sha384.lean ====
section
/-!
DEFINITION. Sys2Proof/Machine/Sha384.lean: SHA-384 (R390, R392, R421). The spec names the function; its definition is that of FIPS 180-4 (PRESUMED, log entry 10).
-/
namespace Sys2Proof.Machine

open Sys2Proof

/-- SHA-384. -/
def sha384 (m : List Byte) : List Byte :=
  ((shaRun ⟨64, (28, 34, 39), (14, 18, 41), (1, 8, 7), (19, 61, 6), shaK 64 80⟩ (shaH 64 8) m).take 6).flatMap (beBytes 8)

end Sys2Proof.Machine
end

