-- ==== Sys2Proof/Machine/Ecdsa.lean ====
section
/-!
DEFINITION. Sys2Proof/Machine/Ecdsa.lean: the verification of an ECDSA P-384 signature (R390, R421). The spec names the scheme; the curve and the steps are those of FIPS 186-4 (PRESUMED, log entry 11).
-/
namespace Sys2Proof.Machine

open Sys2Proof

/-- The prime of the field, the order of the base point, the curve's coefficient b (a is −3). -/
def p384 : Nat := 2 ^ 384 - 2 ^ 128 - 2 ^ 96 + 2 ^ 32 - 1
def n384 : Nat := 0xffffffffffffffffffffffffffffffffffffffffffffffffc7634d81f4372ddf581a0db248b0a77aecec196accc52973
def b384 : Nat := 0xb3312fa7e23ee7e4988e056be3f82d19181d9c6efe8141120314088f5013875ac656398d8a2ed19d2a85c8edd3ec2aef

/-- A power modulo m: `r` times `b` to the `e`, the lowest `k` bits of the exponent counting (structural on k). -/
def powMod (m : Nat) : Nat → Nat → Nat → Nat → Nat
  | 0, _, _, r => r
  | k + 1, b, e, r => powMod m k (b * b % m) (e / 2) (if e % 2 = 1 then r * b % m else r)

/-- The inverse modulo a prime of 384 bits. -/
def invMod (m x : Nat) : Nat := powMod m 384 x (m - 2) 1

/-- A point in Jacobian coordinates; z = 0 is the point at infinity. -/
structure CurvePt where
  x : Nat
  y : Nat
  z : Nat
deriving DecidableEq, Repr

/-- The base point, the point at infinity. -/
def baseG : CurvePt := ⟨0xaa87ca22be8b05378eb1c71ef320ad746e1d3b628ba79b9859f741e082542a385502f25dbf55296c3a545e3872760ab7,
  0x3617de4a96262c6f5d9e98bf9292dc29f8f41dbd289a147ce9da3113b5f0b8c00a60b1ce1d7e819d7a431d7c90ea0e5f, 1⟩
def noPoint : CurvePt := ⟨1, 1, 0⟩

/-- A difference in the field. -/
def fsub (a b : Nat) : Nat := (a + p384 - b) % p384

/-- Twice a point. -/
def CurvePt.dbl (p : CurvePt) : CurvePt :=
  let d := p.z * p.z % p384
  let g := p.y * p.y % p384
  let b := p.x * g % p384
  let a := 3 * (fsub p.x d * (p.x + d)) % p384
  let x := fsub (a * a % p384) (8 * b % p384)
  ⟨x, fsub (a * fsub (4 * b % p384) x % p384) (8 * g * g % p384), 2 * p.y * p.z % p384⟩

/-- The sum of two points. -/
def CurvePt.add (p q : CurvePt) : CurvePt :=
  if p.z = 0 then q else if q.z = 0 then p
  else
    let zp := p.z * p.z % p384
    let zq := q.z * q.z % p384
    let u := p.x * zq % p384
    let h := fsub (q.x * zp % p384) u
    let s := p.y * zq * q.z % p384
    let r := fsub (q.y * zp * p.z % p384) s
    if h = 0 then (if r = 0 then p.dbl else noPoint)
    else
      let hh := h * h % p384
      let c := h * hh % p384
      let v := u * hh % p384
      let x := fsub (fsub (r * r % p384) c) (2 * v % p384)
      ⟨x, fsub (r * fsub v x % p384) (s * c % p384), h * p.z * q.z % p384⟩

/-- u times G plus v times Q over the lowest k bits, from the highest (structural on k); `gq` is G + Q. -/
def twoMul (u v : Nat) (q gq : CurvePt) : Nat → CurvePt → CurvePt
  | 0, t => t
  | k + 1, t =>
    let t := t.dbl
    twoMul u v q gq k (match u.testBit k, v.testBit k with
      | true, true => t.add gq
      | true, false => t.add baseG
      | false, true => t.add q
      | false, false => t)

/-- The point (x, y) lies on the curve. -/
def onCurve (x y : Nat) : Bool := x < p384 && y < p384 && y * y % p384 == fsub ((x * x * x + b384) % p384) (3 * x % p384)

/-- The signature r ‖ s over a digest of 48 bytes verifies under the key x ‖ y (R421). -/
def ecdsaOk (key sig digest : List Byte) : Bool :=
  let x := beNat (key.take 48)
  let y := beNat ((key.drop 48).take 48)
  let r := beNat (sig.take 48)
  let s := beNat ((sig.drop 48).take 48)
  if !(onCurve x y && 1 ≤ r && r < n384 && 1 ≤ s && s < n384) then false
  else
    let w := invMod n384 s
    let q : CurvePt := ⟨x, y, 1⟩
    let t := twoMul (beNat digest * w % n384) (r * w % n384) q (baseG.add q) 384 noPoint
    let z := invMod p384 t.z
    t.z != 0 && t.x * (z * z % p384) % p384 % n384 == r

end Sys2Proof.Machine
end

