-- ==== Sys2Proof/Machine/Crc.lean ====
section
/-!
DEFINITION. Sys2Proof/Machine/Crc.lean: the checks of the spec, computed bit by bit: the hop CRC (R69), the E2E CRC (R68), the
forerunner CRC (R87), the sideband CRC-8 (R36) and the tile checksum's CRC-16 (R240).
-/
namespace Sys2Proof.Machine

/-- `n` steps of a left-shifting CRC register of width `w`. -/
def crcShl (w poly : Nat) : Nat → Nat → Nat
  | 0, r => r
  | n + 1, r => crcShl w poly n (if r.testBit (w - 1) then ((r <<< 1) % 2 ^ w) ^^^ poly else (r <<< 1) % 2 ^ w)

/-- `n` steps of a right-shifting (reflected) CRC register. -/
def crcShr (poly : Nat) : Nat → Nat → Nat
  | 0, r => r
  | n + 1, r => crcShr poly n (if r.testBit 0 then (r >>> 1) ^^^ poly else r >>> 1)

/-- A register taken through bytes by a step; the register is matched at each byte, so that an evaluation never piles its steps up. -/
def crcRun (f : Nat → Byte → Nat) : List Byte → Nat → Nat
  | [], r => r
  | b :: l, 0 => crcRun f l (f 0 b)
  | b :: l, r + 1 => crcRun f l (f (r + 1) b)

/-- A CRC of width `w ≥ 8` over bytes, each entering most significant bit first. -/
def crcMsb (w poly : Nat) (r : Nat) (l : List Byte) : Nat :=
  crcRun (fun r b => crcShl w poly 8 (r ^^^ (b.toNat <<< (w - 8)))) l r

/-- A reflected CRC over bytes. -/
def crcLsb (poly : Nat) (r : Nat) (l : List Byte) : Nat :=
  crcRun (fun r b => crcShr poly 8 (r ^^^ b.toNat)) l r

/-- The hop CRC of R69. -/
def crcHop (l : List Byte) : Nat := crcMsb 16 0x8BB7 0 l

/-- The E2E CRC-32C of R68 over already masked bytes. -/
def crc32c (l : List Byte) : Nat := crcLsb 0x82F63B78 0xFFFFFFFF l ^^^ 0xFFFFFFFF

/-- The Ethernet CRC-32 of a forerunner cell (R87). -/
def crc32 (l : List Byte) : Nat := crcLsb 0xEDB88320 0xFFFFFFFF l ^^^ 0xFFFFFFFF

/-- The sideband CRC-8 of R36. -/
def crc8 (l : List Byte) : Nat := crcMsb 8 0x07 0 l

end Sys2Proof.Machine
end

