-- ==== Sys2Proof/Machine/Codec.lean ====
section
/-!
DEFINITION. Sys2Proof/Machine/Codec.lean: the tile codec bit for bit: tile records and their checksum (R239, R240), the colour transform (R241),
quantisation (R242), prediction (R243), the bitstream (R244), decoding (R245), and the output depth (R264).
-/
namespace Sys2Proof.Machine

open Sys2Proof

/-- A pixel's components. -/
structure Rgb where
  r : Nat
  g : Nat
  b : Nat
deriving DecidableEq, Repr

/-- Transformed components (R241). -/
structure Ycc where
  y  : Int
  co : Int
  cg : Int
deriving DecidableEq, Repr

/-- The forward transform of R241; a division by 2 rounds down, as an arithmetic shift does. -/
def Rgb.fwd (p : Rgb) : Ycc :=
  let co : Int := (p.r : Int) - p.b
  let t : Int := p.b + co / 2
  let cg : Int := (p.g : Int) - t
  ⟨t + cg / 2, co, cg⟩

/-- Clamp to [0, 2^d − 1]. -/
def clampD (d : Nat) (x : Int) : Nat := min x.toNat (2 ^ d - 1)

/-- The inverse transform of R241, clamped (R245). -/
def Ycc.inv (d : Nat) (c : Ycc) : Rgb :=
  let t := c.y - c.cg / 2
  let g := c.cg + t
  let b := t - c.co / 2
  ⟨clampD d (b + c.co), clampD d g, clampD d b⟩

/-- The checksum of a record at a tile position (R240). -/
def tileSum (tx ty : Nat) (rest : List Byte) : Nat := crcMsb 16 0x1021 0xFFFF (leBytes 2 tx ++ leBytes 2 ty ++ rest)

/-- A surface word's components (R236): XRGB2101010 or ARGB8888. -/
def rgbOfWord (ten : Bool) (w : Nat) : Rgb :=
  if ten then ⟨bitsOf w 29 20, bitsOf w 19 10, bitsOf w 9 0⟩ else ⟨bitsOf w 23 16, bitsOf w 15 8, bitsOf w 7 0⟩

/-! ### Quantisation (R242, R245) -/

def qShiftY (i : Nat) : Nat := i / 2
def qShiftC (i : Nat) : Nat := (i + 1) / 2

/-- sign(c) × (|c| >> q). -/
def quantC (q : Nat) (c : Int) : Int := if c < 0 then -((c.natAbs / 2 ^ q : Nat) : Int) else ((c.natAbs / 2 ^ q : Nat) : Int)

def quantY (q : Nat) (y : Int) : Int := y / ((2 ^ q : Nat) : Int)

/-- The reconstruction offset. -/
def recon (q : Nat) : Nat := if q = 0 then 0 else 2 ^ (q - 1)

def dequantY (d q : Nat) (v : Int) : Int := min (v * ((2 ^ q : Nat) : Int) + (recon q : Nat)) ((2 ^ d - 1 : Nat) : Int)

def dequantC (d q : Nat) (c : Int) : Int :=
  if c = 0 then 0
  else
    let m : Nat := min (c.natAbs * 2 ^ q + recon q) (2 ^ d - 1)
    if c < 0 then -(m : Int) else (m : Int)

/-! ### Prediction (R243) -/

/-- The prediction of sample `i` of a 16 × 16 plane from those before it, newest first in `rev`. -/
def predict (first : Int) (i : Nat) (rev : List Int) : Int :=
  let a := rev.getD 0 0
  let b := rev.getD 15 0
  let c := rev.getD 16 0
  if i = 0 then first
  else if i < 16 then a
  else if i % 16 = 0 then b
  else if max a b ≤ c then min a b
  else if c ≤ min a b then max a b
  else a + b - c

/-! ### The bitstream (R244) -/

/-- The low `n` bits of a number, most significant first. -/
def bitsMsb (n v : Nat) : List Bool := (List.range n).map (fun k => v.testBit (n - 1 - k))

/-- The number that bits spell, most significant first. -/
def natOfBits (l : List Bool) : Nat := l.foldl (fun r b => 2 * r + b2n b) 0

/-- The parameter k of a sample. -/
def riceK (d aSum n : Nat) : Nat := ((List.range (d + 2)).find? (fun k => aSum ≤ n * 2 ^ k)).getD (d + 1)

/-- The code of a mapped residual. -/
def riceCode (d k m : Nat) : List Bool :=
  if m / 2 ^ k < 24 then List.replicate (m / 2 ^ k) false ++ [true] ++ bitsMsb k m else List.replicate 24 false ++ [true] ++ bitsMsb (d + 2) m

/-- A and N after a sample. -/
def riceNext (aSum n m : Nat) : Nat × Nat := if n + 1 = 32 then ((aSum + m) / 2, 16) else (aSum + m, n + 1)

def mapRes (e : Int) : Nat := if 0 ≤ e then 2 * e.natAbs else 2 * e.natAbs - 1

def unmapRes (m : Nat) : Int := if m % 2 = 0 then ((m / 2 : Nat) : Int) else -(((m + 1) / 2 : Nat) : Int)

/-- The bits of a plane: the values still to code, the sample's index, those coded, A and N. -/
def codePlane (d : Nat) (first : Int) : List Int → Nat → List Int → Nat → Nat → List Bool
  | [], _, _, _, _ => []
  | v :: t, i, rev, a, n =>
    let m := mapRes (v - predict first i rev)
    let x := riceNext a n m
    riceCode d (riceK d a n) m ++ codePlane d first t (i + 1) ((v :: rev).take 17) x.1 x.2

/-- The bitstream of a tile at an index. -/
def tileBits (d i : Nat) (px : List Ycc) : List Bool :=
  codePlane d ((2 ^ (d - 1) / 2 ^ qShiftY i : Nat) : Int) (px.map (fun c => quantY (qShiftY i) c.y)) 0 [] 8 1 ++
  codePlane d 0 (px.map (fun c => quantC (qShiftC i) c.co)) 0 [] 8 1 ++
  codePlane d 0 (px.map (fun c => quantC (qShiftC i) c.cg)) 0 [] 8 1

/-- Bits packed into `n` bytes, most significant bit first, unused bits 0. -/
def packBits : Nat → List Bool → List Byte
  | 0, _ => []
  | n + 1, l => BitVec.ofNat 8 (natOfBits ((l.take 8) ++ List.replicate (8 - l.length) false)) :: packBits n (l.drop 8)

def unpackBits (l : List Byte) : List Bool := l.flatMap (fun b => bitsMsb 8 b.toNat)

/-- Bytes 2 to B − 1 of the record of a tile, and its index: 64 for solid mode (R242). -/
def codeTile (budget d : Nat) (px : List Rgb) : List Byte × Nat :=
  let cs := px.map Rgb.fwd
  match cs with
  | [] => (List.replicate (budget - 2) 0, 64)
  | c :: rest =>
    if rest.all (· = c) then
      (BitVec.ofNat 8 (0x40 + 0x20 * b2n (d = 10)) :: (leBytes 2 (unsigned 16 c.y) ++ leBytes 2 (unsigned 16 c.co) ++ leBytes 2 (unsigned 16 c.cg)
        ++ List.replicate (budget - 9) 0), 64)
    else
      let i := ((List.range (2 * d)).find? (fun i => (tileBits d i cs).length ≤ 8 * (budget - 3))).getD (2 * d)
      (BitVec.ofNat 8 (0x20 * b2n (d = 10) + i) :: packBits (budget - 3) (tileBits d i cs), i)

/-- The record of a tile at a position (R239). -/
def tileRecord (budget d tx ty : Nat) (px : List Rgb) : List Byte := let r := (codeTile budget d px).1; leBytes 2 (tileSum tx ty r) ++ r

/-! ### Decoding (R245) -/

/-- Zero bits before the first one, at most `n`, and what follows them. -/
def unary : Nat → List Bool → Nat × List Bool
  | 0, l => (0, l)
  | n + 1, l => match l with
    | false :: t => let x := unary n t; (x.1 + 1, x.2)
    | _ => (0, l)

/-- A plane of `k` samples read from bits: the values in order, and the bits left. -/
def readPlane (d : Nat) (first : Int) : Nat → List Bool → Nat → List Int → Nat → Nat → List Int × List Bool
  | 0, l, _, _, _, _ => ([], l)
  | k + 1, l, i, rev, a, n =>
    let u := unary 24 l
    let w := if u.1 < 24 then riceK d a n else d + 2
    let body := u.2.drop 1
    let low := natOfBits ((body.take w) ++ List.replicate (w - body.length) false)
    let m := if u.1 < 24 then u.1 * 2 ^ w + low else low
    let v := predict first i rev + unmapRes m
    let x := riceNext a n m
    let r := readPlane d first k (body.drop w) (i + 1) ((v :: rev).take 17) x.1 x.2
    (v :: r.1, r.2)

/-- A record's mode, depth and index (R239). -/
def recMode (r : List Byte) : Nat := byteAt r 2 / 64
def recDepth (r : List Byte) : Nat := if bitOf (byteAt r 2) 5 = 1 then 10 else 8
def recIndex (r : List Byte) : Nat := byteAt r 2 % 32

/-- A record that the decoder rejects by its mode or index (R256, R242). -/
def recBad (r : List Byte) : Bool := 2 ≤ recMode r || (recMode r = 0 && 2 * recDepth r < recIndex r)

/-- The checksum of a record at a position is right (R240, R256). -/
def recGood (tx ty : Nat) (r : List Byte) : Bool := numAt r 0 2 = tileSum tx ty (r.drop 2)

/-- The 256 pixels of a record, in raster order. -/
def decodeTile (r : List Byte) : List Rgb :=
  let d := recDepth r
  if recMode r = 1 then
    List.replicate 256 (Ycc.inv d ⟨signed 16 (numAt r 3 2), signed 16 (numAt r 5 2), signed 16 (numAt r 7 2)⟩)
  else
    let i := recIndex r
    let bits := unpackBits (r.drop 3)
    let y := readPlane d ((2 ^ (d - 1) / 2 ^ qShiftY i : Nat) : Int) 256 bits 0 [] 8 1
    let co := readPlane d 0 256 y.2 0 [] 8 1
    let cg := readPlane d 0 256 co.2 0 [] 8 1
    ((y.1.zip co.1).zip cg.1).map (fun x => Ycc.inv d ⟨dequantY d (qShiftY i) x.1.1, dequantC d (qShiftC i) x.1.2, dequantC d (qShiftC i) x.2⟩)

/-- A solid black record (R255). -/
def blackRecord (budget d tx ty : Nat) : List Byte := tileRecord budget d tx ty [⟨0, 0, 0⟩]

/-! ### Output depth (R264) -/

/-- A component of depth `d` at output depth `o`. -/
def depthTo (d o v : Nat) : Nat :=
  if o < d then min ((v + 2 ^ (d - o) / 2) / 2 ^ (d - o)) (2 ^ o - 1)
  else v * 2 ^ (o - d) + v / 2 ^ (d - (o - d))

def Rgb.toDepth (d o : Nat) (p : Rgb) : Rgb := ⟨depthTo d o p.r, depthTo d o p.g, depthTo d o p.b⟩

/-- The 30-bit colour of a register (R286). -/
def rgbOf30 (w : Nat) : Rgb := ⟨bitsOf w 29 20, bitsOf w 19 10, bitsOf w 9 0⟩

end Sys2Proof.Machine
end

