-- ==== Sys2Proof/Config.lean ====
section
/-!
DEFINITION. Sys2Proof/Config.lean: what the spec leaves open. Each is a constant without a body: nothing in Lean can find a value of
it, so a claim that holds, holds whatever the value is.
-/
namespace Sys2Proof.Config

/-- The n-th free value: a result that the spec leaves open or that a sensor, a random source or firmware supplies unstated. -/
opaque freeValue : Nat → BitVec 64

/-- The factory root key K0 that the part's fuses hold (R404); no operation returns it. -/
opaque rootKey : BitVec 256

/-- How many requests of a kind a target's queue holds beside the first (R183); the spec gives no depth. -/
opaque targetDepth : Nat

/-- The size in bytes of the context of a function of a kind in a VHC image (R228); the bay chapters give no layout. -/
opaque ctxSize : Nat → Nat

/-- The stepping of the companion die, which its fuses hold (HVD_STAT.stepping): letter index [7:4], digit [3:0]. -/
opaque companionStepping : Nat

/-- The rate in cells per 125 µs at which an E tunnel of an ID starts at its source hub (R172): it follows from parameter words in the head's entry, which no message carries to the hub. -/
opaque startRate : Nat → Nat

/-- The chain round trip of R111 in ns as it stands at a part that keeps no directory of the chain, a standby head or a hub: no cell tells it to them. -/
opaque chainTrip : Nat → Nat

/-- The SECDED code over bytes 0–27 of a descriptor (R123); the spec gives no code. -/
opaque secded : List (BitVec 8) → BitVec 9

end Sys2Proof.Config
end

