-- ==== Sys2Proof/Machine/Field.lean ====
section
/-!
DEFINITION. Sys2Proof/Machine/Field.lean: what a register field is (its place, width, access code and reset value, R9), a row of
a register table, and an event bit with its severity class (R461).
-/
namespace Sys2Proof.Machine

/-- The access codes of R9. `roc` is an RO field that counts (R459 holds its visible value too). -/
inductive Acc where
  | ro | roc | rw | rwl | w1c | w1s | wo | rc
deriving DecidableEq, Repr

/-- One register field: byte offset of its word in its page, least significant bit, width, access code, reset value, and
whether a command other than REGISTER_WRITE carries its write. -/
structure Fld where
  off   : Nat
  lsb   : Nat
  width : Nat
  acc   : Acc
  rst   : Nat
  own   : Bool
deriving DecidableEq, Repr

/-- A row of a register table: a field, repeated `n` times every `stride` bytes. -/
structure FRow where
  fld    : Fld
  stride : Nat
  n      : Nat
deriving DecidableEq, Repr

/-- The severity classes of R461: corrected, contained, function. -/
inductive Sev where
  | corrected | contained | function
deriving DecidableEq, Repr

/-- The code of a class in ER_CAP0.sev (R458). -/
def Sev.code : Sev → Nat
  | .corrected => 1
  | .contained => 2
  | .function => 3

/-- An event: its EV_RAW bit and, when it reports an error, its class (R461). -/
structure Ev where
  bit : Nat
  sev : Option Sev
deriving DecidableEq, Repr

/-- The field of a table row that lies in the word at `off`, if one does. -/
def FRow.at? (r : FRow) (off : Nat) : Option Fld :=
  if off < r.fld.off then none
  else if (off - r.fld.off) % r.stride = 0 ∧ (off - r.fld.off) / r.stride < r.n then some { r.fld with off := off }
  else none

/-- The key under which the field `f` of page `p` is held. -/
def fkey (p : Nat) (f : Fld) : Nat := (p * 4096 + f.off) * 32 + f.lsb

/-- A sparse table by key: keys rising, one entry a key, absent keys at their default. -/
abbrev Tab (α : Type) := List (Nat × α)

/-- The value held under a key, if one is. -/
def Tab.find {α : Type} (k : Nat) : Tab α → Option α
  | [] => none
  | (a, b) :: t => if a = k then some b else Tab.find k t

/-- Hold `v` under `k`, keeping the order of keys. -/
def Tab.put {α : Type} (k : Nat) (v : α) : Tab α → Tab α
  | [] => [(k, v)]
  | (a, b) :: t => if k < a then (k, v) :: (a, b) :: t else if a = k then (k, v) :: t else (a, b) :: Tab.put k v t

/-- Hold nothing under `k`. -/
def Tab.del {α : Type} (k : Nat) (l : Tab α) : Tab α := l.filter (fun x => x.1 != k)

/-- The canonical form: keys strictly rising. -/
def Tab.wf {α : Type} : Tab α → Bool
  | [] => true
  | [_] => true
  | (a, _) :: (b, v) :: t => decide (a < b) && Tab.wf ((b, v) :: t)

/-- The registers' store: one number for each field that is not at its reset value. -/
abbrev Store := Tab Nat

end Sys2Proof.Machine
end

