-- ==== Sys2Proof/Machine/Regs.lean ====
section
/-!
DEFINITION. Sys2Proof/Machine/Regs.lean: every register field of every page, one constant each, with its place,
width, access code and reset value (the register tables of the chapters; the common header is R458), and every event bit
with its severity class (R461). The last component says whether a command of the table other than REGISTER_WRITE carries
the field's write.
-/

namespace Sys2Proof.Machine

/-! ### TRK (R61) -/
def TRK.PORT_CFG_allow_g2 : Fld := ⟨0x40, 15, 1, .rw, 0x1, false⟩
def TRK.PORT_CFG_allow_g1 : Fld := ⟨0x40, 14, 1, .rw, 0x1, false⟩
def TRK.PORT_CFG_allow_g0 : Fld := ⟨0x40, 13, 1, .rw, 0x1, false⟩
def TRK.PORT_CFG_allow_p1 : Fld := ⟨0x40, 12, 1, .rw, 0x1, false⟩
def TRK.PORT_CFG_media : Fld := ⟨0x40, 8, 3, .rw, 0x0, false⟩
def TRK.PORT_CFG_l1_dis : Fld := ⟨0x40, 7, 1, .rw, 0x0, false⟩
def TRK.PORT_CFG_sb_en : Fld := ⟨0x40, 6, 1, .rw, 0x1, false⟩
def TRK.PORT_CFG_auto_down : Fld := ⟨0x40, 5, 1, .rw, 0x0, false⟩
def TRK.PORT_CFG_beacon_en : Fld := ⟨0x40, 4, 1, .rw, 0x1, false⟩
def TRK.PORT_CFG_port_en : Fld := ⟨0x40, 0, 1, .rw, 0x0, true⟩
def TRK.PORT_CTL_hold_down : Fld := ⟨0x44, 2, 1, .rw, 0x0, true⟩
def TRK.PORT_CTL_renego : Fld := ⟨0x44, 1, 1, .wo, 0x0, true⟩
def TRK.PORT_CTL_retrain : Fld := ⟨0x44, 0, 1, .wo, 0x0, true⟩
def TRK.PORT_STAT_role : Fld := ⟨0x48, 30, 2, .ro, 0x0, false⟩
def TRK.PORT_STAT_state : Fld := ⟨0x48, 24, 4, .ro, 0x0, false⟩
def TRK.PORT_STAT_mode : Fld := ⟨0x48, 20, 4, .ro, 0x0, false⟩
def TRK.PORT_STAT_tx_lanes : Fld := ⟨0x48, 18, 2, .ro, 0x0, false⟩
def TRK.PORT_STAT_rx_lanes : Fld := ⟨0x48, 16, 2, .ro, 0x0, false⟩
def TRK.PORT_STAT_partner_allow : Fld := ⟨0x48, 12, 4, .ro, 0x0, false⟩
def TRK.PORT_STAT_failed : Fld := ⟨0x48, 8, 4, .ro, 0x0, false⟩
def TRK.PORT_STAT_inband : Fld := ⟨0x48, 2, 1, .ro, 0x0, false⟩
def TRK.PORT_STAT_sb_up : Fld := ⟨0x48, 1, 1, .ro, 0x0, false⟩
def TRK.PORT_STAT_fast : Fld := ⟨0x48, 0, 1, .ro, 0x0, false⟩
def TRK.PORT_CAUSE_state_at_down : Fld := ⟨0x4c, 12, 4, .ro, 0x0, false⟩
def TRK.PORT_CAUSE_cause : Fld := ⟨0x4c, 0, 8, .ro, 0x0, false⟩
def TRK.LANE_CFG_swap : Fld := ⟨0x50, 4, 1, .rw, 0x0, false⟩
def TRK.LANE_CFG_pol_rx1 : Fld := ⟨0x50, 3, 1, .rw, 0x0, false⟩
def TRK.LANE_CFG_pol_tx1 : Fld := ⟨0x50, 2, 1, .rw, 0x0, false⟩
def TRK.LANE_CFG_pol_rx0 : Fld := ⟨0x50, 1, 1, .rw, 0x0, false⟩
def TRK.LANE_CFG_pol_tx0 : Fld := ⟨0x50, 0, 1, .rw, 0x0, false⟩
def TRK.LANE_STAT_flags_l1 : Fld := ⟨0x54, 28, 4, .ro, 0x0, false⟩
def TRK.LANE_STAT_eye_l1 : Fld := ⟨0x54, 16, 8, .ro, 0x0, false⟩
def TRK.LANE_STAT_flags_l0 : Fld := ⟨0x54, 12, 4, .ro, 0x0, false⟩
def TRK.LANE_STAT_eye_l0 : Fld := ⟨0x54, 0, 8, .ro, 0x0, false⟩
def TRK.DEGRADE_CFG_win_cnt : Fld := ⟨0x58, 28, 4, .rw, 0x3, false⟩
def TRK.DEGRADE_CFG_unc_max : Fld := ⟨0x58, 16, 12, .rw, 0x4, false⟩
def TRK.DEGRADE_CFG_ser_max : Fld := ⟨0x58, 0, 16, .rw, 0x1900, false⟩
def TRK.FEC_CORR_fec_corr : Fld := ⟨0x5c, 0, 32, .rc, 0x0, false⟩
def TRK.FEC_UNC_fec_unc : Fld := ⟨0x60, 0, 32, .rc, 0x0, false⟩
def TRK.SYM_CNT_sym_l1 : Fld := ⟨0x64, 16, 16, .rc, 0x0, false⟩
def TRK.SYM_CNT_sym_l0 : Fld := ⟨0x64, 0, 16, .rc, 0x0, false⟩
def TRK.LINK_CNT_downs : Fld := ⟨0x68, 24, 8, .rc, 0x0, false⟩
def TRK.LINK_CNT_recovers : Fld := ⟨0x68, 16, 8, .rc, 0x0, false⟩
def TRK.LINK_CNT_lane_losses : Fld := ⟨0x68, 8, 8, .rc, 0x0, false⟩
def TRK.LINK_CNT_train_fails : Fld := ⟨0x68, 0, 8, .rc, 0x0, false⟩
def TRK.SB_ERR_sb_crc : Fld := ⟨0xc8, 0, 16, .rc, 0x0, false⟩
def TRK.EQ_HOLD_cdr_l1 : Fld := ⟨0x80, 11, 1, .rw, 0x0, false⟩
def TRK.EQ_HOLD_ffe_l1 : Fld := ⟨0x80, 10, 1, .rw, 0x0, false⟩
def TRK.EQ_HOLD_dfe_l1 : Fld := ⟨0x80, 9, 1, .rw, 0x0, false⟩
def TRK.EQ_HOLD_ctle_l1 : Fld := ⟨0x80, 8, 1, .rw, 0x0, false⟩
def TRK.EQ_HOLD_ctle_l0 : Fld := ⟨0x80, 0, 1, .rw, 0x0, false⟩
def TRK.EQ_HOLD_dfe_l0 : Fld := ⟨0x80, 1, 1, .rw, 0x0, false⟩
def TRK.EQ_HOLD_ffe_l0 : Fld := ⟨0x80, 2, 1, .rw, 0x0, false⟩
def TRK.EQ_HOLD_cdr_l0 : Fld := ⟨0x80, 3, 1, .rw, 0x0, false⟩
def TRK.CTLE_ENV_ctle_max : Fld := ⟨0x88, 8, 5, .rw, 0x1f, true⟩
def TRK.CTLE_ENV_ctle_min : Fld := ⟨0x88, 0, 5, .rw, 0x0, true⟩
def TRK.DFE_ENV_tapn_max : Fld := ⟨0x8c, 8, 5, .rw, 0x1f, true⟩
def TRK.DFE_ENV_tap1_max : Fld := ⟨0x8c, 0, 6, .rw, 0x3f, true⟩
def TRK.FFE_ENV_post_max : Fld := ⟨0x90, 8, 5, .rw, 0x1f, true⟩
def TRK.FFE_ENV_pre_max : Fld := ⟨0x90, 0, 4, .rw, 0xf, true⟩
def TRK.CTLE_SET_ctle_l1 : Fld := ⟨0x94, 8, 5, .rw, 0x0, true⟩
def TRK.CTLE_SET_ctle_l0 : Fld := ⟨0x94, 0, 5, .rw, 0x0, true⟩
def TRK.DFE_L0_dfe_l0 (i : Nat) : Fld := ⟨0x98 + 0x4 * i, 0, 32, .rw, 0x0, true⟩
def TRK.DFE_L1_dfe_l1 (i : Nat) : Fld := ⟨0xa4 + 0x4 * i, 0, 32, .rw, 0x0, true⟩
def TRK.FFE_L0_post : Fld := ⟨0xb0, 16, 5, .rw, 0x0, true⟩
def TRK.FFE_L0_main : Fld := ⟨0xb0, 8, 6, .ro, 0x3f, false⟩
def TRK.FFE_L0_pre : Fld := ⟨0xb0, 0, 4, .rw, 0x0, true⟩
def TRK.FFE_L1_post : Fld := ⟨0xb4, 16, 5, .rw, 0x0, true⟩
def TRK.FFE_L1_main : Fld := ⟨0xb4, 8, 6, .ro, 0x3f, false⟩
def TRK.FFE_L1_pre : Fld := ⟨0xb4, 0, 4, .rw, 0x0, true⟩
def TRK.CDR_CFG_cdr_bw : Fld := ⟨0xb8, 0, 2, .rw, 0x1, false⟩
def TRK.SB_CFG_keep_ms : Fld := ⟨0xc0, 4, 4, .rw, 0x1, false⟩
def TRK.SB_CFG_inband_only : Fld := ⟨0xc0, 0, 1, .rw, 0x0, false⟩
def TRK.SB_STAT_last_type : Fld := ⟨0xc4, 8, 8, .ro, 0x0, false⟩
def TRK.SB_STAT_partner_seen : Fld := ⟨0xc4, 1, 1, .ro, 0x0, false⟩
def TRK.SB_STAT_up : Fld := ⟨0xc4, 0, 1, .ro, 0x0, false⟩
def TRK.BEACON_CFG_max_ms : Fld := ⟨0xd0, 16, 16, .rw, 0x2ee0, false⟩
def TRK.BEACON_CFG_send : Fld := ⟨0xd0, 0, 1, .wo, 0x0, true⟩
def TRK.TTC_CFG_cc_role : Fld := ⟨0xd4, 0, 2, .rw, 0x0, false⟩
def TRK.TTC_STAT_attached : Fld := ⟨0xd8, 3, 1, .ro, 0x0, false⟩
def TRK.TTC_STAT_orient : Fld := ⟨0xd8, 2, 1, .ro, 0x0, false⟩
def TRK.TTC_STAT_partner_term : Fld := ⟨0xd8, 0, 2, .ro, 0x0, false⟩
def TRK.EQ_PIN_ctle_l0 : Fld := ⟨0x84, 0, 1, .w1c, 0x0, false⟩
def TRK.EQ_PIN_dfe_l0 : Fld := ⟨0x84, 1, 1, .w1c, 0x0, false⟩
def TRK.EQ_PIN_ffe_l0 : Fld := ⟨0x84, 2, 1, .w1c, 0x0, false⟩
def TRK.EQ_PIN_cdr_l0 : Fld := ⟨0x84, 3, 1, .w1c, 0x0, false⟩
def TRK.EQ_PIN_ctle_l1 : Fld := ⟨0x84, 8, 1, .w1c, 0x0, false⟩
def TRK.EQ_PIN_dfe_l1 : Fld := ⟨0x84, 9, 1, .w1c, 0x0, false⟩
def TRK.EQ_PIN_ffe_l1 : Fld := ⟨0x84, 10, 1, .w1c, 0x0, false⟩
def TRK.EQ_PIN_cdr_l1 : Fld := ⟨0x84, 11, 1, .w1c, 0x0, false⟩
/-- The block registers of the page type TRK. -/
def TRK.rows : List FRow :=
  [⟨TRK.PORT_CFG_allow_g2, 4, 1⟩, ⟨TRK.PORT_CFG_allow_g1, 4, 1⟩, ⟨TRK.PORT_CFG_allow_g0, 4, 1⟩, ⟨TRK.PORT_CFG_allow_p1, 4, 1⟩, ⟨TRK.PORT_CFG_media, 4, 1⟩, ⟨TRK.PORT_CFG_l1_dis, 4, 1⟩, ⟨TRK.PORT_CFG_sb_en, 4, 1⟩, ⟨TRK.PORT_CFG_auto_down, 4, 1⟩, ⟨TRK.PORT_CFG_beacon_en, 4, 1⟩, ⟨TRK.PORT_CFG_port_en, 4, 1⟩, ⟨TRK.PORT_CTL_hold_down, 4, 1⟩, ⟨TRK.PORT_CTL_renego, 4, 1⟩, ⟨TRK.PORT_CTL_retrain, 4, 1⟩, ⟨TRK.PORT_STAT_role, 4, 1⟩, ⟨TRK.PORT_STAT_state, 4, 1⟩, ⟨TRK.PORT_STAT_mode, 4, 1⟩, ⟨TRK.PORT_STAT_tx_lanes, 4, 1⟩, ⟨TRK.PORT_STAT_rx_lanes, 4, 1⟩, ⟨TRK.PORT_STAT_partner_allow, 4, 1⟩, ⟨TRK.PORT_STAT_failed, 4, 1⟩, ⟨TRK.PORT_STAT_inband, 4, 1⟩, ⟨TRK.PORT_STAT_sb_up, 4, 1⟩, ⟨TRK.PORT_STAT_fast, 4, 1⟩, ⟨TRK.PORT_CAUSE_state_at_down, 4, 1⟩, ⟨TRK.PORT_CAUSE_cause, 4, 1⟩, ⟨TRK.LANE_CFG_swap, 4, 1⟩, ⟨TRK.LANE_CFG_pol_rx1, 4, 1⟩, ⟨TRK.LANE_CFG_pol_tx1, 4, 1⟩, ⟨TRK.LANE_CFG_pol_rx0, 4, 1⟩, ⟨TRK.LANE_CFG_pol_tx0, 4, 1⟩, ⟨TRK.LANE_STAT_flags_l1, 4, 1⟩, ⟨TRK.LANE_STAT_eye_l1, 4, 1⟩, ⟨TRK.LANE_STAT_flags_l0, 4, 1⟩, ⟨TRK.LANE_STAT_eye_l0, 4, 1⟩, ⟨TRK.DEGRADE_CFG_win_cnt, 4, 1⟩, ⟨TRK.DEGRADE_CFG_unc_max, 4, 1⟩, ⟨TRK.DEGRADE_CFG_ser_max, 4, 1⟩, ⟨TRK.FEC_CORR_fec_corr, 4, 1⟩, ⟨TRK.FEC_UNC_fec_unc, 4, 1⟩, ⟨TRK.SYM_CNT_sym_l1, 4, 1⟩] ++
  [⟨TRK.SYM_CNT_sym_l0, 4, 1⟩, ⟨TRK.LINK_CNT_downs, 4, 1⟩, ⟨TRK.LINK_CNT_recovers, 4, 1⟩, ⟨TRK.LINK_CNT_lane_losses, 4, 1⟩, ⟨TRK.LINK_CNT_train_fails, 4, 1⟩, ⟨TRK.SB_ERR_sb_crc, 4, 1⟩, ⟨TRK.EQ_HOLD_cdr_l1, 4, 1⟩, ⟨TRK.EQ_HOLD_ffe_l1, 4, 1⟩, ⟨TRK.EQ_HOLD_dfe_l1, 4, 1⟩, ⟨TRK.EQ_HOLD_ctle_l1, 4, 1⟩, ⟨TRK.EQ_HOLD_ctle_l0, 4, 1⟩, ⟨TRK.EQ_HOLD_dfe_l0, 4, 1⟩, ⟨TRK.EQ_HOLD_ffe_l0, 4, 1⟩, ⟨TRK.EQ_HOLD_cdr_l0, 4, 1⟩, ⟨TRK.CTLE_ENV_ctle_max, 4, 1⟩, ⟨TRK.CTLE_ENV_ctle_min, 4, 1⟩, ⟨TRK.DFE_ENV_tapn_max, 4, 1⟩, ⟨TRK.DFE_ENV_tap1_max, 4, 1⟩, ⟨TRK.FFE_ENV_post_max, 4, 1⟩, ⟨TRK.FFE_ENV_pre_max, 4, 1⟩, ⟨TRK.CTLE_SET_ctle_l1, 4, 1⟩, ⟨TRK.CTLE_SET_ctle_l0, 4, 1⟩, ⟨TRK.DFE_L0_dfe_l0 0, 0x4, 3⟩, ⟨TRK.DFE_L1_dfe_l1 0, 0x4, 3⟩, ⟨TRK.FFE_L0_post, 4, 1⟩, ⟨TRK.FFE_L0_main, 4, 1⟩, ⟨TRK.FFE_L0_pre, 4, 1⟩, ⟨TRK.FFE_L1_post, 4, 1⟩, ⟨TRK.FFE_L1_main, 4, 1⟩, ⟨TRK.FFE_L1_pre, 4, 1⟩, ⟨TRK.CDR_CFG_cdr_bw, 4, 1⟩, ⟨TRK.SB_CFG_keep_ms, 4, 1⟩, ⟨TRK.SB_CFG_inband_only, 4, 1⟩, ⟨TRK.SB_STAT_last_type, 4, 1⟩, ⟨TRK.SB_STAT_partner_seen, 4, 1⟩, ⟨TRK.SB_STAT_up, 4, 1⟩, ⟨TRK.BEACON_CFG_max_ms, 4, 1⟩, ⟨TRK.BEACON_CFG_send, 4, 1⟩, ⟨TRK.TTC_CFG_cc_role, 4, 1⟩, ⟨TRK.TTC_STAT_attached, 4, 1⟩] ++
  [⟨TRK.TTC_STAT_orient, 4, 1⟩, ⟨TRK.TTC_STAT_partner_term, 4, 1⟩, ⟨TRK.EQ_PIN_ctle_l0, 4, 1⟩, ⟨TRK.EQ_PIN_dfe_l0, 4, 1⟩, ⟨TRK.EQ_PIN_ffe_l0, 4, 1⟩, ⟨TRK.EQ_PIN_cdr_l0, 4, 1⟩, ⟨TRK.EQ_PIN_ctle_l1, 4, 1⟩, ⟨TRK.EQ_PIN_dfe_l1, 4, 1⟩, ⟨TRK.EQ_PIN_ffe_l1, 4, 1⟩, ⟨TRK.EQ_PIN_cdr_l1, 4, 1⟩]

/-! ### LNK (R92) -/
def LNK.LNK_CFG_stat_tmo_us : Fld := ⟨0x40, 24, 8, .rw, 0x14, false⟩
def LNK.LNK_CFG_replay_max : Fld := ⟨0x40, 20, 4, .rw, 0x4, false⟩
def LNK.LNK_CFG_rpl_margin_us : Fld := ⟨0x40, 12, 8, .rw, 0x4, false⟩
def LNK.LNK_CFG_ack_ns : Fld := ⟨0x40, 0, 10, .rw, 0x1f4, false⟩
def LNK.LNK_STAT_st : Fld := ⟨0x44, 30, 2, .ro, 0x0, false⟩
def LNK.LNK_STAT_rtr_cause : Fld := ⟨0x44, 24, 4, .ro, 0x0, false⟩
def LNK.LNK_STAT_tx_next : Fld := ⟨0x44, 12, 12, .ro, 0x0, false⟩
def LNK.LNK_STAT_rx_expect : Fld := ⟨0x44, 0, 12, .ro, 0x0, false⟩
def LNK.LNK_ACK_outstanding : Fld := ⟨0x48, 16, 16, .ro, 0x0, false⟩
def LNK.LNK_ACK_last_ack : Fld := ⟨0x48, 0, 12, .ro, 0x0, false⟩
def LNK.RTT_rtt_ns : Fld := ⟨0x4c, 0, 32, .ro, 0x0, false⟩
def LNK.CRD_CFG_rt_cells : Fld := ⟨0x50, 16, 16, .rw, 0x40, true⟩
def LNK.CRD_CFG_g_share : Fld := ⟨0x50, 8, 4, .rw, 0x8, true⟩
def LNK.CRD_CFG_m_share : Fld := ⟨0x50, 0, 4, .rw, 0x1, true⟩
def LNK.CRD_LIM0_g_lim : Fld := ⟨0x54, 16, 16, .ro, 0x30, false⟩
def LNK.CRD_LIM0_m_lim : Fld := ⟨0x54, 0, 16, .ro, 0x14, false⟩
def LNK.CRD_LIM1_t_lim : Fld := ⟨0x58, 16, 16, .ro, 0x10, false⟩
def LNK.CRD_LIM1_e_lim : Fld := ⟨0x58, 0, 16, .ro, 0x10, false⟩
def LNK.CRD_LIM2_sh_lim : Fld := ⟨0x5c, 0, 16, .ro, 0x1c, false⟩
def LNK.CRD_AVAIL0_g_avail : Fld := ⟨0x60, 16, 16, .ro, 0x0, false⟩
def LNK.CRD_AVAIL0_m_avail : Fld := ⟨0x60, 0, 16, .ro, 0x0, false⟩
def LNK.CRD_AVAIL1_t_avail : Fld := ⟨0x64, 16, 16, .ro, 0x0, false⟩
def LNK.CRD_AVAIL1_e_avail : Fld := ⟨0x64, 0, 16, .ro, 0x0, false⟩
def LNK.CRD_AVAIL2_sh_avail : Fld := ⟨0x68, 0, 16, .ro, 0x0, false⟩
def LNK.LNK_CNT0_hop_crc : Fld := ⟨0x70, 16, 16, .rc, 0x0, false⟩
def LNK.LNK_CNT0_aborts_rx : Fld := ⟨0x70, 0, 16, .rc, 0x0, false⟩
def LNK.LNK_CNT1_naks_tx : Fld := ⟨0x74, 16, 16, .rc, 0x0, false⟩
def LNK.LNK_CNT1_naks_rx : Fld := ⟨0x74, 0, 16, .rc, 0x0, false⟩
def LNK.LNK_CNT2_replays : Fld := ⟨0x78, 16, 16, .rc, 0x0, false⟩
def LNK.LNK_CNT2_stat_tmo : Fld := ⟨0x78, 8, 8, .rc, 0x0, false⟩
def LNK.LNK_CNT2_ack_err : Fld := ⟨0x78, 0, 8, .rc, 0x0, false⟩
def LNK.LNK_CNT3_hdr_err : Fld := ⟨0x7c, 16, 16, .rc, 0x0, false⟩
def LNK.LNK_CNT3_e2e_transit : Fld := ⟨0x7c, 0, 16, .rc, 0x0, false⟩
def LNK.LNK_CNT4_cells_tx : Fld := ⟨0x80, 0, 32, .rc, 0x0, false⟩
def LNK.LNK_CNT5_cells_rx : Fld := ⟨0x84, 0, 32, .rc, 0x0, false⟩
def LNK.LNK_CNT6_p1_crc : Fld := ⟨0x88, 0, 16, .rc, 0x0, false⟩
def LNK.RSQ_CFG_transit_chk : Fld := ⟨0x100, 16, 1, .rw, 0x1, false⟩
def LNK.RSQ_CFG_tmo_us : Fld := ⟨0x100, 0, 16, .rw, 0x7d0, false⟩
def LNK.RSQ_CNT0_e2e_egress : Fld := ⟨0x104, 16, 16, .rc, 0x0, false⟩
def LNK.RSQ_CNT0_rsq_gap : Fld := ⟨0x104, 0, 16, .rc, 0x0, false⟩
def LNK.RSQ_CNT1_rsq_dup : Fld := ⟨0x108, 16, 16, .rc, 0x0, false⟩
def LNK.RSQ_CNT1_rsq_skip : Fld := ⟨0x108, 0, 16, .rc, 0x0, false⟩
def LNK.RSQ_GAP_gap_tunnel : Fld := ⟨0x10c, 16, 12, .ro, 0x0, false⟩
def LNK.RSQ_GAP_gap_tseq : Fld := ⟨0x10c, 0, 16, .ro, 0x0, false⟩
/-- The block registers of the page type LNK. -/
def LNK.rows : List FRow :=
  [⟨LNK.LNK_CFG_stat_tmo_us, 4, 1⟩, ⟨LNK.LNK_CFG_replay_max, 4, 1⟩, ⟨LNK.LNK_CFG_rpl_margin_us, 4, 1⟩, ⟨LNK.LNK_CFG_ack_ns, 4, 1⟩, ⟨LNK.LNK_STAT_st, 4, 1⟩, ⟨LNK.LNK_STAT_rtr_cause, 4, 1⟩, ⟨LNK.LNK_STAT_tx_next, 4, 1⟩, ⟨LNK.LNK_STAT_rx_expect, 4, 1⟩, ⟨LNK.LNK_ACK_outstanding, 4, 1⟩, ⟨LNK.LNK_ACK_last_ack, 4, 1⟩, ⟨LNK.RTT_rtt_ns, 4, 1⟩, ⟨LNK.CRD_CFG_rt_cells, 4, 1⟩, ⟨LNK.CRD_CFG_g_share, 4, 1⟩, ⟨LNK.CRD_CFG_m_share, 4, 1⟩, ⟨LNK.CRD_LIM0_g_lim, 4, 1⟩, ⟨LNK.CRD_LIM0_m_lim, 4, 1⟩, ⟨LNK.CRD_LIM1_t_lim, 4, 1⟩, ⟨LNK.CRD_LIM1_e_lim, 4, 1⟩, ⟨LNK.CRD_LIM2_sh_lim, 4, 1⟩, ⟨LNK.CRD_AVAIL0_g_avail, 4, 1⟩, ⟨LNK.CRD_AVAIL0_m_avail, 4, 1⟩, ⟨LNK.CRD_AVAIL1_t_avail, 4, 1⟩, ⟨LNK.CRD_AVAIL1_e_avail, 4, 1⟩, ⟨LNK.CRD_AVAIL2_sh_avail, 4, 1⟩, ⟨LNK.LNK_CNT0_hop_crc, 4, 1⟩, ⟨LNK.LNK_CNT0_aborts_rx, 4, 1⟩, ⟨LNK.LNK_CNT1_naks_tx, 4, 1⟩, ⟨LNK.LNK_CNT1_naks_rx, 4, 1⟩, ⟨LNK.LNK_CNT2_replays, 4, 1⟩, ⟨LNK.LNK_CNT2_stat_tmo, 4, 1⟩, ⟨LNK.LNK_CNT2_ack_err, 4, 1⟩, ⟨LNK.LNK_CNT3_hdr_err, 4, 1⟩, ⟨LNK.LNK_CNT3_e2e_transit, 4, 1⟩, ⟨LNK.LNK_CNT4_cells_tx, 4, 1⟩, ⟨LNK.LNK_CNT5_cells_rx, 4, 1⟩, ⟨LNK.LNK_CNT6_p1_crc, 4, 1⟩, ⟨LNK.RSQ_CFG_transit_chk, 4, 1⟩, ⟨LNK.RSQ_CFG_tmo_us, 4, 1⟩, ⟨LNK.RSQ_CNT0_e2e_egress, 4, 1⟩, ⟨LNK.RSQ_CNT0_rsq_gap, 4, 1⟩] ++
  [⟨LNK.RSQ_CNT1_rsq_dup, 4, 1⟩, ⟨LNK.RSQ_CNT1_rsq_skip, 4, 1⟩, ⟨LNK.RSQ_GAP_gap_tunnel, 4, 1⟩, ⟨LNK.RSQ_GAP_gap_tseq, 4, 1⟩]

/-! ### CHN (R121) -/
def CHN.CHN_CFG_prio : Fld := ⟨0x40, 28, 4, .rw, 0x8, false⟩
def CHN.CHN_CFG_hb_miss_max : Fld := ⟨0x40, 24, 4, .rw, 0x8, false⟩
def CHN.CHN_CFG_enum_tmo : Fld := ⟨0x40, 16, 8, .rw, 0xa, false⟩
def CHN.CHN_CFG_arb_us : Fld := ⟨0x40, 8, 8, .rw, 0x32, false⟩
def CHN.CHN_CFG_g_via_p1200 : Fld := ⟨0x40, 7, 1, .rw, 0x0, false⟩
def CHN.CHN_CFG_wake_prop : Fld := ⟨0x40, 6, 1, .rw, 0x1, false⟩
def CHN.CHN_CFG_gasp_en : Fld := ⟨0x40, 5, 1, .rw, 0x1, false⟩
def CHN.CHN_CFG_standby_en : Fld := ⟨0x40, 4, 1, .rw, 0x1, false⟩
def CHN.CHN_CFG_gasp_rep : Fld := ⟨0x40, 0, 2, .rw, 0x3, false⟩
def CHN.CHN_STAT_home_state : Fld := ⟨0x44, 30, 2, .ro, 0x0, false⟩
def CHN.CHN_STAT_part_role : Fld := ⟨0x44, 28, 2, .ro, 0x0, false⟩
def CHN.CHN_STAT_boundary : Fld := ⟨0x44, 27, 1, .ro, 0x0, false⟩
def CHN.CHN_STAT_chain : Fld := ⟨0x44, 26, 1, .ro, 0x0, false⟩
def CHN.CHN_STAT_addr : Fld := ⟨0x44, 18, 6, .ro, 0x3f, false⟩
def CHN.CHN_STAT_foreign : Fld := ⟨0x44, 8, 8, .rc, 0x0, false⟩
def CHN.CHN_STAT_hb_missed : Fld := ⟨0x44, 0, 4, .ro, 0x0, false⟩
def CHN.HOME_ID_LO_home_id_lo : Fld := ⟨0x48, 0, 32, .ro, 0x0, false⟩
def CHN.HOME_ID_HI_home_id_hi : Fld := ⟨0x4c, 0, 32, .ro, 0x0, false⟩
def CHN.CHAIN_STAT_state (i : Nat) : Fld := ⟨0x50 + 0x4 * i, 30, 2, .ro, 0x0, false⟩
def CHN.CHAIN_STAT_hubs (i : Nat) : Fld := ⟨0x50 + 0x4 * i, 24, 6, .ro, 0x0, false⟩
def CHN.CHAIN_STAT_p1200s (i : Nat) : Fld := ⟨0x50 + 0x4 * i, 12, 6, .ro, 0x0, false⟩
def CHN.CHAIN_STAT_standby (i : Nat) : Fld := ⟨0x50 + 0x4 * i, 8, 1, .ro, 0x0, false⟩
def CHN.HANDOVER_req : Fld := ⟨0x58, 31, 1, .wo, 0x0, true⟩
def CHN.HANDOVER_sel : Fld := ⟨0x58, 24, 1, .rw, 0x0, false⟩
def CHN.HANDOVER_status : Fld := ⟨0x58, 0, 4, .ro, 0x0, false⟩
def CHN.CMD_CTL_go : Fld := ⟨0x60, 31, 1, .wo, 0x0, true⟩
def CHN.CMD_CTL_sel : Fld := ⟨0x60, 30, 1, .rw, 0x0, false⟩
def CHN.CMD_CTL_target : Fld := ⟨0x60, 24, 6, .rw, 0x3f, false⟩
def CHN.CMD_CTL_cmd : Fld := ⟨0x60, 16, 8, .rw, 0x1, false⟩
def CHN.CMD_CTL_arg : Fld := ⟨0x60, 0, 16, .rw, 0x0, false⟩
def CHN.CMD_TIME_LO_t_go_lo : Fld := ⟨0x64, 0, 32, .rw, 0x0, false⟩
def CHN.CMD_TIME_HI_t_go_hi : Fld := ⟨0x68, 0, 32, .rw, 0x0, false⟩
def CHN.CMD_STAT_st : Fld := ⟨0x6c, 30, 2, .ro, 0x0, false⟩
def CHN.CMD_STAT_expected : Fld := ⟨0x6c, 24, 6, .ro, 0x0, false⟩
def CHN.CMD_STAT_acked : Fld := ⟨0x6c, 18, 6, .ro, 0x0, false⟩
def CHN.CMD_STAT_first_bad : Fld := ⟨0x6c, 12, 6, .ro, 0x0, false⟩
def CHN.CMD_STAT_cause : Fld := ⟨0x6c, 0, 8, .ro, 0x0, false⟩
def CHN.CMD_TMO_cmd_tmo_us : Fld := ⟨0x70, 0, 16, .rw, 0x7d0, false⟩
def CHN.DIR_SEL_dsel_chain : Fld := ⟨0x80, 8, 1, .rw, 0x0, false⟩
def CHN.DIR_SEL_dsel_addr : Fld := ⟨0x80, 0, 6, .rw, 0x0, false⟩
def CHN.DIR_DATA0_id_lo : Fld := ⟨0x84, 0, 32, .ro, 0x0, false⟩
def CHN.DIR_DATA1_id_hi : Fld := ⟨0x88, 0, 32, .ro, 0x0, false⟩
def CHN.DIR_DATA2_ident : Fld := ⟨0x8c, 0, 32, .ro, 0x0, false⟩
def CHN.DIR_DATA3_links : Fld := ⟨0x90, 0, 32, .ro, 0x0, false⟩
def CHN.GASP_LOG0_gasp_id_lo : Fld := ⟨0xa0, 0, 32, .ro, 0x0, false⟩
def CHN.GASP_LOG1_gasp_addr : Fld := ⟨0xa4, 8, 6, .ro, 0x0, false⟩
def CHN.GASP_LOG1_gasp_cause : Fld := ⟨0xa4, 0, 8, .ro, 0x0, false⟩
def CHN.GASP_LOG2_gasp_time : Fld := ⟨0xa8, 0, 32, .ro, 0x0, false⟩
/-- The block registers of the page type CHN. -/
def CHN.rows : List FRow :=
  [⟨CHN.CHN_CFG_prio, 4, 1⟩, ⟨CHN.CHN_CFG_hb_miss_max, 4, 1⟩, ⟨CHN.CHN_CFG_enum_tmo, 4, 1⟩, ⟨CHN.CHN_CFG_arb_us, 4, 1⟩, ⟨CHN.CHN_CFG_g_via_p1200, 4, 1⟩, ⟨CHN.CHN_CFG_wake_prop, 4, 1⟩, ⟨CHN.CHN_CFG_gasp_en, 4, 1⟩, ⟨CHN.CHN_CFG_standby_en, 4, 1⟩, ⟨CHN.CHN_CFG_gasp_rep, 4, 1⟩, ⟨CHN.CHN_STAT_home_state, 4, 1⟩, ⟨CHN.CHN_STAT_part_role, 4, 1⟩, ⟨CHN.CHN_STAT_boundary, 4, 1⟩, ⟨CHN.CHN_STAT_chain, 4, 1⟩, ⟨CHN.CHN_STAT_addr, 4, 1⟩, ⟨CHN.CHN_STAT_foreign, 4, 1⟩, ⟨CHN.CHN_STAT_hb_missed, 4, 1⟩, ⟨CHN.HOME_ID_LO_home_id_lo, 4, 1⟩, ⟨CHN.HOME_ID_HI_home_id_hi, 4, 1⟩, ⟨CHN.CHAIN_STAT_state 0, 0x4, 2⟩, ⟨CHN.CHAIN_STAT_hubs 0, 0x4, 2⟩, ⟨CHN.CHAIN_STAT_p1200s 0, 0x4, 2⟩, ⟨CHN.CHAIN_STAT_standby 0, 0x4, 2⟩, ⟨CHN.HANDOVER_req, 4, 1⟩, ⟨CHN.HANDOVER_sel, 4, 1⟩, ⟨CHN.HANDOVER_status, 4, 1⟩, ⟨CHN.CMD_CTL_go, 4, 1⟩, ⟨CHN.CMD_CTL_sel, 4, 1⟩, ⟨CHN.CMD_CTL_target, 4, 1⟩, ⟨CHN.CMD_CTL_cmd, 4, 1⟩, ⟨CHN.CMD_CTL_arg, 4, 1⟩, ⟨CHN.CMD_TIME_LO_t_go_lo, 4, 1⟩, ⟨CHN.CMD_TIME_HI_t_go_hi, 4, 1⟩, ⟨CHN.CMD_STAT_st, 4, 1⟩, ⟨CHN.CMD_STAT_expected, 4, 1⟩, ⟨CHN.CMD_STAT_acked, 4, 1⟩, ⟨CHN.CMD_STAT_first_bad, 4, 1⟩, ⟨CHN.CMD_STAT_cause, 4, 1⟩, ⟨CHN.CMD_TMO_cmd_tmo_us, 4, 1⟩, ⟨CHN.DIR_SEL_dsel_chain, 4, 1⟩, ⟨CHN.DIR_SEL_dsel_addr, 4, 1⟩] ++
  [⟨CHN.DIR_DATA0_id_lo, 4, 1⟩, ⟨CHN.DIR_DATA1_id_hi, 4, 1⟩, ⟨CHN.DIR_DATA2_ident, 4, 1⟩, ⟨CHN.DIR_DATA3_links, 4, 1⟩, ⟨CHN.GASP_LOG0_gasp_id_lo, 4, 1⟩, ⟨CHN.GASP_LOG1_gasp_addr, 4, 1⟩, ⟨CHN.GASP_LOG1_gasp_cause, 4, 1⟩, ⟨CHN.GASP_LOG2_gasp_time, 4, 1⟩]

/-! ### CTIM (R122) -/
def CTIM.CTIM_CFG_epoch_code : Fld := ⟨0x40, 28, 4, .ro, 0x2, false⟩
def CTIM.CTIM_CFG_tc_div : Fld := ⟨0x40, 16, 2, .rw, 0x0, false⟩
def CTIM.CTIM_CFG_step_thr : Fld := ⟨0x40, 8, 8, .rw, 0xa, false⟩
def CTIM.CTIM_CFG_slew_ppm : Fld := ⟨0x40, 0, 8, .rw, 0x32, false⟩
def CTIM.TIME_LO_time_lo : Fld := ⟨0x44, 0, 32, .ro, 0x0, false⟩
def CTIM.TIME_HI_time_hi : Fld := ⟨0x48, 0, 32, .ro, 0x0, false⟩
def CTIM.OFFSET_offset : Fld := ⟨0x4c, 0, 32, .ro, 0x0, false⟩
def CTIM.ASYM_asym_tu : Fld := ⟨0x50, 16, 16, .rw, 0x0, false⟩
def CTIM.ASYM_asym_td : Fld := ⟨0x50, 0, 16, .rw, 0x0, false⟩
def CTIM.CTIM_STAT_locked : Fld := ⟨0x54, 31, 1, .ro, 0x0, false⟩
def CTIM.CTIM_STAT_free : Fld := ⟨0x54, 30, 1, .ro, 0x1, false⟩
def CTIM.CTIM_STAT_degraded : Fld := ⟨0x54, 29, 1, .ro, 0x0, false⟩
def CTIM.CTIM_STAT_p1200_crossed : Fld := ⟨0x54, 16, 8, .ro, 0x0, false⟩
def CTIM.CTIM_STAT_steps : Fld := ⟨0x54, 0, 16, .rc, 0x0, false⟩
def CTIM.EPOCH_epoch_num : Fld := ⟨0x58, 0, 32, .ro, 0x0, false⟩
def CTIM.ADJ_adj_ppb : Fld := ⟨0x5c, 0, 32, .rw, 0x0, false⟩
def CTIM.SET_LO_set_lo : Fld := ⟨0x60, 0, 32, .rw, 0x0, false⟩
def CTIM.SET_HI_set_hi : Fld := ⟨0x64, 0, 32, .rw, 0x0, false⟩
def CTIM.SET_GO_set_go : Fld := ⟨0x68, 0, 1, .wo, 0x0, true⟩
/-- The block registers of the page type CTIM. -/
def CTIM.rows : List FRow :=
  [⟨CTIM.CTIM_CFG_epoch_code, 4, 1⟩, ⟨CTIM.CTIM_CFG_tc_div, 4, 1⟩, ⟨CTIM.CTIM_CFG_step_thr, 4, 1⟩, ⟨CTIM.CTIM_CFG_slew_ppm, 4, 1⟩, ⟨CTIM.TIME_LO_time_lo, 4, 1⟩, ⟨CTIM.TIME_HI_time_hi, 4, 1⟩, ⟨CTIM.OFFSET_offset, 4, 1⟩, ⟨CTIM.ASYM_asym_tu, 4, 1⟩, ⟨CTIM.ASYM_asym_td, 4, 1⟩, ⟨CTIM.CTIM_STAT_locked, 4, 1⟩, ⟨CTIM.CTIM_STAT_free, 4, 1⟩, ⟨CTIM.CTIM_STAT_degraded, 4, 1⟩, ⟨CTIM.CTIM_STAT_p1200_crossed, 4, 1⟩, ⟨CTIM.CTIM_STAT_steps, 4, 1⟩, ⟨CTIM.EPOCH_epoch_num, 4, 1⟩, ⟨CTIM.ADJ_adj_ppb, 4, 1⟩, ⟨CTIM.SET_LO_set_lo, 4, 1⟩, ⟨CTIM.SET_HI_set_hi, 4, 1⟩, ⟨CTIM.SET_GO_set_go, 4, 1⟩]

/-! ### SWC (R147) -/
def SWC.SWC_CFG_t_wt : Fld := ⟨0x40, 24, 8, .rw, 0x4, false⟩
def SWC.SWC_CFG_e_wt : Fld := ⟨0x40, 16, 8, .rw, 0x4, false⟩
def SWC.SWC_CFG_cut_td : Fld := ⟨0x40, 1, 1, .rw, 0x1, false⟩
def SWC.SWC_CFG_cut_tu : Fld := ⟨0x40, 0, 1, .rw, 0x1, false⟩
def SWC.CAP_CFG_wait_pm : Fld := ⟨0x44, 0, 8, .rw, 0xa, false⟩
def SWC.CAP_STAT_cap_epochs : Fld := ⟨0x48, 16, 16, .rc, 0x0, false⟩
def SWC.CAP_STAT_rd_wait : Fld := ⟨0x48, 8, 8, .ro, 0x0, false⟩
def SWC.CAP_STAT_wr_wait : Fld := ⟨0x48, 0, 8, .ro, 0x0, false⟩
def SWC.CNT_SEL_port : Fld := ⟨0x50, 4, 3, .rw, 0x0, false⟩
def SWC.CNT_SEL_counter : Fld := ⟨0x50, 0, 4, .rw, 0x0, false⟩
def SWC.CNT_DATA_value : Fld := ⟨0x54, 0, 32, .rc, 0x0, false⟩
def SWC.GEN_VALID0_valid_lo : Fld := ⟨0x60, 0, 32, .rw, 0x0, false⟩
def SWC.GEN_VALID1_valid_hi : Fld := ⟨0x64, 0, 32, .rw, 0x0, false⟩
def SWC.GEN_TBL_gen (i : Nat) : Fld := ⟨0x80 + 0x4 * i, 0, 32, .rw, 0x0, false⟩
/-- The block registers of the page type SWC. -/
def SWC.rows : List FRow :=
  [⟨SWC.SWC_CFG_t_wt, 4, 1⟩, ⟨SWC.SWC_CFG_e_wt, 4, 1⟩, ⟨SWC.SWC_CFG_cut_td, 4, 1⟩, ⟨SWC.SWC_CFG_cut_tu, 4, 1⟩, ⟨SWC.CAP_CFG_wait_pm, 4, 1⟩, ⟨SWC.CAP_STAT_cap_epochs, 4, 1⟩, ⟨SWC.CAP_STAT_rd_wait, 4, 1⟩, ⟨SWC.CAP_STAT_wr_wait, 4, 1⟩, ⟨SWC.CNT_SEL_port, 4, 1⟩, ⟨SWC.CNT_SEL_counter, 4, 1⟩, ⟨SWC.CNT_DATA_value, 4, 1⟩, ⟨SWC.GEN_VALID0_valid_lo, 4, 1⟩, ⟨SWC.GEN_VALID1_valid_hi, 4, 1⟩, ⟨SWC.GEN_TBL_gen 0, 0x4, 16⟩]

/-! ### GRN (R148) -/
def GRN.GRN_STAT_short : Fld := ⟨0x40, 31, 1, .ro, 0x0, false⟩
def GRN.GRN_STAT_free : Fld := ⟨0x40, 15, 16, .ro, 0x8000, false⟩
def GRN.GRN_STAT_common_free : Fld := ⟨0x40, 0, 15, .ro, 0x7fff, false⟩
def GRN.PLC_CFG_hold : Fld := ⟨0x44, 31, 1, .rw, 0x0, false⟩
def GRN.PLC_CFG_headroom : Fld := ⟨0x44, 16, 8, .rw, 0x4, false⟩
def GRN.PLC_CFG_period : Fld := ⟨0x44, 0, 4, .rw, 0x8, false⟩
def GRN.PLC_PIN_pin : Fld := ⟨0x48, 4, 6, .w1c, 0x0, false⟩
def GRN.TQ_MARK_tq_mark : Fld := ⟨0x4c, 0, 16, .rw, 0x20, false⟩
def GRN.PKT_CFG_max_cells : Fld := ⟨0x50, 0, 6, .rw, 0x30, false⟩
def GRN.ECC_CNT_corr : Fld := ⟨0x54, 16, 16, .rc, 0x0, false⟩
def GRN.ECC_CNT_unc : Fld := ⟨0x54, 0, 16, .rc, 0x0, false⟩
def GRN.QRST_resets : Fld := ⟨0x58, 24, 8, .rc, 0x0, false⟩
def GRN.QRST_cause : Fld := ⟨0x58, 20, 4, .ro, 0x0, false⟩
def GRN.QRST_queue : Fld := ⟨0x58, 0, 13, .ro, 0x0, false⟩
def GRN.GLN_CFG_full : Fld := ⟨0x5c, 31, 1, .wo, 0x0, true⟩
def GRN.GLN_CFG_bg_div : Fld := ⟨0x5c, 0, 4, .rw, 0x4, false⟩
def GRN.GLN_STAT_passes : Fld := ⟨0x60, 16, 16, .rc, 0x0, false⟩
def GRN.GLN_STAT_busy : Fld := ⟨0x60, 0, 1, .ro, 0x0, false⟩
def GRN.GLN_RECL_reclaimed : Fld := ⟨0x64, 16, 16, .rc, 0x0, false⟩
def GRN.GLN_RECL_acct_fix : Fld := ⟨0x64, 0, 16, .rc, 0x0, false⟩
def GRN.LIMITS_floor (i : Nat) : Fld := ⟨0x100 + 0x10 * i, 16, 16, .rw, 0x0, true⟩
def GRN.LIMITS_ceiling (i : Nat) : Fld := ⟨0x100 + 0x10 * i, 0, 16, .rw, 0x0, true⟩
def GRN.RES_reserve (i : Nat) : Fld := ⟨0x104 + 0x10 * i, 16, 16, .rw, 0x0, true⟩
def GRN.RES_in_use (i : Nat) : Fld := ⟨0x104 + 0x10 * i, 0, 16, .ro, 0x0, false⟩
def GRN.PEAK_peak (i : Nat) : Fld := ⟨0x108 + 0x10 * i, 0, 16, .rc, 0x0, false⟩
def GRN.THR_drop (i : Nat) : Fld := ⟨0x200 + 0x4 * i, 16, 16, .rw, 0xffff, false⟩
def GRN.THR_mark (i : Nat) : Fld := ⟨0x200 + 0x4 * i, 0, 16, .rw, 0xffff, false⟩
/-- The block registers of the page type GRN. -/
def GRN.rows : List FRow :=
  [⟨GRN.GRN_STAT_short, 4, 1⟩, ⟨GRN.GRN_STAT_free, 4, 1⟩, ⟨GRN.GRN_STAT_common_free, 4, 1⟩, ⟨GRN.PLC_CFG_hold, 4, 1⟩, ⟨GRN.PLC_CFG_headroom, 4, 1⟩, ⟨GRN.PLC_CFG_period, 4, 1⟩, ⟨GRN.PLC_PIN_pin, 4, 1⟩, ⟨GRN.TQ_MARK_tq_mark, 4, 1⟩, ⟨GRN.PKT_CFG_max_cells, 4, 1⟩, ⟨GRN.ECC_CNT_corr, 4, 1⟩, ⟨GRN.ECC_CNT_unc, 4, 1⟩, ⟨GRN.QRST_resets, 4, 1⟩, ⟨GRN.QRST_cause, 4, 1⟩, ⟨GRN.QRST_queue, 4, 1⟩, ⟨GRN.GLN_CFG_full, 4, 1⟩, ⟨GRN.GLN_CFG_bg_div, 4, 1⟩, ⟨GRN.GLN_STAT_passes, 4, 1⟩, ⟨GRN.GLN_STAT_busy, 4, 1⟩, ⟨GRN.GLN_RECL_reclaimed, 4, 1⟩, ⟨GRN.GLN_RECL_acct_fix, 4, 1⟩, ⟨GRN.LIMITS_floor 0, 0x10, 10⟩, ⟨GRN.LIMITS_ceiling 0, 0x10, 10⟩, ⟨GRN.RES_reserve 0, 0x10, 10⟩, ⟨GRN.RES_in_use 0, 0x10, 10⟩, ⟨GRN.PEAK_peak 0, 0x10, 10⟩, ⟨GRN.THR_drop 0, 0x4, 32⟩, ⟨GRN.THR_mark 0, 0x4, 32⟩]

/-! ### TUN (R175) -/
def TUN.TUN_SEL_tunnel : Fld := ⟨0x40, 0, 12, .rw, 0x0, false⟩
def TUN.TUN_CMD_op : Fld := ⟨0x44, 0, 4, .wo, 0x0, true⟩
def TUN.TUN_DATA_data (i : Nat) : Fld := ⟨0x48 + 0x4 * i, 0, 32, .rw, 0x0, false⟩
def TUN.TUN_STAT_busy : Fld := ⟨0x58, 31, 1, .ro, 0x0, false⟩
def TUN.TUN_STAT_result : Fld := ⟨0x58, 0, 8, .ro, 0x0, false⟩
def TUN.TUN_FAIL_chain : Fld := ⟨0x5c, 8, 1, .ro, 0x0, false⟩
def TUN.TUN_FAIL_hub : Fld := ⟨0x5c, 0, 6, .ro, 0x0, false⟩
def TUN.TUN_CNT_no_entry : Fld := ⟨0x60, 0, 16, .rc, 0x0, false⟩
/-- The block registers of the page type TUN. -/
def TUN.rows : List FRow :=
  [⟨TUN.TUN_SEL_tunnel, 4, 1⟩, ⟨TUN.TUN_CMD_op, 4, 1⟩, ⟨TUN.TUN_DATA_data 0, 0x4, 4⟩, ⟨TUN.TUN_STAT_busy, 4, 1⟩, ⟨TUN.TUN_STAT_result, 4, 1⟩, ⟨TUN.TUN_FAIL_chain, 4, 1⟩, ⟨TUN.TUN_FAIL_hub, 4, 1⟩, ⟨TUN.TUN_CNT_no_entry, 4, 1⟩]

/-! ### TUN1 (R175) -/
def TUN1.VALID0_valid0 (i : Nat) : Fld := ⟨0x40 + 0x4 * i, 0, 32, .ro, 0x0, false⟩
def TUN1.VALID1_valid1 (i : Nat) : Fld := ⟨0x240 + 0x4 * i, 0, 32, .ro, 0x0, false⟩
def TUN1.ACTIVE_active (i : Nat) : Fld := ⟨0x440 + 0x4 * i, 0, 32, .ro, 0x0, false⟩
def TUN1.SUSP_susp (i : Nat) : Fld := ⟨0x640 + 0x4 * i, 0, 32, .ro, 0x0, false⟩
/-- The block registers of the page type TUN1. -/
def TUN1.rows : List FRow :=
  [⟨TUN1.VALID0_valid0 0, 0x4, 128⟩, ⟨TUN1.VALID1_valid1 0, 0x4, 128⟩, ⟨TUN1.ACTIVE_active 0, 0x4, 128⟩, ⟨TUN1.SUSP_susp 0, 0x4, 128⟩]

/-! ### SCH (R176) -/
def SCH.RPT_CFG_g_depth_min : Fld := ⟨0x40, 8, 8, .rw, 0x2, false⟩
def SCH.RPT_CFG_div : Fld := ⟨0x40, 4, 2, .rw, 0x0, false⟩
def SCH.RPT_CFG_cells : Fld := ⟨0x40, 0, 2, .rw, 0x0, false⟩
def SCH.BANK_CUR_cur_ver : Fld := ⟨0x44, 0, 16, .ro, 0x0, false⟩
def SCH.BANK_NEXT_pending : Fld := ⟨0x48, 31, 1, .ro, 0x0, false⟩
def SCH.BANK_NEXT_needs_full : Fld := ⟨0x48, 30, 1, .ro, 0x0, false⟩
def SCH.BANK_NEXT_next_ver : Fld := ⟨0x48, 0, 16, .ro, 0x0, false⟩
def SCH.SWAP_EPOCH_swap_epoch : Fld := ⟨0x4c, 0, 32, .ro, 0x0, false⟩
def SCH.CAL_SEL_bank : Fld := ⟨0x50, 13, 1, .rw, 0x0, false⟩
def SCH.CAL_SEL_port : Fld := ⟨0x50, 12, 1, .rw, 0x0, false⟩
def SCH.CAL_SEL_pos : Fld := ⟨0x50, 0, 12, .rw, 0x0, false⟩
def SCH.CAL_DATA_v : Fld := ⟨0x54, 31, 1, .ro, 0x0, false⟩
def SCH.CAL_DATA_tunnel : Fld := ⟨0x54, 0, 12, .ro, 0x0, false⟩
def SCH.CAL_STAT_pos (i : Nat) : Fld := ⟨0x58 + 0x4 * i, 20, 12, .ro, 0x0, false⟩
def SCH.CAL_STAT_g_pos (i : Nat) : Fld := ⟨0x58 + 0x4 * i, 0, 13, .ro, 0x0, false⟩
def SCH.BNK_SEL_tunnel : Fld := ⟨0x60, 0, 12, .rw, 0x0, false⟩
def SCH.BNK_DATA_p_tu : Fld := ⟨0x64, 28, 4, .ro, 0xf, false⟩
def SCH.BNK_DATA_p_td : Fld := ⟨0x64, 24, 4, .ro, 0xf, false⟩
def SCH.BNK_DATA_e_rate : Fld := ⟨0x64, 0, 13, .ro, 0x0, false⟩
def SCH.BNK_TOK_tokens : Fld := ⟨0x68, 0, 16, .ro, 0x0, false⟩
def SCH.WH_SEL_port : Fld := ⟨0x70, 4, 3, .rw, 0x0, false⟩
def SCH.WH_SEL_cls : Fld := ⟨0x70, 0, 1, .rw, 0x0, false⟩
def SCH.WH_BIN_bin (i : Nat) : Fld := ⟨0x74 + 0x4 * i, 0, 32, .rc, 0x0, false⟩
def SCH.SCH_CNT_swaps : Fld := ⟨0x94, 16, 16, .rc, 0x0, false⟩
def SCH.SCH_CNT_discards : Fld := ⟨0x94, 8, 8, .rc, 0x0, false⟩
def SCH.SCH_CNT_rebuilds : Fld := ⟨0x94, 0, 8, .rc, 0x0, false⟩
def SCH.OVR_tunnel : Fld := ⟨0x98, 16, 12, .ro, 0x0, false⟩
def SCH.OVR_count : Fld := ⟨0x98, 0, 16, .rc, 0x0, false⟩
/-- The block registers of the page type SCH. -/
def SCH.rows : List FRow :=
  [⟨SCH.RPT_CFG_g_depth_min, 4, 1⟩, ⟨SCH.RPT_CFG_div, 4, 1⟩, ⟨SCH.RPT_CFG_cells, 4, 1⟩, ⟨SCH.BANK_CUR_cur_ver, 4, 1⟩, ⟨SCH.BANK_NEXT_pending, 4, 1⟩, ⟨SCH.BANK_NEXT_needs_full, 4, 1⟩, ⟨SCH.BANK_NEXT_next_ver, 4, 1⟩, ⟨SCH.SWAP_EPOCH_swap_epoch, 4, 1⟩, ⟨SCH.CAL_SEL_bank, 4, 1⟩, ⟨SCH.CAL_SEL_port, 4, 1⟩, ⟨SCH.CAL_SEL_pos, 4, 1⟩, ⟨SCH.CAL_DATA_v, 4, 1⟩, ⟨SCH.CAL_DATA_tunnel, 4, 1⟩, ⟨SCH.CAL_STAT_pos 0, 0x4, 2⟩, ⟨SCH.CAL_STAT_g_pos 0, 0x4, 2⟩, ⟨SCH.BNK_SEL_tunnel, 4, 1⟩, ⟨SCH.BNK_DATA_p_tu, 4, 1⟩, ⟨SCH.BNK_DATA_p_td, 4, 1⟩, ⟨SCH.BNK_DATA_e_rate, 4, 1⟩, ⟨SCH.BNK_TOK_tokens, 4, 1⟩, ⟨SCH.WH_SEL_port, 4, 1⟩, ⟨SCH.WH_SEL_cls, 4, 1⟩, ⟨SCH.WH_BIN_bin 0, 0x4, 8⟩, ⟨SCH.SCH_CNT_swaps, 4, 1⟩, ⟨SCH.SCH_CNT_discards, 4, 1⟩, ⟨SCH.SCH_CNT_rebuilds, 4, 1⟩, ⟨SCH.OVR_tunnel, 4, 1⟩, ⟨SCH.OVR_count, 4, 1⟩]

/-! ### ALT (R177) -/
def ALT.ALT_CFG_g_share : Fld := ⟨0x40, 28, 4, .rw, 0x8, true⟩
def ALT.ALT_CFG_m_share : Fld := ⟨0x40, 24, 4, .rw, 0x1, true⟩
def ALT.ALT_CFG_t_share : Fld := ⟨0x40, 20, 4, .rw, 0x2, true⟩
def ALT.ALT_CFG_lead : Fld := ⟨0x40, 16, 4, .rw, 0x2, true⟩
def ALT.ALT_CFG_cutoff : Fld := ⟨0x40, 12, 4, .rw, 0xc, true⟩
def ALT.ALT_CFG_full_div : Fld := ⟨0x40, 8, 4, .rw, 0x6, true⟩
def ALT.ALT_CFG_e_hold : Fld := ⟨0x40, 1, 1, .rw, 0x0, true⟩
def ALT.ALT_CFG_hold : Fld := ⟨0x40, 0, 1, .rw, 0x0, true⟩
def ALT.HOP_LOOP_f_min : Fld := ⟨0x44, 24, 8, .rw, 0x40, false⟩
def ALT.HOP_LOOP_f_inc : Fld := ⟨0x44, 16, 8, .rw, 0x4, false⟩
def ALT.HOP_LOOP_f_dec_sh : Fld := ⟨0x44, 0, 3, .rw, 0x3, false⟩
def ALT.ALT_STAT_lead_c1 : Fld := ⟨0x48, 24, 8, .ro, 0x2, false⟩
def ALT.ALT_STAT_lead_c0 : Fld := ⟨0x48, 16, 8, .ro, 0x2, false⟩
def ALT.ALT_STAT_busy : Fld := ⟨0x48, 0, 1, .ro, 0x0, false⟩
def ALT.LAST_EPOCH_last_epoch : Fld := ⟨0x4c, 0, 32, .ro, 0x0, false⟩
def ALT.SUSP_LOG_chain : Fld := ⟨0x50, 31, 1, .ro, 0x0, false⟩
def ALT.SUSP_LOG_tunnel : Fld := ⟨0x50, 16, 12, .ro, 0x0, false⟩
def ALT.SUSP_LOG_count : Fld := ⟨0x50, 0, 16, .rc, 0x0, false⟩
def ALT.E_PIN_at_max : Fld := ⟨0x54, 31, 1, .ro, 0x0, false⟩
def ALT.E_PIN_tunnel : Fld := ⟨0x54, 16, 12, .ro, 0x0, false⟩
def ALT.E_PIN_count : Fld := ⟨0x54, 0, 16, .rc, 0x0, false⟩
def ALT.RPT_STAT_rpt_miss : Fld := ⟨0x58, 16, 16, .rc, 0x0, false⟩
def ALT.RPT_STAT_rpt_late : Fld := ⟨0x58, 0, 16, .rc, 0x0, false⟩
def ALT.HOP_SEL_chain : Fld := ⟨0x60, 8, 1, .rw, 0x0, false⟩
def ALT.HOP_SEL_dir : Fld := ⟨0x60, 7, 1, .rw, 0x0, false⟩
def ALT.HOP_SEL_near : Fld := ⟨0x60, 0, 6, .rw, 0x0, false⟩
def ALT.HOP_DATA0_s : Fld := ⟨0x64, 16, 13, .ro, 0x0, false⟩
def ALT.HOP_DATA0_g_used : Fld := ⟨0x64, 0, 13, .ro, 0x0, false⟩
def ALT.HOP_DATA1_e_budget : Fld := ⟨0x68, 16, 13, .ro, 0x0, false⟩
def ALT.HOP_DATA1_f_pin : Fld := ⟨0x68, 9, 1, .w1c, 0x0, false⟩
def ALT.HOP_DATA1_f : Fld := ⟨0x68, 0, 9, .rw, 0x100, true⟩
def ALT.TP_SEL_chain : Fld := ⟨0x70, 31, 1, .rw, 0x0, false⟩
def ALT.TP_SEL_tunnel : Fld := ⟨0x70, 16, 12, .rw, 0x0, false⟩
def ALT.TP_SEL_hop : Fld := ⟨0x70, 0, 6, .rw, 0x0, false⟩
def ALT.TP_DATA_v : Fld := ⟨0x74, 31, 1, .ro, 0x0, false⟩
def ALT.TP_DATA_p_log2 : Fld := ⟨0x74, 24, 4, .ro, 0x0, false⟩
def ALT.TP_DATA_gap_ns : Fld := ⟨0x74, 0, 21, .ro, 0x0, false⟩
def ALT.ALT_CNT_tables : Fld := ⟨0x78, 16, 16, .rc, 0x0, false⟩
def ALT.ALT_CNT_refusals : Fld := ⟨0x78, 0, 16, .rc, 0x0, false⟩
/-- The block registers of the page type ALT. -/
def ALT.rows : List FRow :=
  [⟨ALT.ALT_CFG_g_share, 4, 1⟩, ⟨ALT.ALT_CFG_m_share, 4, 1⟩, ⟨ALT.ALT_CFG_t_share, 4, 1⟩, ⟨ALT.ALT_CFG_lead, 4, 1⟩, ⟨ALT.ALT_CFG_cutoff, 4, 1⟩, ⟨ALT.ALT_CFG_full_div, 4, 1⟩, ⟨ALT.ALT_CFG_e_hold, 4, 1⟩, ⟨ALT.ALT_CFG_hold, 4, 1⟩, ⟨ALT.HOP_LOOP_f_min, 4, 1⟩, ⟨ALT.HOP_LOOP_f_inc, 4, 1⟩, ⟨ALT.HOP_LOOP_f_dec_sh, 4, 1⟩, ⟨ALT.ALT_STAT_lead_c1, 4, 1⟩, ⟨ALT.ALT_STAT_lead_c0, 4, 1⟩, ⟨ALT.ALT_STAT_busy, 4, 1⟩, ⟨ALT.LAST_EPOCH_last_epoch, 4, 1⟩, ⟨ALT.SUSP_LOG_chain, 4, 1⟩, ⟨ALT.SUSP_LOG_tunnel, 4, 1⟩, ⟨ALT.SUSP_LOG_count, 4, 1⟩, ⟨ALT.E_PIN_at_max, 4, 1⟩, ⟨ALT.E_PIN_tunnel, 4, 1⟩, ⟨ALT.E_PIN_count, 4, 1⟩, ⟨ALT.RPT_STAT_rpt_miss, 4, 1⟩, ⟨ALT.RPT_STAT_rpt_late, 4, 1⟩, ⟨ALT.HOP_SEL_chain, 4, 1⟩, ⟨ALT.HOP_SEL_dir, 4, 1⟩, ⟨ALT.HOP_SEL_near, 4, 1⟩, ⟨ALT.HOP_DATA0_s, 4, 1⟩, ⟨ALT.HOP_DATA0_g_used, 4, 1⟩, ⟨ALT.HOP_DATA1_e_budget, 4, 1⟩, ⟨ALT.HOP_DATA1_f_pin, 4, 1⟩, ⟨ALT.HOP_DATA1_f, 4, 1⟩, ⟨ALT.TP_SEL_chain, 4, 1⟩, ⟨ALT.TP_SEL_tunnel, 4, 1⟩, ⟨ALT.TP_SEL_hop, 4, 1⟩, ⟨ALT.TP_DATA_v, 4, 1⟩, ⟨ALT.TP_DATA_p_log2, 4, 1⟩, ⟨ALT.TP_DATA_gap_ns, 4, 1⟩, ⟨ALT.ALT_CNT_tables, 4, 1⟩, ⟨ALT.ALT_CNT_refusals, 4, 1⟩]

/-! ### XBR (R206) -/
def XBR.RTY_CFG_ivl_us : Fld := ⟨0x40, 16, 16, .rw, 0x14, false⟩
def XBR.RTY_CFG_t_retry_us : Fld := ⟨0x40, 0, 4, .rw, 0x2, false⟩
def XBR.DISC_CFG_disc_ms : Fld := ⟨0x44, 0, 10, .rw, 0xa, false⟩
def XBR.CTO_CFG_cto_head : Fld := ⟨0x48, 16, 10, .rw, 0xa, false⟩
def XBR.CTO_CFG_cto_hub : Fld := ⟨0x48, 0, 10, .rw, 0xa, false⟩
def XBR.QUAR_quar_us : Fld := ⟨0x4c, 0, 24, .ro, 0x3e8, false⟩
def XBR.SLOT_STAT_free : Fld := ⟨0x50, 16, 7, .ro, 0x40, false⟩
def XBR.SLOT_STAT_pending : Fld := ⟨0x50, 8, 7, .ro, 0x0, false⟩
def XBR.SLOT_STAT_ready : Fld := ⟨0x50, 0, 7, .ro, 0x0, false⟩
def XBR.SLOT_SEL_slot : Fld := ⟨0x54, 0, 6, .rw, 0x0, false⟩
def XBR.SLOT_DATA_state : Fld := ⟨0x58, 30, 2, .ro, 0x0, false⟩
def XBR.SLOT_DATA_owner : Fld := ⟨0x58, 29, 1, .ro, 0x0, false⟩
def XBR.SLOT_DATA_seq : Fld := ⟨0x58, 16, 10, .ro, 0x0, false⟩
def XBR.SLOT_DATA_vhc : Fld := ⟨0x58, 8, 6, .ro, 0x0, false⟩
def XBR.SLOT_DATA_op : Fld := ⟨0x58, 0, 4, .ro, 0x0, false⟩
def XBR.TAG_STAT_in_use : Fld := ⟨0x60, 16, 13, .ro, 0x0, false⟩
def XBR.TAG_STAT_waiting : Fld := ⟨0x60, 0, 9, .ro, 0x0, false⟩
def XBR.QUOTA_SEL_vhc : Fld := ⟨0x64, 0, 6, .rw, 0x0, false⟩
def XBR.QUOTA_DATA_quota : Fld := ⟨0x68, 16, 13, .rw, 0x40, true⟩
def XBR.QUOTA_DATA_held : Fld := ⟨0x68, 0, 13, .ro, 0x0, false⟩
def XBR.XBR_CNT0_cpl_tmo : Fld := ⟨0x70, 16, 16, .rc, 0x0, false⟩
def XBR.XBR_CNT0_late_cpl : Fld := ⟨0x70, 0, 16, .rc, 0x0, false⟩
def XBR.XBR_CNT1_unexp_cpl : Fld := ⟨0x74, 16, 16, .rc, 0x0, false⟩
def XBR.XBR_CNT1_tkt_stale : Fld := ⟨0x74, 0, 16, .rc, 0x0, false⟩
def XBR.XBR_CNT2_discards : Fld := ⟨0x78, 16, 16, .rc, 0x0, false⟩
def XBR.XBR_CNT2_np_retry : Fld := ⟨0x78, 0, 16, .rc, 0x0, false⟩
def XBR.XBR_CNT3_retries : Fld := ⟨0x7c, 16, 16, .rc, 0x0, false⟩
def XBR.XBR_CNT3_fmt_err : Fld := ⟨0x7c, 0, 16, .rc, 0x0, false⟩
/-- The block registers of the page type XBR. -/
def XBR.rows : List FRow :=
  [⟨XBR.RTY_CFG_ivl_us, 4, 1⟩, ⟨XBR.RTY_CFG_t_retry_us, 4, 1⟩, ⟨XBR.DISC_CFG_disc_ms, 4, 1⟩, ⟨XBR.CTO_CFG_cto_head, 4, 1⟩, ⟨XBR.CTO_CFG_cto_hub, 4, 1⟩, ⟨XBR.QUAR_quar_us, 4, 1⟩, ⟨XBR.SLOT_STAT_free, 4, 1⟩, ⟨XBR.SLOT_STAT_pending, 4, 1⟩, ⟨XBR.SLOT_STAT_ready, 4, 1⟩, ⟨XBR.SLOT_SEL_slot, 4, 1⟩, ⟨XBR.SLOT_DATA_state, 4, 1⟩, ⟨XBR.SLOT_DATA_owner, 4, 1⟩, ⟨XBR.SLOT_DATA_seq, 4, 1⟩, ⟨XBR.SLOT_DATA_vhc, 4, 1⟩, ⟨XBR.SLOT_DATA_op, 4, 1⟩, ⟨XBR.TAG_STAT_in_use, 4, 1⟩, ⟨XBR.TAG_STAT_waiting, 4, 1⟩, ⟨XBR.QUOTA_SEL_vhc, 4, 1⟩, ⟨XBR.QUOTA_DATA_quota, 4, 1⟩, ⟨XBR.QUOTA_DATA_held, 4, 1⟩, ⟨XBR.XBR_CNT0_cpl_tmo, 4, 1⟩, ⟨XBR.XBR_CNT0_late_cpl, 4, 1⟩, ⟨XBR.XBR_CNT1_unexp_cpl, 4, 1⟩, ⟨XBR.XBR_CNT1_tkt_stale, 4, 1⟩, ⟨XBR.XBR_CNT2_discards, 4, 1⟩, ⟨XBR.XBR_CNT2_np_retry, 4, 1⟩, ⟨XBR.XBR_CNT3_retries, 4, 1⟩, ⟨XBR.XBR_CNT3_fmt_err, 4, 1⟩]

/-! ### PXB (R207) -/
def PXB.PX_CFG_en : Fld := ⟨0x40, 31, 1, .rw, 0x0, false⟩
def PXB.PX_CFG_ext_en : Fld := ⟨0x40, 1, 1, .rw, 0x0, false⟩
def PXB.PX_STAT_owner : Fld := ⟨0x44, 0, 2, .ro, 0x0, false⟩
def PXB.TSET_rdy_max_us (i : Nat) : Fld := ⟨0x48 + 0x4 * i, 24, 8, .rw, 0x40, false⟩
def PXB.TSET_ale_w (i : Nat) : Fld := ⟨0x48 + 0x4 * i, 16, 4, .rw, 0x2, false⟩
def PXB.TSET_adr_hold (i : Nat) : Fld := ⟨0x48 + 0x4 * i, 12, 3, .rw, 0x1, false⟩
def PXB.TSET_strobe (i : Nat) : Fld := ⟨0x48 + 0x4 * i, 4, 6, .rw, 0x6, false⟩
def PXB.TSET_recov (i : Nat) : Fld := ⟨0x48 + 0x4 * i, 0, 4, .rw, 0x2, false⟩
def PXB.PXM_CFG_t_pxr_us : Fld := ⟨0x58, 0, 4, .rw, 0x2, false⟩
def PXB.WIN_CFG_en (i : Nat) : Fld := ⟨0x60 + 0x10 * i, 31, 1, .rw, 0x0, false⟩
def PXB.WIN_CFG_dir (i : Nat) : Fld := ⟨0x60 + 0x10 * i, 30, 1, .rw, 0x0, false⟩
def PXB.WIN_CFG_lane (i : Nat) : Fld := ⟨0x60 + 0x10 * i, 29, 1, .rw, 0x0, false⟩
def PXB.WIN_CFG_wc (i : Nat) : Fld := ⟨0x60 + 0x10 * i, 28, 1, .rw, 0x0, false⟩
def PXB.WIN_CFG_tset (i : Nat) : Fld := ⟨0x60 + 0x10 * i, 24, 2, .rw, 0x0, false⟩
def PXB.WIN_CFG_size (i : Nat) : Fld := ⟨0x60 + 0x10 * i, 16, 5, .rw, 0xc, false⟩
def PXB.WIN_CFG_tunnel (i : Nat) : Fld := ⟨0x60 + 0x10 * i, 0, 12, .rw, 0x0, false⟩
def PXB.WIN_PX_pxbase (i : Nat) : Fld := ⟨0x64 + 0x10 * i, 0, 24, .rw, 0x0, false⟩
def PXB.WIN_TLO_tbase_lo (i : Nat) : Fld := ⟨0x68 + 0x10 * i, 0, 32, .rw, 0x0, false⟩
def PXB.WIN_THI_tbase_hi (i : Nat) : Fld := ⟨0x6c + 0x10 * i, 0, 32, .rw, 0x0, false⟩
def PXB.PX_CNT0_cycles : Fld := ⟨0xe0, 0, 32, .rc, 0x0, false⟩
def PXB.PX_CNT1_px_tmo : Fld := ⟨0xe4, 16, 16, .rc, 0x0, false⟩
def PXB.PX_CNT1_master_retries : Fld := ⟨0xe4, 0, 16, .rc, 0x0, false⟩
def PXB.PX_CNT2_window_miss : Fld := ⟨0xe8, 16, 16, .rc, 0x0, false⟩
def PXB.PX_CNT2_crossings : Fld := ⟨0xe8, 0, 16, .rc, 0x0, false⟩
/-- The block registers of the page type PXB. -/
def PXB.rows : List FRow :=
  [⟨PXB.PX_CFG_en, 4, 1⟩, ⟨PXB.PX_CFG_ext_en, 4, 1⟩, ⟨PXB.PX_STAT_owner, 4, 1⟩, ⟨PXB.TSET_rdy_max_us 0, 0x4, 4⟩, ⟨PXB.TSET_ale_w 0, 0x4, 4⟩, ⟨PXB.TSET_adr_hold 0, 0x4, 4⟩, ⟨PXB.TSET_strobe 0, 0x4, 4⟩, ⟨PXB.TSET_recov 0, 0x4, 4⟩, ⟨PXB.PXM_CFG_t_pxr_us, 4, 1⟩, ⟨PXB.WIN_CFG_en 0, 0x10, 8⟩, ⟨PXB.WIN_CFG_dir 0, 0x10, 8⟩, ⟨PXB.WIN_CFG_lane 0, 0x10, 8⟩, ⟨PXB.WIN_CFG_wc 0, 0x10, 8⟩, ⟨PXB.WIN_CFG_tset 0, 0x10, 8⟩, ⟨PXB.WIN_CFG_size 0, 0x10, 8⟩, ⟨PXB.WIN_CFG_tunnel 0, 0x10, 8⟩, ⟨PXB.WIN_PX_pxbase 0, 0x10, 8⟩, ⟨PXB.WIN_TLO_tbase_lo 0, 0x10, 8⟩, ⟨PXB.WIN_THI_tbase_hi 0, 0x10, 8⟩, ⟨PXB.PX_CNT0_cycles, 4, 1⟩, ⟨PXB.PX_CNT1_px_tmo, 4, 1⟩, ⟨PXB.PX_CNT1_master_retries, 4, 1⟩, ⟨PXB.PX_CNT2_window_miss, 4, 1⟩, ⟨PXB.PX_CNT2_crossings, 4, 1⟩]

/-! ### ERL (R208) -/
def ERL.ERL_STAT_held : Fld := ⟨0x40, 16, 7, .ro, 0x0, false⟩
def ERL.ERL_STAT_next_seq : Fld := ⟨0x40, 0, 16, .ro, 0x0, false⟩
def ERL.ERL_LOST_lost : Fld := ⟨0x44, 0, 16, .rc, 0x0, false⟩
def ERL.ERL_SEL_idx : Fld := ⟨0x48, 0, 6, .rw, 0x0, false⟩
def ERL.ERL_DATA_data (i : Nat) : Fld := ⟨0x4c + 0x4 * i, 0, 32, .ro, 0x0, false⟩
def ERL.ERL_CLR_clr : Fld := ⟨0x6c, 0, 1, .wo, 0x0, true⟩
/-- The block registers of the page type ERL. -/
def ERL.rows : List FRow :=
  [⟨ERL.ERL_STAT_held, 4, 1⟩, ⟨ERL.ERL_STAT_next_seq, 4, 1⟩, ⟨ERL.ERL_LOST_lost, 4, 1⟩, ⟨ERL.ERL_SEL_idx, 4, 1⟩, ⟨ERL.ERL_DATA_data 0, 0x4, 8⟩, ⟨ERL.ERL_CLR_clr, 4, 1⟩]

/-! ### VHG (R232) -/
def VHG.VHG_CFG_tun_base : Fld := ⟨0x40, 16, 12, .rw, 0x10, false⟩
def VHG.VHG_CFG_tun_limit : Fld := ⟨0x40, 0, 12, .rw, 0xfff, false⟩
def VHG.VHG_CMD_go : Fld := ⟨0x44, 31, 1, .wo, 0x0, true⟩
def VHG.VHG_CMD_op : Fld := ⟨0x44, 24, 4, .rw, 0x0, false⟩
def VHG.VHG_CMD_vhc : Fld := ⟨0x44, 16, 6, .rw, 0x0, false⟩
def VHG.VHG_CMD_func : Fld := ⟨0x44, 8, 4, .rw, 0x0, false⟩
def VHG.VHG_CMD_ctx_load : Fld := ⟨0x44, 1, 1, .rw, 0x0, false⟩
def VHG.VHG_CMD_snapshot : Fld := ⟨0x44, 0, 1, .rw, 0x0, false⟩
def VHG.VHG_ARG_arg (i : Nat) : Fld := ⟨0x48 + 0x4 * i, 0, 32, .rw, 0x0, false⟩
def VHG.VHG_STAT_busy : Fld := ⟨0x58, 31, 1, .ro, 0x0, false⟩
def VHG.VHG_STAT_result : Fld := ⟨0x58, 8, 8, .ro, 0x0, false⟩
def VHG.VHG_STAT_vhc : Fld := ⟨0x58, 0, 6, .ro, 0x0, false⟩
def VHG.VHG_POOL0_tun_free_c0 : Fld := ⟨0x5c, 16, 13, .ro, 0xff0, false⟩
def VHG.VHG_POOL0_tun_free_c1 : Fld := ⟨0x5c, 0, 13, .ro, 0xff0, false⟩
def VHG.VHG_POOL1_tags_free : Fld := ⟨0x60, 16, 13, .ro, 0x1000, false⟩
def VHG.VHG_POOL1_vhc_free : Fld := ⟨0x60, 0, 7, .ro, 0x40, false⟩
def VHG.EVD_CNT_delivered : Fld := ⟨0x64, 16, 16, .rc, 0x0, false⟩
def VHG.EVD_CNT_dropped : Fld := ⟨0x64, 0, 16, .rc, 0x0, false⟩
def VHG.GEN_CNT_stale_err : Fld := ⟨0x68, 16, 16, .rc, 0x0, false⟩
def VHG.GEN_CNT_gen_nak : Fld := ⟨0x68, 0, 16, .rc, 0x0, false⟩
def VHG.IMG_NEED_img_need : Fld := ⟨0x6c, 0, 20, .ro, 0x0, false⟩
/-- The block registers of the page type VHG. -/
def VHG.rows : List FRow :=
  [⟨VHG.VHG_CFG_tun_base, 4, 1⟩, ⟨VHG.VHG_CFG_tun_limit, 4, 1⟩, ⟨VHG.VHG_CMD_go, 4, 1⟩, ⟨VHG.VHG_CMD_op, 4, 1⟩, ⟨VHG.VHG_CMD_vhc, 4, 1⟩, ⟨VHG.VHG_CMD_func, 4, 1⟩, ⟨VHG.VHG_CMD_ctx_load, 4, 1⟩, ⟨VHG.VHG_CMD_snapshot, 4, 1⟩, ⟨VHG.VHG_ARG_arg 0, 0x4, 4⟩, ⟨VHG.VHG_STAT_busy, 4, 1⟩, ⟨VHG.VHG_STAT_result, 4, 1⟩, ⟨VHG.VHG_STAT_vhc, 4, 1⟩, ⟨VHG.VHG_POOL0_tun_free_c0, 4, 1⟩, ⟨VHG.VHG_POOL0_tun_free_c1, 4, 1⟩, ⟨VHG.VHG_POOL1_tags_free, 4, 1⟩, ⟨VHG.VHG_POOL1_vhc_free, 4, 1⟩, ⟨VHG.EVD_CNT_delivered, 4, 1⟩, ⟨VHG.EVD_CNT_dropped, 4, 1⟩, ⟨VHG.GEN_CNT_stale_err, 4, 1⟩, ⟨VHG.GEN_CNT_gen_nak, 4, 1⟩, ⟨VHG.IMG_NEED_img_need, 4, 1⟩]

/-! ### VHC (R233) -/
def VHC.VHC_STAT_state : Fld := ⟨0x40, 28, 4, .ro, 0x0, false⟩
def VHC.VHC_STAT_gen : Fld := ⟨0x40, 16, 8, .ro, 0x0, false⟩
def VHC.OUTST_host_np : Fld := ⟨0x44, 16, 13, .ro, 0x0, false⟩
def VHC.OUTST_dev_np : Fld := ⟨0x44, 0, 13, .ro, 0x0, false⟩
def VHC.VHC_LIM_rd_lim_ms : Fld := ⟨0x48, 0, 10, .rw, 0x14, false⟩
def VHC.WR_ERR_set : Fld := ⟨0x4c, 31, 1, .w1c, 0x0, false⟩
def VHC.WR_ERR_func : Fld := ⟨0x4c, 0, 4, .ro, 0x0, false⟩
def VHC.EQ_LO_eq_lo : Fld := ⟨0x50, 5, 27, .rw, 0x0, false⟩
def VHC.EQ_HI_eq_hi : Fld := ⟨0x54, 0, 32, .rw, 0x0, false⟩
def VHC.EQ_CFG_en : Fld := ⟨0x58, 31, 1, .rw, 0x0, true⟩
def VHC.EQ_CFG_size : Fld := ⟨0x58, 16, 4, .rw, 0x4, true⟩
def VHC.EQ_CFG_vector : Fld := ⟨0x58, 0, 6, .rw, 0x0, true⟩
def VHC.EQ_TAIL_tail : Fld := ⟨0x5c, 0, 12, .ro, 0x0, false⟩
def VHC.EQ_HEAD_head : Fld := ⟨0x60, 0, 12, .rw, 0x0, false⟩
def VHC.EQ_CNT_entries : Fld := ⟨0x64, 16, 16, .rc, 0x0, false⟩
def VHC.EQ_CNT_overflow : Fld := ⟨0x64, 0, 16, .rc, 0x0, false⟩
def VHC.IMG_LO_img_lo : Fld := ⟨0x68, 0, 32, .ro, 0x0, false⟩
def VHC.IMG_HI_img_hi : Fld := ⟨0x6c, 0, 32, .ro, 0x0, false⟩
def VHC.IMG_LEN_img_len : Fld := ⟨0x70, 0, 20, .ro, 0x0, false⟩
def VHC.DRAIN_t_drain : Fld := ⟨0x74, 16, 16, .ro, 0x0, false⟩
def VHC.DRAIN_missing : Fld := ⟨0x74, 15, 1, .ro, 0x0, false⟩
def VHC.DRAIN_chain : Fld := ⟨0x74, 8, 1, .ro, 0x0, false⟩
def VHC.DRAIN_hub : Fld := ⟨0x74, 0, 6, .ro, 0x0, false⟩
def VHC.UR_CNT_ur : Fld := ⟨0x78, 0, 16, .rc, 0x0, false⟩
def VHC.DIR_CFG_cfg (i : Nat) : Fld := ⟨0x100 + 0x10 * i, 0, 32, .ro, 0x0, false⟩
def VHC.DIR_TUN_tun (i : Nat) : Fld := ⟨0x104 + 0x10 * i, 0, 32, .ro, 0x0, false⟩
def VHC.DIR_AUX_aux (i : Nat) : Fld := ⟨0x108 + 0x10 * i, 0, 32, .ro, 0x0, false⟩
def VHC.DIR_APER_aper (i : Nat) : Fld := ⟨0x10c + 0x10 * i, 0, 32, .ro, 0x0, false⟩
/-- The block registers of the page type VHC. -/
def VHC.rows : List FRow :=
  [⟨VHC.VHC_STAT_state, 4, 1⟩, ⟨VHC.VHC_STAT_gen, 4, 1⟩, ⟨VHC.OUTST_host_np, 4, 1⟩, ⟨VHC.OUTST_dev_np, 4, 1⟩, ⟨VHC.VHC_LIM_rd_lim_ms, 4, 1⟩, ⟨VHC.WR_ERR_set, 4, 1⟩, ⟨VHC.WR_ERR_func, 4, 1⟩, ⟨VHC.EQ_LO_eq_lo, 4, 1⟩, ⟨VHC.EQ_HI_eq_hi, 4, 1⟩, ⟨VHC.EQ_CFG_en, 4, 1⟩, ⟨VHC.EQ_CFG_size, 4, 1⟩, ⟨VHC.EQ_CFG_vector, 4, 1⟩, ⟨VHC.EQ_TAIL_tail, 4, 1⟩, ⟨VHC.EQ_HEAD_head, 4, 1⟩, ⟨VHC.EQ_CNT_entries, 4, 1⟩, ⟨VHC.EQ_CNT_overflow, 4, 1⟩, ⟨VHC.IMG_LO_img_lo, 4, 1⟩, ⟨VHC.IMG_HI_img_hi, 4, 1⟩, ⟨VHC.IMG_LEN_img_len, 4, 1⟩, ⟨VHC.DRAIN_t_drain, 4, 1⟩, ⟨VHC.DRAIN_missing, 4, 1⟩, ⟨VHC.DRAIN_chain, 4, 1⟩, ⟨VHC.DRAIN_hub, 4, 1⟩, ⟨VHC.UR_CNT_ur, 4, 1⟩, ⟨VHC.DIR_CFG_cfg 0, 0x10, 16⟩, ⟨VHC.DIR_TUN_tun 0, 0x10, 16⟩, ⟨VHC.DIR_AUX_aux 0, 0x10, 16⟩, ⟨VHC.DIR_APER_aper 0, 0x10, 16⟩]

/-! ### PR (R258) -/
def PR.PR_BASE_LO_base_lo : Fld := ⟨0x0, 6, 26, .rw, 0x0, false⟩
def PR.PR_BASE_HI_base_hi : Fld := ⟨0x4, 0, 32, .rw, 0x0, false⟩
def PR.PR_CFG_en : Fld := ⟨0x8, 31, 1, .rw, 0x0, true⟩
def PR.PR_CFG_size : Fld := ⟨0x8, 16, 4, .rw, 0x4, true⟩
def PR.PR_CFG_vector : Fld := ⟨0x8, 0, 6, .rw, 0x0, true⟩
def PR.PR_TAIL_tail : Fld := ⟨0xc, 0, 10, .rw, 0x0, true⟩
def PR.PR_HEAD_head : Fld := ⟨0x10, 0, 10, .ro, 0x0, false⟩
def PR.PR_DONE_status : Fld := ⟨0x14, 24, 8, .ro, 0x0, false⟩
def PR.PR_DONE_set : Fld := ⟨0x14, 0, 16, .ro, 0x0, false⟩
def PR.PR_STAT_err : Fld := ⟨0x18, 0, 8, .ro, 0x0, false⟩
def PR.PR_WB_LO_wb_lo : Fld := ⟨0x20, 4, 28, .rw, 0x0, false⟩
def PR.PR_WB_HI_wb_hi : Fld := ⟨0x24, 0, 32, .rw, 0x0, false⟩
def PR.PR_CNT_sets : Fld := ⟨0x28, 16, 16, .rc, 0x0, false⟩
def PR.PR_CNT_failed : Fld := ⟨0x28, 0, 16, .rc, 0x0, false⟩
/-- The block registers of the page type PR. -/
def PR.rows : List FRow :=
  [⟨PR.PR_BASE_LO_base_lo, 4, 1⟩, ⟨PR.PR_BASE_HI_base_hi, 4, 1⟩, ⟨PR.PR_CFG_en, 4, 1⟩, ⟨PR.PR_CFG_size, 4, 1⟩, ⟨PR.PR_CFG_vector, 4, 1⟩, ⟨PR.PR_TAIL_tail, 4, 1⟩, ⟨PR.PR_HEAD_head, 4, 1⟩, ⟨PR.PR_DONE_status, 4, 1⟩, ⟨PR.PR_DONE_set, 4, 1⟩, ⟨PR.PR_STAT_err, 4, 1⟩, ⟨PR.PR_WB_LO_wb_lo, 4, 1⟩, ⟨PR.PR_WB_HI_wb_hi, 4, 1⟩, ⟨PR.PR_CNT_sets, 4, 1⟩, ⟨PR.PR_CNT_failed, 4, 1⟩]

/-! ### ENC (R261) -/
def ENC.ENC_CFG_pipe_en : Fld := ⟨0x40, 0, 4, .rw, 0xf, false⟩
def ENC.BIND_SEL_chain : Fld := ⟨0x44, 16, 1, .rw, 0x0, false⟩
def ENC.BIND_SEL_hub : Fld := ⟨0x44, 8, 6, .rw, 0x0, false⟩
def ENC.BIND_SEL_bay : Fld := ⟨0x44, 0, 2, .rw, 0x0, false⟩
def ENC.BIND_DATA_v : Fld := ⟨0x48, 31, 1, .ro, 0x0, false⟩
def ENC.BIND_DATA_pipe : Fld := ⟨0x48, 28, 2, .ro, 0x0, false⟩
def ENC.BIND_DATA_vhc : Fld := ⟨0x48, 16, 6, .ro, 0x0, false⟩
def ENC.BIND_DATA_sets_q : Fld := ⟨0x48, 0, 16, .ro, 0x0, false⟩
def ENC.PIPE_STAT_busy (i : Nat) : Fld := ⟨0x50 + 0x4 * i, 31, 1, .ro, 0x0, false⟩
def ENC.PIPE_STAT_bound (i : Nat) : Fld := ⟨0x50 + 0x4 * i, 16, 12, .ro, 0x0, false⟩
def ENC.PIPE_STAT_load_pm (i : Nat) : Fld := ⟨0x50 + 0x4 * i, 0, 10, .ro, 0x0, false⟩
def ENC.PIPE_CNT_tiles (i : Nat) : Fld := ⟨0x60 + 0x4 * i, 0, 32, .rc, 0x0, false⟩
def ENC.ENC_LOSSLESS_lossless : Fld := ⟨0x70, 0, 32, .rc, 0x0, false⟩
def ENC.ENC_FIXED_fixed : Fld := ⟨0x74, 0, 32, .rc, 0x0, false⟩
def ENC.ENC_SOLID_solid : Fld := ⟨0x78, 0, 32, .rc, 0x0, false⟩
def ENC.FAIL_CNT_fetch_err : Fld := ⟨0x7c, 16, 16, .rc, 0x0, false⟩
def ENC.FAIL_CNT_bad_rect : Fld := ⟨0x7c, 0, 16, .rc, 0x0, false⟩
/-- The block registers of the page type ENC. -/
def ENC.rows : List FRow :=
  [⟨ENC.ENC_CFG_pipe_en, 4, 1⟩, ⟨ENC.BIND_SEL_chain, 4, 1⟩, ⟨ENC.BIND_SEL_hub, 4, 1⟩, ⟨ENC.BIND_SEL_bay, 4, 1⟩, ⟨ENC.BIND_DATA_v, 4, 1⟩, ⟨ENC.BIND_DATA_pipe, 4, 1⟩, ⟨ENC.BIND_DATA_vhc, 4, 1⟩, ⟨ENC.BIND_DATA_sets_q, 4, 1⟩, ⟨ENC.PIPE_STAT_busy 0, 0x4, 4⟩, ⟨ENC.PIPE_STAT_bound 0, 0x4, 4⟩, ⟨ENC.PIPE_STAT_load_pm 0, 0x4, 4⟩, ⟨ENC.PIPE_CNT_tiles 0, 0x4, 4⟩, ⟨ENC.ENC_LOSSLESS_lossless, 4, 1⟩, ⟨ENC.ENC_FIXED_fixed, 4, 1⟩, ⟨ENC.ENC_SOLID_solid, 4, 1⟩, ⟨ENC.FAIL_CNT_fetch_err, 4, 1⟩, ⟨ENC.FAIL_CNT_bad_rect, 4, 1⟩]

/-! ### LOFT (R260) -/
def LOFT.LOFT_CMD_go : Fld := ⟨0x40, 31, 1, .wo, 0x0, true⟩
def LOFT.LOFT_CMD_op : Fld := ⟨0x40, 24, 4, .rw, 0x0, false⟩
def LOFT.LOFT_CMD_head : Fld := ⟨0x40, 16, 2, .rw, 0x0, false⟩
def LOFT.LOFT_ARG_dbl : Fld := ⟨0x44, 31, 1, .rw, 0x0, false⟩
def LOFT.LOFT_ARG_bpp6 : Fld := ⟨0x44, 30, 1, .rw, 0x0, false⟩
def LOFT.LOFT_ARG_depth10 : Fld := ⟨0x44, 29, 1, .rw, 0x0, false⟩
def LOFT.LOFT_ARG_height_t : Fld := ⟨0x44, 16, 9, .rw, 0x0, false⟩
def LOFT.LOFT_ARG_width_t : Fld := ⟨0x44, 0, 9, .rw, 0x0, false⟩
def LOFT.LOFT_STAT_busy : Fld := ⟨0x48, 31, 1, .ro, 0x0, false⟩
def LOFT.LOFT_STAT_result : Fld := ⟨0x48, 8, 8, .ro, 0x0, false⟩
def LOFT.LOFT_FREE_free : Fld := ⟨0x4c, 0, 9, .ro, 0x180, false⟩
def LOFT.HEAD_CFG_alloc (i : Nat) : Fld := ⟨0x50 + 0x10 * i, 31, 1, .ro, 0x0, false⟩
def LOFT.HEAD_CFG_depth10 (i : Nat) : Fld := ⟨0x50 + 0x10 * i, 28, 1, .ro, 0x0, false⟩
def LOFT.HEAD_CFG_bpp6 (i : Nat) : Fld := ⟨0x50 + 0x10 * i, 29, 1, .ro, 0x0, false⟩
def LOFT.HEAD_CFG_dbl (i : Nat) : Fld := ⟨0x50 + 0x10 * i, 30, 1, .ro, 0x0, false⟩
def LOFT.HEAD_CFG_height_t (i : Nat) : Fld := ⟨0x50 + 0x10 * i, 16, 9, .ro, 0x0, false⟩
def LOFT.HEAD_CFG_width_t (i : Nat) : Fld := ⟨0x50 + 0x10 * i, 0, 9, .ro, 0x0, false⟩
def LOFT.HEAD_GRAN_gran (i : Nat) : Fld := ⟨0x54 + 0x10 * i, 0, 9, .ro, 0x0, false⟩
def LOFT.HEAD_FRONT_flips (i : Nat) : Fld := ⟨0x58 + 0x10 * i, 16, 16, .rc, 0x0, false⟩
def LOFT.HEAD_FRONT_front (i : Nat) : Fld := ⟨0x58 + 0x10 * i, 0, 1, .ro, 0x0, false⟩
def LOFT.LOFT_CNT_dec_err : Fld := ⟨0x90, 16, 16, .rc, 0x0, false⟩
def LOFT.LOFT_CNT_ecc_corr : Fld := ⟨0x90, 0, 16, .rc, 0x0, false⟩
def LOFT.LOFT_CNT1_ecc_unc : Fld := ⟨0x94, 0, 16, .rc, 0x0, false⟩
def LOFT.GMAP_owner (i : Nat) : Fld := ⟨0x100 + 0x4 * i, 0, 32, .ro, 0x0, false⟩
/-- The block registers of the page type LOFT. -/
def LOFT.rows : List FRow :=
  [⟨LOFT.LOFT_CMD_go, 4, 1⟩, ⟨LOFT.LOFT_CMD_op, 4, 1⟩, ⟨LOFT.LOFT_CMD_head, 4, 1⟩, ⟨LOFT.LOFT_ARG_dbl, 4, 1⟩, ⟨LOFT.LOFT_ARG_bpp6, 4, 1⟩, ⟨LOFT.LOFT_ARG_depth10, 4, 1⟩, ⟨LOFT.LOFT_ARG_height_t, 4, 1⟩, ⟨LOFT.LOFT_ARG_width_t, 4, 1⟩, ⟨LOFT.LOFT_STAT_busy, 4, 1⟩, ⟨LOFT.LOFT_STAT_result, 4, 1⟩, ⟨LOFT.LOFT_FREE_free, 4, 1⟩, ⟨LOFT.HEAD_CFG_alloc 0, 0x10, 4⟩, ⟨LOFT.HEAD_CFG_depth10 0, 0x10, 4⟩, ⟨LOFT.HEAD_CFG_bpp6 0, 0x10, 4⟩, ⟨LOFT.HEAD_CFG_dbl 0, 0x10, 4⟩, ⟨LOFT.HEAD_CFG_height_t 0, 0x10, 4⟩, ⟨LOFT.HEAD_CFG_width_t 0, 0x10, 4⟩, ⟨LOFT.HEAD_GRAN_gran 0, 0x10, 4⟩, ⟨LOFT.HEAD_FRONT_flips 0, 0x10, 4⟩, ⟨LOFT.HEAD_FRONT_front 0, 0x10, 4⟩, ⟨LOFT.LOFT_CNT_dec_err, 4, 1⟩, ⟨LOFT.LOFT_CNT_ecc_corr, 4, 1⟩, ⟨LOFT.LOFT_CNT1_ecc_unc, 4, 1⟩, ⟨LOFT.GMAP_owner 0, 0x4, 48⟩]

/-! ### STG (R259) -/
def STG.STG_STAT_bank0 : Fld := ⟨0x40, 30, 2, .ro, 0x0, false⟩
def STG.STG_STAT_bank1 : Fld := ⟨0x40, 28, 2, .ro, 0x0, false⟩
def STG.STG_STAT_fill : Fld := ⟨0x40, 27, 1, .ro, 0x0, false⟩
def STG.STG_STAT_tiles : Fld := ⟨0x40, 0, 11, .ro, 0x0, false⟩
def STG.STG_SET_set : Fld := ⟨0x44, 16, 16, .ro, 0x0, false⟩
def STG.STG_SET_subset : Fld := ⟨0x44, 8, 8, .ro, 0x0, false⟩
def STG.STG_SET_cause : Fld := ⟨0x44, 0, 8, .ro, 0x0, false⟩
def STG.STG_CNT0_commits : Fld := ⟨0x48, 16, 16, .rc, 0x0, false⟩
def STG.STG_CNT0_drops : Fld := ⟨0x48, 0, 16, .rc, 0x0, false⟩
def STG.STG_CNT1_waits : Fld := ⟨0x4c, 16, 16, .rc, 0x0, false⟩
def STG.STG_CNT1_discards : Fld := ⟨0x4c, 0, 16, .rc, 0x0, false⟩
def STG.STG_CFG_set_tmo_ms : Fld := ⟨0x50, 0, 10, .rw, 0xa, false⟩
/-- The block registers of the page type STG. -/
def STG.rows : List FRow :=
  [⟨STG.STG_STAT_bank0, 4, 1⟩, ⟨STG.STG_STAT_bank1, 4, 1⟩, ⟨STG.STG_STAT_fill, 4, 1⟩, ⟨STG.STG_STAT_tiles, 4, 1⟩, ⟨STG.STG_SET_set, 4, 1⟩, ⟨STG.STG_SET_subset, 4, 1⟩, ⟨STG.STG_SET_cause, 4, 1⟩, ⟨STG.STG_CNT0_commits, 4, 1⟩, ⟨STG.STG_CNT0_drops, 4, 1⟩, ⟨STG.STG_CNT1_waits, 4, 1⟩, ⟨STG.STG_CNT1_discards, 4, 1⟩, ⟨STG.STG_CFG_set_tmo_ms, 4, 1⟩]

/-! ### DISP (R285) -/
def DISP.DISP_CTL_run : Fld := ⟨0x40, 31, 1, .rw, 0x0, true⟩
def DISP.DISP_CTL_retrain : Fld := ⟨0x40, 1, 1, .wo, 0x0, true⟩
def DISP.DISP_CTL_edid_read : Fld := ⟨0x40, 0, 1, .wo, 0x0, true⟩
def DISP.DISP_STAT_running : Fld := ⟨0x44, 31, 1, .ro, 0x0, false⟩
def DISP.DISP_STAT_sink : Fld := ⟨0x44, 30, 1, .ro, 0x0, false⟩
def DISP.DISP_STAT_link_up : Fld := ⟨0x44, 29, 1, .ro, 0x0, false⟩
def DISP.DISP_STAT_locked : Fld := ⟨0x44, 28, 1, .ro, 0x0, false⟩
def DISP.DISP_STAT_tmds : Fld := ⟨0x44, 27, 1, .ro, 0x0, false⟩
def DISP.DISP_STAT_lanes : Fld := ⟨0x44, 24, 3, .ro, 0x0, false⟩
def DISP.DISP_STAT_rate : Fld := ⟨0x44, 20, 4, .ro, 0x0, false⟩
def DISP.DISP_STAT_refuse : Fld := ⟨0x44, 8, 8, .ro, 0x0, false⟩
def DISP.DISP_STAT_lt_cause : Fld := ⟨0x44, 0, 8, .ro, 0x0, false⟩
def DISP.H_TIM0_h_active : Fld := ⟨0x48, 16, 14, .rw, 0x780, false⟩
def DISP.H_TIM0_h_total : Fld := ⟨0x48, 0, 14, .rw, 0x898, false⟩
def DISP.H_TIM1_h_pol : Fld := ⟨0x4c, 31, 1, .rw, 0x1, false⟩
def DISP.H_TIM1_h_front : Fld := ⟨0x4c, 16, 14, .rw, 0x58, false⟩
def DISP.H_TIM1_h_sync : Fld := ⟨0x4c, 0, 14, .rw, 0x2c, false⟩
def DISP.V_TIM0_v_active : Fld := ⟨0x50, 16, 14, .rw, 0x438, false⟩
def DISP.V_TIM0_v_total : Fld := ⟨0x50, 0, 14, .rw, 0x465, false⟩
def DISP.V_TIM1_v_pol : Fld := ⟨0x54, 31, 1, .rw, 0x1, false⟩
def DISP.V_TIM1_v_front : Fld := ⟨0x54, 16, 14, .rw, 0x4, false⟩
def DISP.V_TIM1_v_sync : Fld := ⟨0x54, 0, 14, .rw, 0x5, false⟩
def DISP.PCLK_div_int : Fld := ⟨0x58, 24, 8, .rw, 0x19, false⟩
def DISP.PCLK_div_frac : Fld := ⟨0x58, 0, 24, .rw, 0xdbcc48, false⟩
def DISP.OUT_CFG_type : Fld := ⟨0x5c, 30, 2, .rw, 0x0, false⟩
def DISP.OUT_CFG_max_rate : Fld := ⟨0x5c, 24, 4, .rw, 0x6, false⟩
def DISP.OUT_CFG_max_lanes : Fld := ⟨0x5c, 20, 2, .rw, 0x2, false⟩
def DISP.OUT_CFG_bpc : Fld := ⟨0x5c, 16, 2, .rw, 0x1, false⟩
def DISP.LOCK_CFG_en : Fld := ⟨0x60, 31, 1, .rw, 0x0, false⟩
def DISP.LOCK_CFG_acq : Fld := ⟨0x60, 30, 1, .rw, 0x1, false⟩
def DISP.LOCK_CFG_hold : Fld := ⟨0x60, 29, 1, .rw, 0x0, false⟩
def DISP.LOCK_CFG_trim_max : Fld := ⟨0x60, 0, 8, .rw, 0x32, false⟩
def DISP.LOCK_RATE_num : Fld := ⟨0x64, 16, 16, .rw, 0x3c, false⟩
def DISP.LOCK_RATE_den : Fld := ⟨0x64, 0, 16, .rw, 0x1, false⟩
def DISP.LOCK_PHASE_phase : Fld := ⟨0x68, 0, 32, .rw, 0x0, false⟩
def DISP.LOCK_STAT_err_ns : Fld := ⟨0x6c, 0, 32, .ro, 0x0, false⟩
def DISP.TRIM_pin : Fld := ⟨0x70, 31, 1, .w1c, 0x0, false⟩
def DISP.TRIM_trim : Fld := ⟨0x70, 0, 16, .rw, 0x0, true⟩
def DISP.FRAME_frame : Fld := ⟨0x74, 0, 32, .roc, 0x0, false⟩
def DISP.FRAME_T_LO_t_lo : Fld := ⟨0x78, 0, 32, .ro, 0x0, false⟩
def DISP.FRAME_T_HI_t_hi : Fld := ⟨0x7c, 0, 32, .ro, 0x0, false⟩
def DISP.HPD_CFG_plug_ms : Fld := ⟨0x80, 0, 8, .rw, 0x64, false⟩
def DISP.EDID_STAT_valid : Fld := ⟨0x84, 31, 1, .ro, 0x0, false⟩
def DISP.EDID_STAT_blocks : Fld := ⟨0x84, 0, 3, .ro, 0x0, false⟩
def DISP.DISP_CNT_trainings : Fld := ⟨0x88, 16, 16, .rc, 0x0, false⟩
def DISP.DISP_CNT_hpd_irqs : Fld := ⟨0x88, 0, 16, .rc, 0x0, false⟩
def DISP.EDID_edid (i : Nat) : Fld := ⟨0x200 + 0x4 * i, 0, 32, .ro, 0x0, false⟩
/-- The block registers of the page type DISP. -/
def DISP.rows : List FRow :=
  [⟨DISP.DISP_CTL_run, 4, 1⟩, ⟨DISP.DISP_CTL_retrain, 4, 1⟩, ⟨DISP.DISP_CTL_edid_read, 4, 1⟩, ⟨DISP.DISP_STAT_running, 4, 1⟩, ⟨DISP.DISP_STAT_sink, 4, 1⟩, ⟨DISP.DISP_STAT_link_up, 4, 1⟩, ⟨DISP.DISP_STAT_locked, 4, 1⟩, ⟨DISP.DISP_STAT_tmds, 4, 1⟩, ⟨DISP.DISP_STAT_lanes, 4, 1⟩, ⟨DISP.DISP_STAT_rate, 4, 1⟩, ⟨DISP.DISP_STAT_refuse, 4, 1⟩, ⟨DISP.DISP_STAT_lt_cause, 4, 1⟩, ⟨DISP.H_TIM0_h_active, 4, 1⟩, ⟨DISP.H_TIM0_h_total, 4, 1⟩, ⟨DISP.H_TIM1_h_pol, 4, 1⟩, ⟨DISP.H_TIM1_h_front, 4, 1⟩, ⟨DISP.H_TIM1_h_sync, 4, 1⟩, ⟨DISP.V_TIM0_v_active, 4, 1⟩, ⟨DISP.V_TIM0_v_total, 4, 1⟩, ⟨DISP.V_TIM1_v_pol, 4, 1⟩, ⟨DISP.V_TIM1_v_front, 4, 1⟩, ⟨DISP.V_TIM1_v_sync, 4, 1⟩, ⟨DISP.PCLK_div_int, 4, 1⟩, ⟨DISP.PCLK_div_frac, 4, 1⟩, ⟨DISP.OUT_CFG_type, 4, 1⟩, ⟨DISP.OUT_CFG_max_rate, 4, 1⟩, ⟨DISP.OUT_CFG_max_lanes, 4, 1⟩, ⟨DISP.OUT_CFG_bpc, 4, 1⟩, ⟨DISP.LOCK_CFG_en, 4, 1⟩, ⟨DISP.LOCK_CFG_acq, 4, 1⟩, ⟨DISP.LOCK_CFG_hold, 4, 1⟩, ⟨DISP.LOCK_CFG_trim_max, 4, 1⟩, ⟨DISP.LOCK_RATE_num, 4, 1⟩, ⟨DISP.LOCK_RATE_den, 4, 1⟩, ⟨DISP.LOCK_PHASE_phase, 4, 1⟩, ⟨DISP.LOCK_STAT_err_ns, 4, 1⟩, ⟨DISP.TRIM_pin, 4, 1⟩, ⟨DISP.TRIM_trim, 4, 1⟩, ⟨DISP.FRAME_frame, 4, 1⟩, ⟨DISP.FRAME_T_LO_t_lo, 4, 1⟩] ++
  [⟨DISP.FRAME_T_HI_t_hi, 4, 1⟩, ⟨DISP.HPD_CFG_plug_ms, 4, 1⟩, ⟨DISP.EDID_STAT_valid, 4, 1⟩, ⟨DISP.EDID_STAT_blocks, 4, 1⟩, ⟨DISP.DISP_CNT_trainings, 4, 1⟩, ⟨DISP.DISP_CNT_hpd_irqs, 4, 1⟩, ⟨DISP.EDID_edid 0, 0x4, 128⟩]

/-! ### FRZ (R286) -/
def FRZ.FRZ_CFG_en : Fld := ⟨0x40, 31, 1, .rw, 0x1, false⟩
def FRZ.FRZ_CFG_anim : Fld := ⟨0x40, 8, 1, .rw, 0x1, false⟩
def FRZ.FRZ_CFG_hatch_w : Fld := ⟨0x40, 0, 4, .rw, 0x4, false⟩
def FRZ.HATCH_A_hatch_a : Fld := ⟨0x44, 0, 30, .rw, 0x3ff00000, false⟩
def FRZ.HATCH_B_hatch_b : Fld := ⟨0x48, 0, 30, .rw, 0x0, false⟩
def FRZ.BLANK_blank : Fld := ⟨0x4c, 0, 30, .rw, 0x0, false⟩
def FRZ.WD_CFG_en : Fld := ⟨0x50, 31, 1, .rw, 0x0, false⟩
def FRZ.WD_CFG_latch : Fld := ⟨0x50, 30, 1, .rw, 0x0, false⟩
def FRZ.WD_CFG_act : Fld := ⟨0x50, 28, 2, .rw, 0x2, false⟩
def FRZ.WD_CFG_wd_ms : Fld := ⟨0x50, 0, 16, .rw, 0x3e8, false⟩
def FRZ.WD_STAT_viol : Fld := ⟨0x54, 31, 1, .ro, 0x0, false⟩
def FRZ.WD_STAT_ms : Fld := ⟨0x54, 0, 16, .ro, 0x0, false⟩
def FRZ.FRZ_STAT_acting : Fld := ⟨0x58, 16, 1, .ro, 0x0, false⟩
def FRZ.FRZ_STAT_wd : Fld := ⟨0x58, 8, 1, .ro, 0x0, false⟩
def FRZ.FRZ_STAT_viol : Fld := ⟨0x58, 0, 8, .ro, 0x0, false⟩
def FRZ.FRZ_CLR_wd : Fld := ⟨0x5c, 8, 1, .wo, 0x0, true⟩
def FRZ.FRZ_CLR_win : Fld := ⟨0x5c, 0, 8, .wo, 0x0, true⟩
def FRZ.FRZ_CNT_violations : Fld := ⟨0x60, 16, 16, .rc, 0x0, false⟩
def FRZ.FRZ_CNT_marked : Fld := ⟨0x60, 0, 16, .rc, 0x0, false⟩
def FRZ.WIN_CFG_mode (i : Nat) : Fld := ⟨0x80 + 0x20 * i, 30, 2, .rw, 0x0, true⟩
def FRZ.WIN_CFG_act (i : Nat) : Fld := ⟨0x80 + 0x20 * i, 28, 2, .rw, 0x0, true⟩
def FRZ.WIN_CFG_scope (i : Nat) : Fld := ⟨0x80 + 0x20 * i, 27, 1, .rw, 0x0, true⟩
def FRZ.WIN_CFG_latch (i : Nat) : Fld := ⟨0x80 + 0x20 * i, 26, 1, .rw, 0x0, true⟩
def FRZ.WIN_CFG_capture (i : Nat) : Fld := ⟨0x80 + 0x20 * i, 25, 1, .wo, 0x0, true⟩
def FRZ.WIN_CFG_n (i : Nat) : Fld := ⟨0x80 + 0x20 * i, 0, 8, .rw, 0x1e, true⟩
def FRZ.WIN_X_x1 (i : Nat) : Fld := ⟨0x84 + 0x20 * i, 16, 13, .rw, 0x0, true⟩
def FRZ.WIN_X_x0 (i : Nat) : Fld := ⟨0x84 + 0x20 * i, 0, 13, .rw, 0x0, true⟩
def FRZ.WIN_Y_y1 (i : Nat) : Fld := ⟨0x88 + 0x20 * i, 16, 13, .rw, 0x0, true⟩
def FRZ.WIN_Y_y0 (i : Nat) : Fld := ⟨0x88 + 0x20 * i, 0, 13, .rw, 0x0, true⟩
def FRZ.WIN_REF_ref (i : Nat) : Fld := ⟨0x8c + 0x20 * i, 0, 32, .rw, 0x0, false⟩
def FRZ.WIN_SIG_sig (i : Nat) : Fld := ⟨0x90 + 0x20 * i, 0, 32, .ro, 0x0, false⟩
def FRZ.WIN_STAT_viol (i : Nat) : Fld := ⟨0x94 + 0x20 * i, 31, 1, .ro, 0x0, false⟩
def FRZ.WIN_STAT_acting (i : Nat) : Fld := ⟨0x94 + 0x20 * i, 30, 1, .ro, 0x0, false⟩
def FRZ.WIN_STAT_count (i : Nat) : Fld := ⟨0x94 + 0x20 * i, 0, 8, .ro, 0x0, false⟩
def FRZ.WIN_CNT_violations (i : Nat) : Fld := ⟨0x98 + 0x20 * i, 0, 16, .rc, 0x0, false⟩
/-- The block registers of the page type FRZ. -/
def FRZ.rows : List FRow :=
  [⟨FRZ.FRZ_CFG_en, 4, 1⟩, ⟨FRZ.FRZ_CFG_anim, 4, 1⟩, ⟨FRZ.FRZ_CFG_hatch_w, 4, 1⟩, ⟨FRZ.HATCH_A_hatch_a, 4, 1⟩, ⟨FRZ.HATCH_B_hatch_b, 4, 1⟩, ⟨FRZ.BLANK_blank, 4, 1⟩, ⟨FRZ.WD_CFG_en, 4, 1⟩, ⟨FRZ.WD_CFG_latch, 4, 1⟩, ⟨FRZ.WD_CFG_act, 4, 1⟩, ⟨FRZ.WD_CFG_wd_ms, 4, 1⟩, ⟨FRZ.WD_STAT_viol, 4, 1⟩, ⟨FRZ.WD_STAT_ms, 4, 1⟩, ⟨FRZ.FRZ_STAT_acting, 4, 1⟩, ⟨FRZ.FRZ_STAT_wd, 4, 1⟩, ⟨FRZ.FRZ_STAT_viol, 4, 1⟩, ⟨FRZ.FRZ_CLR_wd, 4, 1⟩, ⟨FRZ.FRZ_CLR_win, 4, 1⟩, ⟨FRZ.FRZ_CNT_violations, 4, 1⟩, ⟨FRZ.FRZ_CNT_marked, 4, 1⟩, ⟨FRZ.WIN_CFG_mode 0, 0x20, 8⟩, ⟨FRZ.WIN_CFG_act 0, 0x20, 8⟩, ⟨FRZ.WIN_CFG_scope 0, 0x20, 8⟩, ⟨FRZ.WIN_CFG_latch 0, 0x20, 8⟩, ⟨FRZ.WIN_CFG_capture 0, 0x20, 8⟩, ⟨FRZ.WIN_CFG_n 0, 0x20, 8⟩, ⟨FRZ.WIN_X_x1 0, 0x20, 8⟩, ⟨FRZ.WIN_X_x0 0, 0x20, 8⟩, ⟨FRZ.WIN_Y_y1 0, 0x20, 8⟩, ⟨FRZ.WIN_Y_y0 0, 0x20, 8⟩, ⟨FRZ.WIN_REF_ref 0, 0x20, 8⟩, ⟨FRZ.WIN_SIG_sig 0, 0x20, 8⟩, ⟨FRZ.WIN_STAT_viol 0, 0x20, 8⟩, ⟨FRZ.WIN_STAT_acting 0, 0x20, 8⟩, ⟨FRZ.WIN_STAT_count 0, 0x20, 8⟩, ⟨FRZ.WIN_CNT_violations 0, 0x20, 8⟩]

/-! ### USB (R308) -/
def USB.USB_CFG_lead_us : Fld := ⟨0x40, 16, 13, .rw, 0x1f4, false⟩
def USB.USB_CFG_ack_ms : Fld := ⟨0x40, 8, 4, .rw, 0x4, false⟩
def USB.USB_CFG_p3_en : Fld := ⟨0x40, 1, 1, .rw, 0x1, false⟩
def USB.USB_CFG_ss_en : Fld := ⟨0x40, 0, 1, .rw, 0x1, false⟩
def USB.ISO_STAT_in_bank0 : Fld := ⟨0x44, 30, 2, .ro, 0x0, false⟩
def USB.ISO_STAT_in_bank1 : Fld := ⟨0x44, 28, 2, .ro, 0x0, false⟩
def USB.ISO_STAT_out_bank0 : Fld := ⟨0x44, 26, 2, .ro, 0x0, false⟩
def USB.ISO_STAT_out_bank1 : Fld := ⟨0x44, 24, 2, .ro, 0x0, false⟩
def USB.ISO_STAT_ist : Fld := ⟨0x44, 0, 4, .ro, 0xa, false⟩
def USB.ISO_IVL_interval : Fld := ⟨0x48, 0, 32, .ro, 0x0, false⟩
def USB.ISO_BW_in_bytes : Fld := ⟨0x4c, 16, 14, .ro, 0x0, false⟩
def USB.ISO_BW_out_bytes : Fld := ⟨0x4c, 0, 14, .ro, 0x0, false⟩
def USB.HUB_EXT_rwake_seen : Fld := ⟨0x50, 0, 3, .w1c, 0x0, false⟩
def USB.ISO_CNT0_missed : Fld := ⟨0x54, 16, 16, .rc, 0x0, false⟩
def USB.ISO_CNT0_late : Fld := ⟨0x54, 0, 16, .rc, 0x0, false⟩
def USB.ISO_CNT1_overrun : Fld := ⟨0x58, 16, 16, .rc, 0x0, false⟩
def USB.ISO_CNT1_lost : Fld := ⟨0x58, 0, 16, .rc, 0x0, false⟩
def USB.DMA_CNT_dma_err : Fld := ⟨0x5c, 16, 16, .rc, 0x0, false⟩
def USB.DMA_CNT_np_out : Fld := ⟨0x5c, 0, 16, .ro, 0x0, false⟩
def USB.TT_CNT_tt_clr_p3 : Fld := ⟨0x60, 16, 16, .rc, 0x0, false⟩
def USB.TT_CNT_tt_clr_p2 : Fld := ⟨0x60, 0, 16, .rc, 0x0, false⟩
/-- The block registers of the page type USB. -/
def USB.rows : List FRow :=
  [⟨USB.USB_CFG_lead_us, 4, 1⟩, ⟨USB.USB_CFG_ack_ms, 4, 1⟩, ⟨USB.USB_CFG_p3_en, 4, 1⟩, ⟨USB.USB_CFG_ss_en, 4, 1⟩, ⟨USB.ISO_STAT_in_bank0, 4, 1⟩, ⟨USB.ISO_STAT_in_bank1, 4, 1⟩, ⟨USB.ISO_STAT_out_bank0, 4, 1⟩, ⟨USB.ISO_STAT_out_bank1, 4, 1⟩, ⟨USB.ISO_STAT_ist, 4, 1⟩, ⟨USB.ISO_IVL_interval, 4, 1⟩, ⟨USB.ISO_BW_in_bytes, 4, 1⟩, ⟨USB.ISO_BW_out_bytes, 4, 1⟩, ⟨USB.HUB_EXT_rwake_seen, 4, 1⟩, ⟨USB.ISO_CNT0_missed, 4, 1⟩, ⟨USB.ISO_CNT0_late, 4, 1⟩, ⟨USB.ISO_CNT1_overrun, 4, 1⟩, ⟨USB.ISO_CNT1_lost, 4, 1⟩, ⟨USB.DMA_CNT_dma_err, 4, 1⟩, ⟨USB.DMA_CNT_np_out, 4, 1⟩, ⟨USB.TT_CNT_tt_clr_p3, 4, 1⟩, ⟨USB.TT_CNT_tt_clr_p2, 4, 1⟩]

/-! ### SVC (R309) -/
def SVC.SVC_CFG_attach_src : Fld := ⟨0x40, 1, 2, .rw, 0x1, false⟩
def SVC.SVC_CFG_en : Fld := ⟨0x40, 0, 1, .rw, 0x1, false⟩
def SVC.SVC_STAT_state : Fld := ⟨0x44, 30, 2, .ro, 0x0, false⟩
def SVC.SVC_STAT_suspended : Fld := ⟨0x44, 29, 1, .ro, 0x0, false⟩
def SVC.SVC_STAT_address : Fld := ⟨0x44, 16, 7, .ro, 0x0, false⟩
def SVC.SVC_STAT_speed : Fld := ⟨0x44, 0, 2, .ro, 0x0, false⟩
def SVC.SVC_CNT_resets : Fld := ⟨0x48, 16, 16, .rc, 0x0, false⟩
def SVC.SVC_CNT_aborts : Fld := ⟨0x48, 0, 16, .rc, 0x0, false⟩
def SVC.SVC_CNT1_crc_err : Fld := ⟨0x4c, 16, 16, .rc, 0x0, false⟩
def SVC.SVC_CNT1_stalls : Fld := ⟨0x4c, 0, 16, .rc, 0x0, false⟩
/-- The block registers of the page type SVC. -/
def SVC.rows : List FRow :=
  [⟨SVC.SVC_CFG_attach_src, 4, 1⟩, ⟨SVC.SVC_CFG_en, 4, 1⟩, ⟨SVC.SVC_STAT_state, 4, 1⟩, ⟨SVC.SVC_STAT_suspended, 4, 1⟩, ⟨SVC.SVC_STAT_address, 4, 1⟩, ⟨SVC.SVC_STAT_speed, 4, 1⟩, ⟨SVC.SVC_CNT_resets, 4, 1⟩, ⟨SVC.SVC_CNT_aborts, 4, 1⟩, ⟨SVC.SVC_CNT1_crc_err, 4, 1⟩, ⟨SVC.SVC_CNT1_stalls, 4, 1⟩]

/-! ### NIC (R329) -/
def NIC.NIC_CFG_pcp_map : Fld := ⟨0x0, 16, 16, .rw, 0xfa50, false⟩
def NIC.NIC_CFG_dflt_q : Fld := ⟨0x0, 0, 2, .rw, 0x0, false⟩
def NIC.TX_BASE_LO_base_lo (i : Nat) : Fld := ⟨0x100 + 0x20 * i, 4, 28, .rw, 0x0, true⟩
def NIC.RX_BASE_LO_base_lo (i : Nat) : Fld := ⟨0x200 + 0x20 * i, 4, 28, .rw, 0x0, true⟩
def NIC.TX_BASE_HI_base_hi (i : Nat) : Fld := ⟨0x104 + 0x20 * i, 0, 32, .rw, 0x0, true⟩
def NIC.RX_BASE_HI_base_hi (i : Nat) : Fld := ⟨0x204 + 0x20 * i, 0, 32, .rw, 0x0, true⟩
def NIC.TX_CFG_en (i : Nat) : Fld := ⟨0x108 + 0x20 * i, 31, 1, .rw, 0x0, true⟩
def NIC.RX_CFG_en (i : Nat) : Fld := ⟨0x208 + 0x20 * i, 31, 1, .rw, 0x0, true⟩
def NIC.TX_CFG_size (i : Nat) : Fld := ⟨0x108 + 0x20 * i, 16, 4, .rw, 0x8, true⟩
def NIC.RX_CFG_size (i : Nat) : Fld := ⟨0x208 + 0x20 * i, 16, 4, .rw, 0x8, true⟩
def NIC.TX_CFG_buf (i : Nat) : Fld := ⟨0x108 + 0x20 * i, 8, 5, .rw, 0x2, true⟩
def NIC.RX_CFG_buf (i : Nat) : Fld := ⟨0x208 + 0x20 * i, 8, 5, .rw, 0x2, true⟩
def NIC.TX_CFG_irq_ivl (i : Nat) : Fld := ⟨0x108 + 0x20 * i, 6, 2, .rw, 0x0, true⟩
def NIC.RX_CFG_irq_ivl (i : Nat) : Fld := ⟨0x208 + 0x20 * i, 6, 2, .rw, 0x0, true⟩
def NIC.TX_CFG_vector (i : Nat) : Fld := ⟨0x108 + 0x20 * i, 0, 6, .rw, 0x0, true⟩
def NIC.RX_CFG_vector (i : Nat) : Fld := ⟨0x208 + 0x20 * i, 0, 6, .rw, 0x0, true⟩
def NIC.TX_TAIL_tail (i : Nat) : Fld := ⟨0x10c + 0x20 * i, 0, 12, .rw, 0x0, true⟩
def NIC.RX_TAIL_tail (i : Nat) : Fld := ⟨0x20c + 0x20 * i, 0, 12, .rw, 0x0, false⟩
def NIC.TX_HEAD_head (i : Nat) : Fld := ⟨0x110 + 0x20 * i, 0, 12, .ro, 0x0, false⟩
def NIC.RX_HEAD_head (i : Nat) : Fld := ⟨0x210 + 0x20 * i, 0, 12, .ro, 0x0, false⟩
def NIC.TX_CNT_frames (i : Nat) : Fld := ⟨0x114 + 0x20 * i, 16, 16, .rc, 0x0, false⟩
def NIC.RX_CNT_frames (i : Nat) : Fld := ⟨0x214 + 0x20 * i, 16, 16, .rc, 0x0, false⟩
def NIC.TX_CNT_drops (i : Nat) : Fld := ⟨0x114 + 0x20 * i, 0, 16, .rc, 0x0, false⟩
def NIC.RX_CNT_drops (i : Nat) : Fld := ⟨0x214 + 0x20 * i, 0, 16, .rc, 0x0, false⟩
/-- The block registers of the page type NIC. -/
def NIC.rows : List FRow :=
  [⟨NIC.NIC_CFG_pcp_map, 4, 1⟩, ⟨NIC.NIC_CFG_dflt_q, 4, 1⟩, ⟨NIC.TX_BASE_LO_base_lo 0, 0x20, 4⟩, ⟨NIC.RX_BASE_LO_base_lo 0, 0x20, 4⟩, ⟨NIC.TX_BASE_HI_base_hi 0, 0x20, 4⟩, ⟨NIC.RX_BASE_HI_base_hi 0, 0x20, 4⟩, ⟨NIC.TX_CFG_en 0, 0x20, 4⟩, ⟨NIC.RX_CFG_en 0, 0x20, 4⟩, ⟨NIC.TX_CFG_size 0, 0x20, 4⟩, ⟨NIC.RX_CFG_size 0, 0x20, 4⟩, ⟨NIC.TX_CFG_buf 0, 0x20, 4⟩, ⟨NIC.RX_CFG_buf 0, 0x20, 4⟩, ⟨NIC.TX_CFG_irq_ivl 0, 0x20, 4⟩, ⟨NIC.RX_CFG_irq_ivl 0, 0x20, 4⟩, ⟨NIC.TX_CFG_vector 0, 0x20, 4⟩, ⟨NIC.RX_CFG_vector 0, 0x20, 4⟩, ⟨NIC.TX_TAIL_tail 0, 0x20, 4⟩, ⟨NIC.RX_TAIL_tail 0, 0x20, 4⟩, ⟨NIC.TX_HEAD_head 0, 0x20, 4⟩, ⟨NIC.RX_HEAD_head 0, 0x20, 4⟩, ⟨NIC.TX_CNT_frames 0, 0x20, 4⟩, ⟨NIC.RX_CNT_frames 0, 0x20, 4⟩, ⟨NIC.TX_CNT_drops 0, 0x20, 4⟩, ⟨NIC.RX_CNT_drops 0, 0x20, 4⟩]

/-! ### ETH (R330) -/
def ETH.MAC_CFG_mode : Fld := ⟨0x40, 29, 3, .rw, 0x0, false⟩
def ETH.MAC_CFG_an_en : Fld := ⟨0x40, 28, 1, .rw, 0x1, false⟩
def ETH.MAC_CFG_promisc : Fld := ⟨0x40, 27, 1, .rw, 0x0, false⟩
def ETH.MAC_CFG_mc_all : Fld := ⟨0x40, 26, 1, .rw, 0x0, false⟩
def ETH.MAC_CFG_vlan_strip : Fld := ⟨0x40, 25, 1, .rw, 0x0, false⟩
def ETH.MAC_CFG_pause_rx : Fld := ⟨0x40, 24, 1, .rw, 0x1, false⟩
def ETH.MAC_CFG_pause_tx : Fld := ⟨0x40, 23, 1, .rw, 0x0, false⟩
def ETH.MAC_CFG_xoff_kib : Fld := ⟨0x40, 16, 5, .rw, 0x18, false⟩
def ETH.MAC_CFG_max_len : Fld := ⟨0x40, 0, 14, .rw, 0x5f2, false⟩
def ETH.MAC_ADDR_LO_mac_lo : Fld := ⟨0x44, 0, 32, .rw, 0x0, false⟩
def ETH.MAC_ADDR_HI_mac_hi : Fld := ⟨0x48, 0, 16, .rw, 0x0, false⟩
def ETH.MAC_STAT_link : Fld := ⟨0x4c, 31, 1, .ro, 0x0, false⟩
def ETH.MAC_STAT_speed : Fld := ⟨0x4c, 16, 2, .ro, 0x0, false⟩
def ETH.TS_CFG_en : Fld := ⟨0x50, 31, 1, .rw, 0x0, false⟩
def ETH.TS_CFG_ts_all : Fld := ⟨0x50, 30, 1, .rw, 0x0, false⟩
def ETH.TS_CFG_ts_tmo_ms : Fld := ⟨0x50, 16, 10, .rw, 0xa, false⟩
def ETH.TS_CFG_rx_adj_ns : Fld := ⟨0x50, 8, 8, .rw, 0x0, false⟩
def ETH.TS_CFG_tx_adj_ns : Fld := ⟨0x50, 0, 8, .rw, 0x0, false⟩
def ETH.MDIO_CMD_go : Fld := ⟨0x54, 31, 1, .wo, 0x0, true⟩
def ETH.MDIO_CMD_c45 : Fld := ⟨0x54, 30, 1, .rw, 0x0, true⟩
def ETH.MDIO_CMD_op : Fld := ⟨0x54, 28, 2, .rw, 0x0, true⟩
def ETH.MDIO_CMD_phy : Fld := ⟨0x54, 21, 5, .rw, 0x0, true⟩
def ETH.MDIO_CMD_reg : Fld := ⟨0x54, 16, 5, .rw, 0x0, true⟩
def ETH.MDIO_CMD_data : Fld := ⟨0x54, 0, 16, .rw, 0x0, true⟩
def ETH.MDIO_STAT_busy : Fld := ⟨0x58, 31, 1, .ro, 0x0, false⟩
def ETH.MDIO_STAT_data : Fld := ⟨0x58, 0, 16, .ro, 0x0, false⟩
def ETH.MDIO_CFG_mdc_div : Fld := ⟨0x5c, 0, 6, .rw, 0x17, false⟩
def ETH.RX_FRAMES_rx_frames : Fld := ⟨0x60, 0, 32, .rc, 0x0, false⟩
def ETH.TX_FRAMES_tx_frames : Fld := ⟨0x64, 0, 32, .rc, 0x0, false⟩
def ETH.ETH_CNT0_rx_fcs : Fld := ⟨0x68, 16, 16, .rc, 0x0, false⟩
def ETH.ETH_CNT0_rx_filt : Fld := ⟨0x68, 0, 16, .rc, 0x0, false⟩
def ETH.ETH_CNT1_rx_ovf : Fld := ⟨0x6c, 16, 16, .rc, 0x0, false⟩
def ETH.ETH_CNT1_tx_nolink : Fld := ⟨0x6c, 0, 16, .rc, 0x0, false⟩
def ETH.ETH_CNT2_tx_long : Fld := ⟨0x70, 16, 16, .rc, 0x0, false⟩
def ETH.ETH_CNT2_tx_abort : Fld := ⟨0x70, 8, 8, .rc, 0x0, false⟩
def ETH.ETH_CNT2_hp_bad : Fld := ⟨0x70, 0, 8, .rc, 0x0, false⟩
def ETH.HP_LO_mac_lo (i : Nat) : Fld := ⟨0x80 + 0x10 * i, 0, 32, .rw, 0x0, false⟩
def ETH.HP_HI_en (i : Nat) : Fld := ⟨0x84 + 0x10 * i, 31, 1, .rw, 0x0, false⟩
def ETH.HP_HI_copy (i : Nat) : Fld := ⟨0x84 + 0x10 * i, 30, 1, .rw, 0x0, false⟩
def ETH.HP_HI_vid_match (i : Nat) : Fld := ⟨0x84 + 0x10 * i, 29, 1, .rw, 0x0, false⟩
def ETH.HP_HI_mac_hi (i : Nat) : Fld := ⟨0x84 + 0x10 * i, 0, 16, .rw, 0x0, false⟩
def ETH.HP_TUN_vid (i : Nat) : Fld := ⟨0x88 + 0x10 * i, 16, 12, .rw, 0x0, false⟩
def ETH.HP_TUN_tunnel (i : Nat) : Fld := ⟨0x88 + 0x10 * i, 0, 12, .rw, 0x0, false⟩
/-- The block registers of the page type ETH. -/
def ETH.rows : List FRow :=
  [⟨ETH.MAC_CFG_mode, 4, 1⟩, ⟨ETH.MAC_CFG_an_en, 4, 1⟩, ⟨ETH.MAC_CFG_promisc, 4, 1⟩, ⟨ETH.MAC_CFG_mc_all, 4, 1⟩, ⟨ETH.MAC_CFG_vlan_strip, 4, 1⟩, ⟨ETH.MAC_CFG_pause_rx, 4, 1⟩, ⟨ETH.MAC_CFG_pause_tx, 4, 1⟩, ⟨ETH.MAC_CFG_xoff_kib, 4, 1⟩, ⟨ETH.MAC_CFG_max_len, 4, 1⟩, ⟨ETH.MAC_ADDR_LO_mac_lo, 4, 1⟩, ⟨ETH.MAC_ADDR_HI_mac_hi, 4, 1⟩, ⟨ETH.MAC_STAT_link, 4, 1⟩, ⟨ETH.MAC_STAT_speed, 4, 1⟩, ⟨ETH.TS_CFG_en, 4, 1⟩, ⟨ETH.TS_CFG_ts_all, 4, 1⟩, ⟨ETH.TS_CFG_ts_tmo_ms, 4, 1⟩, ⟨ETH.TS_CFG_rx_adj_ns, 4, 1⟩, ⟨ETH.TS_CFG_tx_adj_ns, 4, 1⟩, ⟨ETH.MDIO_CMD_go, 4, 1⟩, ⟨ETH.MDIO_CMD_c45, 4, 1⟩, ⟨ETH.MDIO_CMD_op, 4, 1⟩, ⟨ETH.MDIO_CMD_phy, 4, 1⟩, ⟨ETH.MDIO_CMD_reg, 4, 1⟩, ⟨ETH.MDIO_CMD_data, 4, 1⟩, ⟨ETH.MDIO_STAT_busy, 4, 1⟩, ⟨ETH.MDIO_STAT_data, 4, 1⟩, ⟨ETH.MDIO_CFG_mdc_div, 4, 1⟩, ⟨ETH.RX_FRAMES_rx_frames, 4, 1⟩, ⟨ETH.TX_FRAMES_tx_frames, 4, 1⟩, ⟨ETH.ETH_CNT0_rx_fcs, 4, 1⟩, ⟨ETH.ETH_CNT0_rx_filt, 4, 1⟩, ⟨ETH.ETH_CNT1_rx_ovf, 4, 1⟩, ⟨ETH.ETH_CNT1_tx_nolink, 4, 1⟩, ⟨ETH.ETH_CNT2_tx_long, 4, 1⟩, ⟨ETH.ETH_CNT2_tx_abort, 4, 1⟩, ⟨ETH.ETH_CNT2_hp_bad, 4, 1⟩, ⟨ETH.HP_LO_mac_lo 0, 0x10, 8⟩, ⟨ETH.HP_HI_en 0, 0x10, 8⟩, ⟨ETH.HP_HI_copy 0, 0x10, 8⟩, ⟨ETH.HP_HI_vid_match 0, 0x10, 8⟩] ++
  [⟨ETH.HP_HI_mac_hi 0, 0x10, 8⟩, ⟨ETH.HP_TUN_vid 0, 0x10, 8⟩, ⟨ETH.HP_TUN_tunnel 0, 0x10, 8⟩]

/-! ### PCIE (R331) -/
def PCIE.PCIE_CFG_en : Fld := ⟨0x40, 31, 1, .rw, 0x0, false⟩
def PCIE.PCIE_CFG_aspm_l1 : Fld := ⟨0x40, 30, 1, .rw, 0x1, false⟩
def PCIE.PCIE_CFG_l1ss : Fld := ⟨0x40, 29, 1, .rw, 0x1, false⟩
def PCIE.PCIE_CFG_max_gen : Fld := ⟨0x40, 26, 2, .rw, 0x3, false⟩
def PCIE.PCIE_CFG_max_width : Fld := ⟨0x40, 24, 1, .rw, 0x1, false⟩
def PCIE.PCIE_CFG_dev_cto_ms : Fld := ⟨0x40, 0, 10, .rw, 0x5, false⟩
def PCIE.PCIE_CTL_hot_reset : Fld := ⟨0x44, 2, 1, .wo, 0x0, true⟩
def PCIE.PCIE_CTL_retrain : Fld := ⟨0x44, 1, 1, .wo, 0x0, true⟩
def PCIE.PCIE_CTL_perst : Fld := ⟨0x44, 0, 1, .rw, 0x0, true⟩
def PCIE.PCIE_STAT_link_up : Fld := ⟨0x48, 31, 1, .ro, 0x0, false⟩
def PCIE.PCIE_STAT_bar_fit : Fld := ⟨0x48, 30, 1, .ro, 0x0, false⟩
def PCIE.PCIE_STAT_gen : Fld := ⟨0x48, 24, 4, .ro, 0x0, false⟩
def PCIE.PCIE_STAT_width : Fld := ⟨0x48, 20, 2, .ro, 0x0, false⟩
def PCIE.PCIE_STAT_ltssm : Fld := ⟨0x48, 0, 6, .ro, 0x0, false⟩
def PCIE.MSG_BASE_LO_base_lo : Fld := ⟨0x4c, 8, 24, .rw, 0x0, false⟩
def PCIE.MSG_BASE_HI_base_hi : Fld := ⟨0x50, 0, 32, .rw, 0x0, false⟩
def PCIE.PCIE_CNT0_cto : Fld := ⟨0x54, 16, 16, .rc, 0x0, false⟩
def PCIE.PCIE_CNT0_park_drop : Fld := ⟨0x54, 0, 16, .rc, 0x0, false⟩
def PCIE.PCIE_CNT1_err_cor : Fld := ⟨0x58, 16, 16, .rc, 0x0, false⟩
def PCIE.PCIE_CNT1_err_nonfatal : Fld := ⟨0x58, 8, 8, .rc, 0x0, false⟩
def PCIE.PCIE_CNT1_err_fatal : Fld := ⟨0x58, 0, 8, .rc, 0x0, false⟩
def PCIE.PCIE_CNT2_downs : Fld := ⟨0x5c, 16, 16, .rc, 0x0, false⟩
def PCIE.PCIE_CNT2_np_out : Fld := ⟨0x5c, 0, 9, .ro, 0x0, false⟩
/-- The block registers of the page type PCIE. -/
def PCIE.rows : List FRow :=
  [⟨PCIE.PCIE_CFG_en, 4, 1⟩, ⟨PCIE.PCIE_CFG_aspm_l1, 4, 1⟩, ⟨PCIE.PCIE_CFG_l1ss, 4, 1⟩, ⟨PCIE.PCIE_CFG_max_gen, 4, 1⟩, ⟨PCIE.PCIE_CFG_max_width, 4, 1⟩, ⟨PCIE.PCIE_CFG_dev_cto_ms, 4, 1⟩, ⟨PCIE.PCIE_CTL_hot_reset, 4, 1⟩, ⟨PCIE.PCIE_CTL_retrain, 4, 1⟩, ⟨PCIE.PCIE_CTL_perst, 4, 1⟩, ⟨PCIE.PCIE_STAT_link_up, 4, 1⟩, ⟨PCIE.PCIE_STAT_bar_fit, 4, 1⟩, ⟨PCIE.PCIE_STAT_gen, 4, 1⟩, ⟨PCIE.PCIE_STAT_width, 4, 1⟩, ⟨PCIE.PCIE_STAT_ltssm, 4, 1⟩, ⟨PCIE.MSG_BASE_LO_base_lo, 4, 1⟩, ⟨PCIE.MSG_BASE_HI_base_hi, 4, 1⟩, ⟨PCIE.PCIE_CNT0_cto, 4, 1⟩, ⟨PCIE.PCIE_CNT0_park_drop, 4, 1⟩, ⟨PCIE.PCIE_CNT1_err_cor, 4, 1⟩, ⟨PCIE.PCIE_CNT1_err_nonfatal, 4, 1⟩, ⟨PCIE.PCIE_CNT1_err_fatal, 4, 1⟩, ⟨PCIE.PCIE_CNT2_downs, 4, 1⟩, ⟨PCIE.PCIE_CNT2_np_out, 4, 1⟩]

/-! ### TC (R360) -/
def TC.TC_CFG_bay_cfg : Fld := ⟨0x40, 30, 2, .rw, 0x0, false⟩
def TC.TC_CFG_cc_mode : Fld := ⟨0x40, 28, 2, .rw, 0x0, false⟩
def TC.TC_CFG_rp_lvl : Fld := ⟨0x40, 26, 2, .rw, 0x1, false⟩
def TC.TC_CFG_pd_en : Fld := ⟨0x40, 24, 1, .rw, 0x1, false⟩
def TC.TC_CFG_pps_en : Fld := ⟨0x40, 23, 1, .rw, 0x1, false⟩
def TC.TC_CFG_epr_en : Fld := ⟨0x40, 22, 1, .rw, 0x0, false⟩
def TC.TC_CFG_alt_en : Fld := ⟨0x40, 21, 1, .rw, 0x1, false⟩
def TC.TC_CFG_vconn_en : Fld := ⟨0x40, 20, 1, .rw, 0x1, false⟩
def TC.TC_CFG_pp_link : Fld := ⟨0x40, 19, 1, .rw, 0x0, false⟩
def TC.TC_CFG_det_ms : Fld := ⟨0x40, 8, 8, .rw, 0xf, false⟩
def TC.TC_CFG_att_ms : Fld := ⟨0x40, 0, 8, .rw, 0x96, false⟩
def TC.TC_PWR_pdp_w : Fld := ⟨0x44, 24, 8, .rw, 0xf, false⟩
def TC.TC_PWR_imax : Fld := ⟨0x44, 16, 8, .rw, 0x3c, false⟩
def TC.TC_PWR_vmax : Fld := ⟨0x44, 0, 9, .rw, 0x32, false⟩
def TC.TC_STAT_st : Fld := ⟨0x48, 28, 4, .ro, 0x0, false⟩
def TC.TC_STAT_attached : Fld := ⟨0x48, 27, 1, .ro, 0x0, false⟩
def TC.TC_STAT_orient : Fld := ⟨0x48, 26, 1, .ro, 0x0, false⟩
def TC.TC_STAT_partner : Fld := ⟨0x48, 24, 2, .ro, 0x0, false⟩
def TC.TC_STAT_prole : Fld := ⟨0x48, 23, 1, .ro, 0x0, false⟩
def TC.TC_STAT_vconn_on : Fld := ⟨0x48, 22, 1, .ro, 0x0, false⟩
def TC.TC_STAT_pd_rev : Fld := ⟨0x48, 20, 2, .ro, 0x0, false⟩
def TC.TC_STAT_epr : Fld := ⟨0x48, 19, 1, .ro, 0x0, false⟩
def TC.TC_STAT_pps : Fld := ⟨0x48, 18, 1, .ro, 0x0, false⟩
def TC.TC_STAT_rp_adv : Fld := ⟨0x48, 16, 2, .ro, 0x0, false⟩
def TC.TC_STAT_moist : Fld := ⟨0x48, 0, 2, .ro, 0x0, false⟩
def TC.CONTRACT_v : Fld := ⟨0x4c, 16, 16, .ro, 0x0, false⟩
def TC.CONTRACT_i : Fld := ⟨0x4c, 0, 16, .ro, 0x0, false⟩
def TC.CON_INFO_pos : Fld := ⟨0x50, 28, 4, .ro, 0x0, false⟩
def TC.CON_INFO_kind : Fld := ⟨0x50, 26, 2, .ro, 0x0, false⟩
def TC.TC_CABLE_emarked : Fld := ⟨0x54, 31, 1, .ro, 0x0, false⟩
def TC.TC_CABLE_a5 : Fld := ⟨0x54, 30, 1, .ro, 0x0, false⟩
def TC.TC_CABLE_v50 : Fld := ⟨0x54, 29, 1, .ro, 0x0, false⟩
def TC.TC_CABLE_dp_max : Fld := ⟨0x54, 26, 3, .ro, 0x4, false⟩
def TC.TC_CABLE_ss : Fld := ⟨0x54, 24, 2, .ro, 0x0, false⟩
def TC.TC_ALT_mux : Fld := ⟨0x58, 30, 2, .ro, 0x0, false⟩
def TC.TC_ALT_entered : Fld := ⟨0x58, 29, 1, .ro, 0x0, false⟩
def TC.TC_ALT_hpd : Fld := ⟨0x58, 28, 1, .ro, 0x0, false⟩
def TC.TC_MOIST_cc_kohm : Fld := ⟨0x5c, 16, 16, .ro, 0xffff, false⟩
def TC.TC_MOIST_sbu_kohm : Fld := ⟨0x5c, 0, 16, .ro, 0xffff, false⟩
def TC.TC_MCFG_dry_wait_s : Fld := ⟨0x60, 24, 8, .rw, 0xa, false⟩
def TC.TC_MCFG_dry_cnt : Fld := ⟨0x60, 20, 4, .rw, 0x3, false⟩
def TC.TC_MCFG_sink_wet : Fld := ⟨0x60, 16, 1, .rw, 0x0, false⟩
def TC.TC_MCFG_thr_kohm : Fld := ⟨0x60, 0, 16, .ro, 0x0, false⟩
def TC.TC_CAUSE_cause : Fld := ⟨0x64, 0, 8, .ro, 0x0, false⟩
def TC.TC_CTL_err_recovery : Fld := ⟨0x68, 5, 1, .wo, 0x0, true⟩
def TC.TC_CTL_exit_alt : Fld := ⟨0x68, 4, 1, .wo, 0x0, true⟩
def TC.TC_CTL_pr_swap : Fld := ⟨0x68, 3, 1, .wo, 0x0, true⟩
def TC.TC_CTL_vconn_swap : Fld := ⟨0x68, 2, 1, .wo, 0x0, true⟩
def TC.TC_CTL_hard_reset : Fld := ⟨0x68, 1, 1, .wo, 0x0, true⟩
def TC.TC_CTL_renegotiate : Fld := ⟨0x68, 0, 1, .wo, 0x0, true⟩
def TC.TC_CNT0_contracts : Fld := ⟨0x70, 16, 16, .rc, 0x0, false⟩
def TC.TC_CNT0_hard_resets : Fld := ⟨0x70, 0, 16, .rc, 0x0, false⟩
def TC.TC_CNT1_tx_fail : Fld := ⟨0x74, 16, 16, .rc, 0x0, false⟩
def TC.TC_CNT1_rx_crc : Fld := ⟨0x74, 0, 16, .rc, 0x0, false⟩
def TC.TC_CNT2_collisions : Fld := ⟨0x78, 16, 16, .rc, 0x0, false⟩
def TC.TC_CNT2_wet_entries : Fld := ⟨0x78, 8, 8, .rc, 0x0, false⟩
def TC.TC_CNT2_hook_tmo : Fld := ⟨0x78, 0, 8, .rc, 0x0, false⟩
/-- The block registers of the page type TC. -/
def TC.rows : List FRow :=
  [⟨TC.TC_CFG_bay_cfg, 4, 1⟩, ⟨TC.TC_CFG_cc_mode, 4, 1⟩, ⟨TC.TC_CFG_rp_lvl, 4, 1⟩, ⟨TC.TC_CFG_pd_en, 4, 1⟩, ⟨TC.TC_CFG_pps_en, 4, 1⟩, ⟨TC.TC_CFG_epr_en, 4, 1⟩, ⟨TC.TC_CFG_alt_en, 4, 1⟩, ⟨TC.TC_CFG_vconn_en, 4, 1⟩, ⟨TC.TC_CFG_pp_link, 4, 1⟩, ⟨TC.TC_CFG_det_ms, 4, 1⟩, ⟨TC.TC_CFG_att_ms, 4, 1⟩, ⟨TC.TC_PWR_pdp_w, 4, 1⟩, ⟨TC.TC_PWR_imax, 4, 1⟩, ⟨TC.TC_PWR_vmax, 4, 1⟩, ⟨TC.TC_STAT_st, 4, 1⟩, ⟨TC.TC_STAT_attached, 4, 1⟩, ⟨TC.TC_STAT_orient, 4, 1⟩, ⟨TC.TC_STAT_partner, 4, 1⟩, ⟨TC.TC_STAT_prole, 4, 1⟩, ⟨TC.TC_STAT_vconn_on, 4, 1⟩, ⟨TC.TC_STAT_pd_rev, 4, 1⟩, ⟨TC.TC_STAT_epr, 4, 1⟩, ⟨TC.TC_STAT_pps, 4, 1⟩, ⟨TC.TC_STAT_rp_adv, 4, 1⟩, ⟨TC.TC_STAT_moist, 4, 1⟩, ⟨TC.CONTRACT_v, 4, 1⟩, ⟨TC.CONTRACT_i, 4, 1⟩, ⟨TC.CON_INFO_pos, 4, 1⟩, ⟨TC.CON_INFO_kind, 4, 1⟩, ⟨TC.TC_CABLE_emarked, 4, 1⟩, ⟨TC.TC_CABLE_a5, 4, 1⟩, ⟨TC.TC_CABLE_v50, 4, 1⟩, ⟨TC.TC_CABLE_dp_max, 4, 1⟩, ⟨TC.TC_CABLE_ss, 4, 1⟩, ⟨TC.TC_ALT_mux, 4, 1⟩, ⟨TC.TC_ALT_entered, 4, 1⟩, ⟨TC.TC_ALT_hpd, 4, 1⟩, ⟨TC.TC_MOIST_cc_kohm, 4, 1⟩, ⟨TC.TC_MOIST_sbu_kohm, 4, 1⟩, ⟨TC.TC_MCFG_dry_wait_s, 4, 1⟩] ++
  [⟨TC.TC_MCFG_dry_cnt, 4, 1⟩, ⟨TC.TC_MCFG_sink_wet, 4, 1⟩, ⟨TC.TC_MCFG_thr_kohm, 4, 1⟩, ⟨TC.TC_CAUSE_cause, 4, 1⟩, ⟨TC.TC_CTL_err_recovery, 4, 1⟩, ⟨TC.TC_CTL_exit_alt, 4, 1⟩, ⟨TC.TC_CTL_pr_swap, 4, 1⟩, ⟨TC.TC_CTL_vconn_swap, 4, 1⟩, ⟨TC.TC_CTL_hard_reset, 4, 1⟩, ⟨TC.TC_CTL_renegotiate, 4, 1⟩, ⟨TC.TC_CNT0_contracts, 4, 1⟩, ⟨TC.TC_CNT0_hard_resets, 4, 1⟩, ⟨TC.TC_CNT1_tx_fail, 4, 1⟩, ⟨TC.TC_CNT1_rx_crc, 4, 1⟩, ⟨TC.TC_CNT2_collisions, 4, 1⟩, ⟨TC.TC_CNT2_wet_entries, 4, 1⟩, ⟨TC.TC_CNT2_hook_tmo, 4, 1⟩]

/-! ### PWP (R378) -/
def PWP.FEED_CFG_used (i : Nat) : Fld := ⟨0x40 + 0x4 * i, 31, 1, .rw, 0x0, false⟩
def PWP.FEED_CFG_en (i : Nat) : Fld := ⟨0x40 + 0x4 * i, 30, 1, .rw, 0x1, false⟩
def PWP.FEED_CFG_warn (i : Nat) : Fld := ⟨0x40 + 0x4 * i, 0, 10, .rw, 0xb4, false⟩
def PWP.FEED_MEAS_va : Fld := ⟨0x48, 20, 10, .ro, 0x0, false⟩
def PWP.FEED_MEAS_vb : Fld := ⟨0x48, 10, 10, .ro, 0x0, false⟩
def PWP.FEED_MEAS_vor : Fld := ⟨0x48, 0, 10, .ro, 0x0, false⟩
def PWP.FEED_FLAGS_warn_n : Fld := ⟨0x4c, 8, 1, .ro, 0x1, false⟩
def PWP.FEED_FLAGS_a_flags : Fld := ⟨0x4c, 4, 4, .ro, 0x0, false⟩
def PWP.FEED_FLAGS_b_flags : Fld := ⟨0x4c, 0, 4, .ro, 0x0, false⟩
def PWP.EF_CFG_auto : Fld := ⟨0x50, 31, 1, .rw, 0x1, false⟩
def PWP.EF_CFG_retry_max : Fld := ⟨0x50, 27, 4, .rw, 0x7, false⟩
def PWP.EF_CFG_ft_sel : Fld := ⟨0x50, 26, 1, .rw, 0x0, false⟩
def PWP.EF_CFG_igate : Fld := ⟨0x50, 24, 2, .rw, 0x2, false⟩
def PWP.EF_CFG_vlim : Fld := ⟨0x50, 0, 9, .rw, 0xc8, false⟩
def PWP.EF_TIM0_t_flt : Fld := ⟨0x54, 16, 15, .rw, 0x3e8, false⟩
def PWP.EF_TIM0_t_pc_ms : Fld := ⟨0x54, 0, 9, .rw, 0x64, false⟩
def PWP.EF_TIM1_t_pgd : Fld := ⟨0x58, 0, 8, .rw, 0xa, false⟩
def PWP.EF_WIN_ov : Fld := ⟨0x5c, 16, 10, .rw, 0x26c, false⟩
def PWP.EF_WIN_pg_pct : Fld := ⟨0x5c, 0, 7, .rw, 0x5a, false⟩
def PWP.EF_CTL_clr : Fld := ⟨0x60, 2, 1, .wo, 0x0, true⟩
def PWP.EF_CTL_off : Fld := ⟨0x60, 1, 1, .rw, 0x0, true⟩
def PWP.EF_STAT_state : Fld := ⟨0x64, 28, 4, .ro, 0x0, false⟩
def PWP.EF_STAT_pg : Fld := ⟨0x64, 27, 1, .ro, 0x0, false⟩
def PWP.EF_STAT_flt : Fld := ⟨0x64, 26, 1, .ro, 0x0, false⟩
def PWP.EF_STAT_ew : Fld := ⟨0x64, 25, 1, .w1c, 0x0, false⟩
def PWP.EF_STAT_retries : Fld := ⟨0x64, 20, 4, .ro, 0x0, false⟩
def PWP.EF_STAT_cause : Fld := ⟨0x64, 0, 8, .ro, 0x0, false⟩
def PWP.EF_MEAS_i_out : Fld := ⟨0x68, 16, 16, .ro, 0x0, false⟩
def PWP.EF_MEAS_v_out : Fld := ⟨0x68, 0, 16, .ro, 0x0, false⟩
def PWP.EF_RS_rs_uohm : Fld := ⟨0x6c, 0, 16, .rw, 0x7d0, false⟩
def PWP.EF_COOL_e_mj : Fld := ⟨0x70, 16, 16, .ro, 0x0, false⟩
def PWP.EF_COOL_t_cool : Fld := ⟨0x70, 0, 16, .ro, 0x0, false⟩
def PWP.EF_COOLMIN_cool_min : Fld := ⟨0x74, 0, 16, .rw, 0x64, false⟩
def PWP.FBK_vds (i : Nat) : Fld := ⟨0x80 + 0x4 * i, 16, 16, .rw, 0x0, false⟩
def PWP.FBK_frac (i : Nat) : Fld := ⟨0x80 + 0x4 * i, 0, 9, .rw, 0x0, false⟩
def PWP.CDN_e (i : Nat) : Fld := ⟨0xa0 + 0x4 * i, 16, 16, .rw, 0x0, false⟩
def PWP.CDN_t (i : Nat) : Fld := ⟨0xa0 + 0x4 * i, 0, 16, .rw, 0x0, false⟩
def PWP.EF_CNT0_faults : Fld := ⟨0xc0, 16, 16, .rc, 0x0, false⟩
def PWP.EF_CNT0_fast_trips : Fld := ⟨0xc0, 8, 8, .rc, 0x0, false⟩
def PWP.EF_CNT0_prechg_tmo : Fld := ⟨0xc0, 0, 8, .rc, 0x0, false⟩
def PWP.EF_CNT1_limits : Fld := ⟨0xc4, 16, 16, .rc, 0x0, false⟩
def PWP.EF_CNT1_rev_a : Fld := ⟨0xc4, 8, 8, .rc, 0x0, false⟩
def PWP.EF_CNT1_rev_b : Fld := ⟨0xc4, 0, 8, .rc, 0x0, false⟩
/-- The block registers of the page type PWP. -/
def PWP.rows : List FRow :=
  [⟨PWP.FEED_CFG_used 0, 0x4, 2⟩, ⟨PWP.FEED_CFG_en 0, 0x4, 2⟩, ⟨PWP.FEED_CFG_warn 0, 0x4, 2⟩, ⟨PWP.FEED_MEAS_va, 4, 1⟩, ⟨PWP.FEED_MEAS_vb, 4, 1⟩, ⟨PWP.FEED_MEAS_vor, 4, 1⟩, ⟨PWP.FEED_FLAGS_warn_n, 4, 1⟩, ⟨PWP.FEED_FLAGS_a_flags, 4, 1⟩, ⟨PWP.FEED_FLAGS_b_flags, 4, 1⟩, ⟨PWP.EF_CFG_auto, 4, 1⟩, ⟨PWP.EF_CFG_retry_max, 4, 1⟩, ⟨PWP.EF_CFG_ft_sel, 4, 1⟩, ⟨PWP.EF_CFG_igate, 4, 1⟩, ⟨PWP.EF_CFG_vlim, 4, 1⟩, ⟨PWP.EF_TIM0_t_flt, 4, 1⟩, ⟨PWP.EF_TIM0_t_pc_ms, 4, 1⟩, ⟨PWP.EF_TIM1_t_pgd, 4, 1⟩, ⟨PWP.EF_WIN_ov, 4, 1⟩, ⟨PWP.EF_WIN_pg_pct, 4, 1⟩, ⟨PWP.EF_CTL_clr, 4, 1⟩, ⟨PWP.EF_CTL_off, 4, 1⟩, ⟨PWP.EF_STAT_state, 4, 1⟩, ⟨PWP.EF_STAT_pg, 4, 1⟩, ⟨PWP.EF_STAT_flt, 4, 1⟩, ⟨PWP.EF_STAT_ew, 4, 1⟩, ⟨PWP.EF_STAT_retries, 4, 1⟩, ⟨PWP.EF_STAT_cause, 4, 1⟩, ⟨PWP.EF_MEAS_i_out, 4, 1⟩, ⟨PWP.EF_MEAS_v_out, 4, 1⟩, ⟨PWP.EF_RS_rs_uohm, 4, 1⟩, ⟨PWP.EF_COOL_e_mj, 4, 1⟩, ⟨PWP.EF_COOL_t_cool, 4, 1⟩, ⟨PWP.EF_COOLMIN_cool_min, 4, 1⟩, ⟨PWP.FBK_vds 0, 0x4, 8⟩, ⟨PWP.FBK_frac 0, 0x4, 8⟩, ⟨PWP.CDN_e 0, 0x4, 8⟩, ⟨PWP.CDN_t 0, 0x4, 8⟩, ⟨PWP.EF_CNT0_faults, 4, 1⟩, ⟨PWP.EF_CNT0_fast_trips, 4, 1⟩, ⟨PWP.EF_CNT0_prechg_tmo, 4, 1⟩] ++
  [⟨PWP.EF_CNT1_limits, 4, 1⟩, ⟨PWP.EF_CNT1_rev_a, 4, 1⟩, ⟨PWP.EF_CNT1_rev_b, 4, 1⟩]

/-! ### HVD (R379) -/
def HVD.HVD_STAT_link : Fld := ⟨0x40, 31, 1, .ro, 0x0, false⟩
def HVD.HVD_STAT_held : Fld := ⟨0x40, 30, 1, .ro, 0x0, false⟩
def HVD.HVD_STAT_temp : Fld := ⟨0x40, 16, 8, .ro, 0x0, false⟩
def HVD.HVD_STAT_stepping : Fld := ⟨0x40, 8, 8, .ro, 0x0, false⟩
def HVD.HVD_CFG_t_warn : Fld := ⟨0x44, 0, 8, .rw, 0x73, false⟩
def HVD.LINK_CNT_losses : Fld := ⟨0x48, 16, 16, .rc, 0x0, false⟩
def HVD.LINK_CNT_crc : Fld := ⟨0x48, 8, 8, .rc, 0x0, false⟩
def HVD.LINK_CNT_wr_drop : Fld := ⟨0x48, 0, 8, .rc, 0x0, false⟩
/-- The block registers of the page type HVD. -/
def HVD.rows : List FRow :=
  [⟨HVD.HVD_STAT_link, 4, 1⟩, ⟨HVD.HVD_STAT_held, 4, 1⟩, ⟨HVD.HVD_STAT_temp, 4, 1⟩, ⟨HVD.HVD_STAT_stepping, 4, 1⟩, ⟨HVD.HVD_CFG_t_warn, 4, 1⟩, ⟨HVD.LINK_CNT_losses, 4, 1⟩, ⟨HVD.LINK_CNT_crc, 4, 1⟩, ⟨HVD.LINK_CNT_wr_drop, 4, 1⟩]

/-! ### VBS (R380) -/
def VBS.VBS_CFG_i2c : Fld := ⟨0x40, 31, 1, .rw, 0x0, false⟩
def VBS.VBS_CFG_keep : Fld := ⟨0x40, 30, 1, .rw, 0x0, false⟩
def VBS.VBS_CFG_rs_uohm : Fld := ⟨0x40, 0, 16, .rw, 0x2710, false⟩
def VBS.VSET_CAL_duty_5v : Fld := ⟨0x44, 16, 16, .rw, 0x1555, false⟩
def VBS.VSET_CAL_duty_20v : Fld := ⟨0x44, 0, 16, .rw, 0x5555, false⟩
def VBS.VBS_SET_vset : Fld := ⟨0x48, 16, 16, .ro, 0xfa, false⟩
def VBS.VBS_SET_ilim : Fld := ⟨0x48, 0, 16, .ro, 0x0, false⟩
def VBS.VBS_WIN_hi : Fld := ⟨0x4c, 16, 16, .ro, 0x0, false⟩
def VBS.VBS_WIN_lo : Fld := ⟨0x4c, 0, 16, .ro, 0x0, false⟩
def VBS.VBS_MEAS_vbus : Fld := ⟨0x50, 16, 16, .ro, 0x0, false⟩
def VBS.VBS_MEAS_ibus : Fld := ⟨0x50, 0, 16, .ro, 0x0, false⟩
def VBS.VBS_STAT_state : Fld := ⟨0x54, 28, 4, .ro, 0x0, false⟩
def VBS.VBS_STAT_sink : Fld := ⟨0x54, 27, 1, .ro, 0x0, false⟩
def VBS.VBS_STAT_trim_pin : Fld := ⟨0x54, 25, 1, .w1c, 0x0, false⟩
def VBS.VBS_STAT_cause : Fld := ⟨0x54, 0, 8, .ro, 0x0, false⟩
def VBS.VBS_TIM_oc_ms : Fld := ⟨0x58, 24, 4, .rw, 0x2, false⟩
def VBS.VBS_TIM_uv_ms : Fld := ⟨0x58, 0, 8, .rw, 0xa, false⟩
def VBS.VBS_TRIM_trim : Fld := ⟨0x5c, 16, 16, .rw, 0x0, true⟩
def VBS.VBS_TRIM_hold : Fld := ⟨0x5c, 8, 1, .rw, 0x0, false⟩
def VBS.VBS_TRIM_trim_max : Fld := ⟨0x5c, 0, 8, .rw, 0x20, false⟩
def VBS.VBS_CNT_trips : Fld := ⟨0x60, 16, 16, .rc, 0x0, false⟩
def VBS.VBS_CNT_discharges : Fld := ⟨0x60, 0, 16, .rc, 0x0, false⟩
/-- The block registers of the page type VBS. -/
def VBS.rows : List FRow :=
  [⟨VBS.VBS_CFG_i2c, 4, 1⟩, ⟨VBS.VBS_CFG_keep, 4, 1⟩, ⟨VBS.VBS_CFG_rs_uohm, 4, 1⟩, ⟨VBS.VSET_CAL_duty_5v, 4, 1⟩, ⟨VBS.VSET_CAL_duty_20v, 4, 1⟩, ⟨VBS.VBS_SET_vset, 4, 1⟩, ⟨VBS.VBS_SET_ilim, 4, 1⟩, ⟨VBS.VBS_WIN_hi, 4, 1⟩, ⟨VBS.VBS_WIN_lo, 4, 1⟩, ⟨VBS.VBS_MEAS_vbus, 4, 1⟩, ⟨VBS.VBS_MEAS_ibus, 4, 1⟩, ⟨VBS.VBS_STAT_state, 4, 1⟩, ⟨VBS.VBS_STAT_sink, 4, 1⟩, ⟨VBS.VBS_STAT_trim_pin, 4, 1⟩, ⟨VBS.VBS_STAT_cause, 4, 1⟩, ⟨VBS.VBS_TIM_oc_ms, 4, 1⟩, ⟨VBS.VBS_TIM_uv_ms, 4, 1⟩, ⟨VBS.VBS_TRIM_trim, 4, 1⟩, ⟨VBS.VBS_TRIM_hold, 4, 1⟩, ⟨VBS.VBS_TRIM_trim_max, 4, 1⟩, ⟨VBS.VBS_CNT_trips, 4, 1⟩, ⟨VBS.VBS_CNT_discharges, 4, 1⟩]

/-! ### ENG (R403) -/
def ENG.ENG_STAT_state (i : Nat) : Fld := ⟨0x100 + 0x40 * i, 28, 4, .ro, 0x0, false⟩
def ENG.ENG_STAT_fw_minor (i : Nat) : Fld := ⟨0x100 + 0x40 * i, 0, 16, .ro, 0x0, false⟩
def ENG.ENG_CTL_restart (i : Nat) : Fld := ⟨0x104 + 0x40 * i, 0, 1, .wo, 0x0, true⟩
def ENG.WDG_wdg_ms (i : Nat) : Fld := ⟨0x108 + 0x40 * i, 0, 16, .rw, 0x64, false⟩
def ENG.ENG_CNT_restarts (i : Nat) : Fld := ⟨0x10c + 0x40 * i, 16, 16, .rc, 0x0, false⟩
def ENG.ENG_CNT_wdg_exp (i : Nat) : Fld := ⟨0x10c + 0x40 * i, 8, 8, .rc, 0x0, false⟩
def ENG.ENG_CNT_own_tmo (i : Nat) : Fld := ⟨0x10c + 0x40 * i, 0, 8, .rc, 0x0, false⟩
def ENG.MB_OWN_owner (i : Nat) : Fld := ⟨0x110 + 0x40 * i, 0, 2, .rw, 0x0, true⟩
def ENG.MB_CTL_go (i : Nat) : Fld := ⟨0x114 + 0x40 * i, 31, 1, .wo, 0x0, true⟩
def ENG.MB_CTL_release (i : Nat) : Fld := ⟨0x114 + 0x40 * i, 30, 1, .wo, 0x0, true⟩
def ENG.MB_STAT_st (i : Nat) : Fld := ⟨0x118 + 0x40 * i, 30, 2, .ro, 0x0, false⟩
def ENG.MB_STAT_status (i : Nat) : Fld := ⟨0x118 + 0x40 * i, 0, 8, .ro, 0x0, false⟩
def ENG.MB_CFG_own_ms (i : Nat) : Fld := ⟨0x11c + 0x40 * i, 0, 16, .rw, 0x64, false⟩
def ENG.MB_DATA_data (i : Nat) : Fld := ⟨0x800 + 0x4 * i, 0, 32, .rw, 0x0, false⟩
/-- The block registers of the page type ENG. -/
def ENG.rows : List FRow :=
  [⟨ENG.ENG_STAT_state 0, 0x40, 4⟩, ⟨ENG.ENG_STAT_fw_minor 0, 0x40, 4⟩, ⟨ENG.ENG_CTL_restart 0, 0x40, 4⟩, ⟨ENG.WDG_wdg_ms 0, 0x40, 4⟩, ⟨ENG.ENG_CNT_restarts 0, 0x40, 4⟩, ⟨ENG.ENG_CNT_wdg_exp 0, 0x40, 4⟩, ⟨ENG.ENG_CNT_own_tmo 0, 0x40, 4⟩, ⟨ENG.MB_OWN_owner 0, 0x40, 4⟩, ⟨ENG.MB_CTL_go 0, 0x40, 4⟩, ⟨ENG.MB_CTL_release 0, 0x40, 4⟩, ⟨ENG.MB_STAT_st 0, 0x40, 4⟩, ⟨ENG.MB_STAT_status 0, 0x40, 4⟩, ⟨ENG.MB_CFG_own_ms 0, 0x40, 4⟩, ⟨ENG.MB_DATA_data 0, 0x4, 512⟩]

/-! ### LRD (R422) -/
def LRD.LRD_STAT_root : Fld := ⟨0x40, 31, 1, .ro, 0x0, false⟩
def LRD.LRD_STAT_gate : Fld := ⟨0x40, 30, 1, .ro, 0x1, false⟩
def LRD.LRD_STAT_site : Fld := ⟨0x40, 29, 1, .ro, 0x0, false⟩
def LRD.LRD_STAT_table_key : Fld := ⟨0x40, 28, 1, .ro, 0x0, false⟩
def LRD.LRD_STAT_valid : Fld := ⟨0x40, 0, 7, .ro, 0x0, false⟩
def LRD.MASK_CFG_period_ms : Fld := ⟨0x44, 0, 7, .rw, 0x8, false⟩
def LRD.HOP_CFG_en : Fld := ⟨0x48, 31, 1, .rw, 0x1, false⟩
def LRD.HOP_CFG_require : Fld := ⟨0x48, 30, 1, .rw, 0x0, false⟩
def LRD.HOP_CFG_tag_us : Fld := ⟨0x48, 0, 16, .rw, 0x64, false⟩
def LRD.HOP_STAT_tu : Fld := ⟨0x4c, 30, 2, .ro, 0x0, false⟩
def LRD.HOP_STAT_td : Fld := ⟨0x4c, 28, 2, .ro, 0x0, false⟩
def LRD.SLOT_SEL_slot : Fld := ⟨0x50, 0, 6, .rw, 0x0, false⟩
def LRD.SLOT_DATA_valid : Fld := ⟨0x54, 31, 1, .ro, 0x0, false⟩
def LRD.SLOT_DATA_kind : Fld := ⟨0x54, 28, 3, .ro, 0x0, false⟩
def LRD.SLOT_DATA_use : Fld := ⟨0x54, 24, 2, .ro, 0x0, false⟩
def LRD.SLOT_DATA_depth : Fld := ⟨0x54, 16, 4, .ro, 0x0, false⟩
def LRD.SLOT_DATA_parent : Fld := ⟨0x54, 8, 6, .ro, 0x0, false⟩
def LRD.SLOT_DATA_inc : Fld := ⟨0x54, 0, 8, .ro, 0x0, false⟩
def LRD.UPD_CNT_counter : Fld := ⟨0x58, 0, 32, .ro, 0x0, false⟩
def LRD.UPD_FAIL_cause : Fld := ⟨0x5c, 0, 8, .ro, 0x0, false⟩
def LRD.LRD_CNT0_upd_ok : Fld := ⟨0x60, 16, 16, .rc, 0x0, false⟩
def LRD.LRD_CNT0_upd_fail : Fld := ⟨0x60, 0, 16, .rc, 0x0, false⟩
def LRD.LRD_CNT1_mac_fail : Fld := ⟨0x64, 16, 16, .rc, 0x0, false⟩
def LRD.LRD_CNT1_swept : Fld := ⟨0x64, 0, 16, .rc, 0x0, false⟩
def LRD.LRD_CTL_gate_close : Fld := ⟨0x68, 0, 1, .wo, 0x0, true⟩
/-- The block registers of the page type LRD. -/
def LRD.rows : List FRow :=
  [⟨LRD.LRD_STAT_root, 4, 1⟩, ⟨LRD.LRD_STAT_gate, 4, 1⟩, ⟨LRD.LRD_STAT_site, 4, 1⟩, ⟨LRD.LRD_STAT_table_key, 4, 1⟩, ⟨LRD.LRD_STAT_valid, 4, 1⟩, ⟨LRD.MASK_CFG_period_ms, 4, 1⟩, ⟨LRD.HOP_CFG_en, 4, 1⟩, ⟨LRD.HOP_CFG_require, 4, 1⟩, ⟨LRD.HOP_CFG_tag_us, 4, 1⟩, ⟨LRD.HOP_STAT_tu, 4, 1⟩, ⟨LRD.HOP_STAT_td, 4, 1⟩, ⟨LRD.SLOT_SEL_slot, 4, 1⟩, ⟨LRD.SLOT_DATA_valid, 4, 1⟩, ⟨LRD.SLOT_DATA_kind, 4, 1⟩, ⟨LRD.SLOT_DATA_use, 4, 1⟩, ⟨LRD.SLOT_DATA_depth, 4, 1⟩, ⟨LRD.SLOT_DATA_parent, 4, 1⟩, ⟨LRD.SLOT_DATA_inc, 4, 1⟩, ⟨LRD.UPD_CNT_counter, 4, 1⟩, ⟨LRD.UPD_FAIL_cause, 4, 1⟩, ⟨LRD.LRD_CNT0_upd_ok, 4, 1⟩, ⟨LRD.LRD_CNT0_upd_fail, 4, 1⟩, ⟨LRD.LRD_CNT1_mac_fail, 4, 1⟩, ⟨LRD.LRD_CNT1_swept, 4, 1⟩, ⟨LRD.LRD_CTL_gate_close, 4, 1⟩]

/-! ### FUS (R423) -/
def FUS.DEV_ID_LO_id_lo : Fld := ⟨0x40, 0, 32, .ro, 0x0, false⟩
def FUS.DEV_ID_HI_id_hi : Fld := ⟨0x44, 0, 32, .ro, 0x0, false⟩
def FUS.VENDOR_vendor : Fld := ⟨0x48, 0, 16, .ro, 0x0, false⟩
def FUS.PART_part : Fld := ⟨0x4c, 24, 8, .ro, 0x0, false⟩
def FUS.PART_stepping : Fld := ⟨0x4c, 16, 8, .ro, 0x0, false⟩
def FUS.PART_bay_off : Fld := ⟨0x4c, 0, 4, .ro, 0x0, false⟩
def FUS.PROFILE_profile : Fld := ⟨0x50, 0, 16, .ro, 0x0, false⟩
def FUS.SEC_debug : Fld := ⟨0x54, 31, 1, .ro, 0x0, false⟩
def FUS.SEC_key_revoke0 : Fld := ⟨0x54, 30, 1, .ro, 0x0, false⟩
def FUS.SEC_sec_min : Fld := ⟨0x54, 0, 7, .ro, 0x0, false⟩
def FUS.FW_KEY_HASH0_hash0 (i : Nat) : Fld := ⟨0x58 + 0x4 * i, 0, 32, .ro, 0x0, false⟩
def FUS.FW_KEY_HASH1_hash1 (i : Nat) : Fld := ⟨0x88 + 0x4 * i, 0, 32, .ro, 0x0, false⟩
def FUS.ROWS_retired : Fld := ⟨0xc0, 8, 8, .ro, 0x0, false⟩
def FUS.ROWS_used : Fld := ⟨0xc0, 0, 8, .ro, 0x0, false⟩
def FUS.CNT_ROWS_cnt_rows : Fld := ⟨0xc4, 0, 32, .ro, 0x0, false⟩
def FUS.CR_TGT_use (i : Nat) : Fld := ⟨0xd0 + 0x4 * i, 8, 2, .ro, 0x0, false⟩
def FUS.CR_TGT_slot (i : Nat) : Fld := ⟨0xd0 + 0x4 * i, 0, 6, .ro, 0x0, false⟩
/-- The block registers of the page type FUS. -/
def FUS.rows : List FRow :=
  [⟨FUS.DEV_ID_LO_id_lo, 4, 1⟩, ⟨FUS.DEV_ID_HI_id_hi, 4, 1⟩, ⟨FUS.VENDOR_vendor, 4, 1⟩, ⟨FUS.PART_part, 4, 1⟩, ⟨FUS.PART_stepping, 4, 1⟩, ⟨FUS.PART_bay_off, 4, 1⟩, ⟨FUS.PROFILE_profile, 4, 1⟩, ⟨FUS.SEC_debug, 4, 1⟩, ⟨FUS.SEC_key_revoke0, 4, 1⟩, ⟨FUS.SEC_sec_min, 4, 1⟩, ⟨FUS.FW_KEY_HASH0_hash0 0, 0x4, 12⟩, ⟨FUS.FW_KEY_HASH1_hash1 0, 0x4, 12⟩, ⟨FUS.ROWS_retired, 4, 1⟩, ⟨FUS.ROWS_used, 4, 1⟩, ⟨FUS.CNT_ROWS_cnt_rows, 4, 1⟩, ⟨FUS.CR_TGT_use 0, 0x4, 8⟩, ⟨FUS.CR_TGT_slot 0, 0x4, 8⟩]

/-! ### GLB (R451) -/
def GLB.GLB_STAT_boot_done : Fld := ⟨0x40, 31, 1, .ro, 0x0, false⟩
def GLB.GLB_STAT_boot_err : Fld := ⟨0x40, 30, 1, .ro, 0x0, false⟩
def GLB.GLB_STAT_mode : Fld := ⟨0x40, 28, 2, .ro, 0x0, false⟩
def GLB.GLB_STAT_compat : Fld := ⟨0x40, 27, 1, .ro, 0x0, false⟩
def GLB.GLB_STAT_refsel : Fld := ⟨0x40, 26, 1, .ro, 0x0, false⟩
def GLB.GLB_STAT_pads_held : Fld := ⟨0x40, 25, 1, .ro, 0x0, false⟩
def GLB.RST_CAUSE_cause : Fld := ⟨0x44, 0, 6, .w1c, 0x1, false⟩
def GLB.RST_CTL_key : Fld := ⟨0x48, 8, 8, .wo, 0x0, true⟩
def GLB.RST_CTL_go : Fld := ⟨0x48, 0, 1, .wo, 0x0, true⟩
def GLB.PAD_REL_rel : Fld := ⟨0x4c, 0, 1, .wo, 0x0, true⟩
def GLB.PAD_CLAMP0_clamp0 : Fld := ⟨0x50, 0, 32, .rw, 0xaaaaaaaa, false⟩
def GLB.PAD_CLAMP1_clamp1 : Fld := ⟨0x54, 0, 14, .rw, 0x2994, false⟩
def GLB.THERM_temp : Fld := ⟨0x58, 16, 8, .ro, 0x0, false⟩
def GLB.THERM_warn : Fld := ⟨0x58, 0, 8, .rw, 0x6e, false⟩
/-- The block registers of the page type GLB. -/
def GLB.rows : List FRow :=
  [⟨GLB.GLB_STAT_boot_done, 4, 1⟩, ⟨GLB.GLB_STAT_boot_err, 4, 1⟩, ⟨GLB.GLB_STAT_mode, 4, 1⟩, ⟨GLB.GLB_STAT_compat, 4, 1⟩, ⟨GLB.GLB_STAT_refsel, 4, 1⟩, ⟨GLB.GLB_STAT_pads_held, 4, 1⟩, ⟨GLB.RST_CAUSE_cause, 4, 1⟩, ⟨GLB.RST_CTL_key, 4, 1⟩, ⟨GLB.RST_CTL_go, 4, 1⟩, ⟨GLB.PAD_REL_rel, 4, 1⟩, ⟨GLB.PAD_CLAMP0_clamp0, 4, 1⟩, ⟨GLB.PAD_CLAMP1_clamp1, 4, 1⟩, ⟨GLB.THERM_temp, 4, 1⟩, ⟨GLB.THERM_warn, 4, 1⟩]

/-! ### CLK (R452) -/
def CLK.CLK_STAT_pll_lock : Fld := ⟨0x40, 31, 1, .ro, 0x0, false⟩
def CLK.CLK_STAT_step : Fld := ⟨0x40, 24, 2, .ro, 0x0, false⟩
def CLK.CLK_STAT_osc32_err : Fld := ⟨0x40, 0, 16, .ro, 0x0, false⟩
def CLK.FRQ_ENV_hi_step : Fld := ⟨0x44, 8, 2, .rw, 0x0, true⟩
def CLK.FRQ_ENV_lo_step : Fld := ⟨0x44, 0, 2, .rw, 0x2, true⟩
def CLK.FRQ_SET_step : Fld := ⟨0x48, 0, 2, .rw, 0x0, true⟩
def CLK.FRQ_CFG_hold : Fld := ⟨0x4c, 31, 1, .rw, 0x0, false⟩
def CLK.FRQ_CFG_dn_epochs : Fld := ⟨0x4c, 16, 8, .rw, 0x10, false⟩
def CLK.FRQ_CFG_dn_pct : Fld := ⟨0x4c, 8, 8, .rw, 0x3c, false⟩
def CLK.FRQ_CFG_up_pct : Fld := ⟨0x4c, 0, 8, .rw, 0x55, false⟩
def CLK.FRQ_STAT_pin : Fld := ⟨0x50, 31, 1, .w1c, 0x0, false⟩
def CLK.FRQ_STAT_want : Fld := ⟨0x50, 24, 2, .ro, 0x0, false⟩
def CLK.FRQ_STAT_busy_pm : Fld := ⟨0x50, 0, 10, .ro, 0x0, false⟩
def CLK.CLK_CNT_ups : Fld := ⟨0x54, 16, 16, .rc, 0x0, false⟩
def CLK.CLK_CNT_downs : Fld := ⟨0x54, 8, 8, .rc, 0x0, false⟩
def CLK.CLK_CNT_guards : Fld := ⟨0x54, 0, 8, .rc, 0x0, false⟩
/-- The block registers of the page type CLK. -/
def CLK.rows : List FRow :=
  [⟨CLK.CLK_STAT_pll_lock, 4, 1⟩, ⟨CLK.CLK_STAT_step, 4, 1⟩, ⟨CLK.CLK_STAT_osc32_err, 4, 1⟩, ⟨CLK.FRQ_ENV_hi_step, 4, 1⟩, ⟨CLK.FRQ_ENV_lo_step, 4, 1⟩, ⟨CLK.FRQ_SET_step, 4, 1⟩, ⟨CLK.FRQ_CFG_hold, 4, 1⟩, ⟨CLK.FRQ_CFG_dn_epochs, 4, 1⟩, ⟨CLK.FRQ_CFG_dn_pct, 4, 1⟩, ⟨CLK.FRQ_CFG_up_pct, 4, 1⟩, ⟨CLK.FRQ_STAT_pin, 4, 1⟩, ⟨CLK.FRQ_STAT_want, 4, 1⟩, ⟨CLK.FRQ_STAT_busy_pm, 4, 1⟩, ⟨CLK.CLK_CNT_ups, 4, 1⟩, ⟨CLK.CLK_CNT_downs, 4, 1⟩, ⟨CLK.CLK_CNT_guards, 4, 1⟩]

/-! ### PWS (R453) -/
def PWS.PWS_STAT_state : Fld := ⟨0x40, 28, 4, .ro, 0x0, false⟩
def PWS.PWS_STAT_last_sleep : Fld := ⟨0x40, 26, 2, .ro, 0x0, false⟩
def PWS.PWS_STAT_refuse : Fld := ⟨0x40, 8, 8, .ro, 0x0, false⟩
def PWS.PWS_CTL_go : Fld := ⟨0x44, 31, 1, .wo, 0x0, true⟩
def PWS.PWS_CTL_target : Fld := ⟨0x44, 0, 2, .rw, 0x2, false⟩
def PWS.TRIM_CFG_en : Fld := ⟨0x48, 31, 1, .rw, 0x1, false⟩
def PWS.TRIM_CFG_bays : Fld := ⟨0x48, 21, 1, .rw, 0x1, false⟩
def PWS.TRIM_CFG_lanes : Fld := ⟨0x48, 20, 1, .rw, 0x1, false⟩
def PWS.TRIM_CFG_eng_div : Fld := ⟨0x48, 18, 2, .rw, 0x2, false⟩
def PWS.TRIM_CFG_idle_us : Fld := ⟨0x48, 0, 16, .rw, 0x64, false⟩
def PWS.WAKE_GPIO_mask : Fld := ⟨0x4c, 16, 16, .rw, 0x0, false⟩
def PWS.WAKE_GPIO_pol : Fld := ⟨0x4c, 0, 16, .rw, 0x0, false⟩
def PWS.WAKE_SRC_en : Fld := ⟨0x50, 0, 5, .rw, 0x1f, false⟩
def PWS.WAKE_CAUSE_gpio : Fld := ⟨0x54, 16, 16, .ro, 0x0, false⟩
def PWS.WAKE_CAUSE_rule : Fld := ⟨0x54, 8, 6, .ro, 0x0, false⟩
def PWS.WAKE_CAUSE_src : Fld := ⟨0x54, 1, 6, .ro, 0x0, false⟩
def PWS.WAKE_CAUSE_watch : Fld := ⟨0x54, 7, 1, .ro, 0x0, false⟩
def PWS.WAKE_CAUSE_valid : Fld := ⟨0x54, 0, 1, .ro, 0x0, false⟩
def PWS.CELLAR_CFG_ret : Fld := ⟨0x58, 0, 8, .rw, 0x80, false⟩
def PWS.WATCH_STAT_table : Fld := ⟨0x5c, 31, 1, .ro, 0x0, false⟩
def PWS.WATCH_STAT_rules : Fld := ⟨0x5c, 24, 6, .ro, 0x0, false⟩
def PWS.WATCH_STAT_period_ms : Fld := ⟨0x5c, 0, 14, .ro, 0x0, false⟩
def PWS.SLEEP_CNT_sleeps : Fld := ⟨0x60, 16, 16, .rc, 0x0, false⟩
def PWS.SLEEP_CNT_refusals : Fld := ⟨0x60, 0, 16, .rc, 0x0, false⟩
def PWS.WAKE_TIME_us : Fld := ⟨0x64, 0, 24, .ro, 0x0, false⟩
def PWS.WATCH_MARK_marks : Fld := ⟨0x68, 0, 32, .w1c, 0x0, false⟩
/-- The block registers of the page type PWS. -/
def PWS.rows : List FRow :=
  [⟨PWS.PWS_STAT_state, 4, 1⟩, ⟨PWS.PWS_STAT_last_sleep, 4, 1⟩, ⟨PWS.PWS_STAT_refuse, 4, 1⟩, ⟨PWS.PWS_CTL_go, 4, 1⟩, ⟨PWS.PWS_CTL_target, 4, 1⟩, ⟨PWS.TRIM_CFG_en, 4, 1⟩, ⟨PWS.TRIM_CFG_bays, 4, 1⟩, ⟨PWS.TRIM_CFG_lanes, 4, 1⟩, ⟨PWS.TRIM_CFG_eng_div, 4, 1⟩, ⟨PWS.TRIM_CFG_idle_us, 4, 1⟩, ⟨PWS.WAKE_GPIO_mask, 4, 1⟩, ⟨PWS.WAKE_GPIO_pol, 4, 1⟩, ⟨PWS.WAKE_SRC_en, 4, 1⟩, ⟨PWS.WAKE_CAUSE_gpio, 4, 1⟩, ⟨PWS.WAKE_CAUSE_rule, 4, 1⟩, ⟨PWS.WAKE_CAUSE_src, 4, 1⟩, ⟨PWS.WAKE_CAUSE_watch, 4, 1⟩, ⟨PWS.WAKE_CAUSE_valid, 4, 1⟩, ⟨PWS.CELLAR_CFG_ret, 4, 1⟩, ⟨PWS.WATCH_STAT_table, 4, 1⟩, ⟨PWS.WATCH_STAT_rules, 4, 1⟩, ⟨PWS.WATCH_STAT_period_ms, 4, 1⟩, ⟨PWS.SLEEP_CNT_sleeps, 4, 1⟩, ⟨PWS.SLEEP_CNT_refusals, 4, 1⟩, ⟨PWS.WAKE_TIME_us, 4, 1⟩, ⟨PWS.WATCH_MARK_marks, 4, 1⟩]

/-! ### AVS (R454) -/
def AVS.AVS_ENV_v_max : Fld := ⟨0x40, 16, 10, .rw, 0x3c0, true⟩
def AVS.AVS_ENV_v_min : Fld := ⟨0x40, 0, 10, .rw, 0x348, true⟩
def AVS.AVS_SET_v_mv : Fld := ⟨0x44, 0, 10, .rw, 0x384, true⟩
def AVS.AVS_CFG_hold : Fld := ⟨0x48, 31, 1, .rw, 0x0, false⟩
def AVS.AVS_CFG_target : Fld := ⟨0x48, 16, 8, .rw, 0x10, false⟩
def AVS.AVS_CFG_step_mv : Fld := ⟨0x48, 8, 4, .rw, 0x5, false⟩
def AVS.AVS_CFG_ivl_10us : Fld := ⟨0x48, 0, 8, .rw, 0x64, false⟩
def AVS.AVS_STAT_pin : Fld := ⟨0x4c, 31, 1, .w1c, 0x0, false⟩
def AVS.AVS_STAT_slack : Fld := ⟨0x4c, 16, 8, .ro, 0x0, false⟩
def AVS.AVS_STAT_curve_mv : Fld := ⟨0x4c, 0, 10, .ro, 0x398, false⟩
def AVS.AVS_BUS_ok : Fld := ⟨0x50, 31, 1, .ro, 0x0, false⟩
def AVS.AVS_BUS_rail : Fld := ⟨0x50, 0, 4, .rw, 0x0, false⟩
def AVS.AVS_CNT_ups : Fld := ⟨0x54, 16, 16, .rc, 0x0, false⟩
def AVS.AVS_CNT_downs : Fld := ⟨0x54, 0, 16, .rc, 0x0, false⟩
/-- The block registers of the page type AVS. -/
def AVS.rows : List FRow :=
  [⟨AVS.AVS_ENV_v_max, 4, 1⟩, ⟨AVS.AVS_ENV_v_min, 4, 1⟩, ⟨AVS.AVS_SET_v_mv, 4, 1⟩, ⟨AVS.AVS_CFG_hold, 4, 1⟩, ⟨AVS.AVS_CFG_target, 4, 1⟩, ⟨AVS.AVS_CFG_step_mv, 4, 1⟩, ⟨AVS.AVS_CFG_ivl_10us, 4, 1⟩, ⟨AVS.AVS_STAT_pin, 4, 1⟩, ⟨AVS.AVS_STAT_slack, 4, 1⟩, ⟨AVS.AVS_STAT_curve_mv, 4, 1⟩, ⟨AVS.AVS_BUS_ok, 4, 1⟩, ⟨AVS.AVS_BUS_rail, 4, 1⟩, ⟨AVS.AVS_CNT_ups, 4, 1⟩, ⟨AVS.AVS_CNT_downs, 4, 1⟩]

/-! ### HDR (R458) -/
def HDR.PG_ID_type : Fld := ⟨0x0, 16, 16, .ro, 0x0, false⟩
def HDR.PG_ID_instance : Fld := ⟨0x0, 8, 8, .ro, 0x0, false⟩
def HDR.PG_ID_version : Fld := ⟨0x0, 0, 8, .ro, 0x1, false⟩
def HDR.PG_CAP_cap : Fld := ⟨0x4, 0, 32, .ro, 0x0, false⟩
def HDR.PG_CTL_frz : Fld := ⟨0x8, 3, 1, .rw, 0x0, true⟩
def HDR.PG_CTL_lock : Fld := ⟨0x8, 2, 1, .w1s, 0x0, true⟩
def HDR.PG_CTL_srst : Fld := ⟨0x8, 1, 1, .wo, 0x0, true⟩
def HDR.PG_CTL_en : Fld := ⟨0x8, 0, 1, .rw, 0x1, true⟩
def HDR.PG_STAT_fault : Fld := ⟨0xc, 3, 1, .ro, 0x0, false⟩
def HDR.PG_STAT_draining : Fld := ⟨0xc, 2, 1, .ro, 0x0, false⟩
def HDR.PG_STAT_busy : Fld := ⟨0xc, 1, 1, .ro, 0x0, false⟩
def HDR.PG_STAT_ready : Fld := ⟨0xc, 0, 1, .ro, 0x0, false⟩
def HDR.ER_CAP0_valid : Fld := ⟨0x20, 31, 1, .w1c, 0x0, false⟩
def HDR.ER_CAP0_sev : Fld := ⟨0x20, 29, 2, .ro, 0x0, false⟩
def HDR.ER_CAP0_more : Fld := ⟨0x20, 28, 1, .ro, 0x0, false⟩
def HDR.ER_CAP0_code : Fld := ⟨0x20, 0, 8, .ro, 0x0, false⟩
def HDR.ER_CAP1_context : Fld := ⟨0x24, 0, 32, .ro, 0x0, false⟩
def HDR.ER_CAP2_addr_lo : Fld := ⟨0x28, 0, 32, .ro, 0x0, false⟩
def HDR.ER_CAP3_addr_hi : Fld := ⟨0x2c, 0, 32, .ro, 0x0, false⟩
def HDR.ER_CNT_corr : Fld := ⟨0x30, 16, 16, .rc, 0x0, false⟩
def HDR.ER_CNT_uncorr : Fld := ⟨0x30, 0, 16, .rc, 0x0, false⟩
/-- The block registers of the page type HDR. -/
def HDR.rows : List FRow :=
  [⟨HDR.PG_ID_type, 4, 1⟩, ⟨HDR.PG_ID_instance, 4, 1⟩, ⟨HDR.PG_ID_version, 4, 1⟩, ⟨HDR.PG_CAP_cap, 4, 1⟩, ⟨HDR.PG_CTL_frz, 4, 1⟩, ⟨HDR.PG_CTL_lock, 4, 1⟩, ⟨HDR.PG_CTL_srst, 4, 1⟩, ⟨HDR.PG_CTL_en, 4, 1⟩, ⟨HDR.PG_STAT_fault, 4, 1⟩, ⟨HDR.PG_STAT_draining, 4, 1⟩, ⟨HDR.PG_STAT_busy, 4, 1⟩, ⟨HDR.PG_STAT_ready, 4, 1⟩, ⟨HDR.ER_CAP0_valid, 4, 1⟩, ⟨HDR.ER_CAP0_sev, 4, 1⟩, ⟨HDR.ER_CAP0_more, 4, 1⟩, ⟨HDR.ER_CAP0_code, 4, 1⟩, ⟨HDR.ER_CAP1_context, 4, 1⟩, ⟨HDR.ER_CAP2_addr_lo, 4, 1⟩, ⟨HDR.ER_CAP3_addr_hi, 4, 1⟩, ⟨HDR.ER_CNT_corr, 4, 1⟩, ⟨HDR.ER_CNT_uncorr, 4, 1⟩]

/-! ### BAY (R469) -/
def BAY.BAY_STAT_pend : Fld := ⟨0x40, 0, 9, .ro, 0x0, false⟩
/-- The block registers of the page type BAY. -/
def BAY.rows : List FRow :=
  [⟨BAY.BAY_STAT_pend, 4, 1⟩]

/-! ### EVT (R471) -/
def EVT.EVT_CFG_int_en : Fld := ⟨0x40, 31, 1, .rw, 0x1, false⟩
def EVT.EVT_CFG_hold_us : Fld := ⟨0x40, 0, 16, .rw, 0x64, false⟩
def EVT.ACC_ERR_valid : Fld := ⟨0x44, 31, 1, .w1c, 0x0, false⟩
def EVT.ACC_ERR_write : Fld := ⟨0x44, 30, 1, .ro, 0x0, false⟩
def EVT.ACC_ERR_src : Fld := ⟨0x44, 28, 2, .ro, 0x0, false⟩
def EVT.ACC_ERR_byte_en : Fld := ⟨0x44, 24, 4, .ro, 0x0, false⟩
def EVT.ACC_ERR_offset : Fld := ⟨0x44, 0, 21, .ro, 0x0, false⟩
def EVT.ACC_CNT_count : Fld := ⟨0x48, 0, 16, .rc, 0x0, false⟩
def EVT.INT_STAT_int_low : Fld := ⟨0x4c, 0, 1, .ro, 0x0, false⟩
def EVT.PEND_MAP_pend (i : Nat) : Fld := ⟨0x60 + 0x4 * i, 0, 32, .ro, 0x0, false⟩
def EVT.ROUTE_route (i : Nat) : Fld := ⟨0x100 + 0x4 * i, 0, 32, .rw, 0xaaaaaaaa, false⟩
def EVT.PFV_v0 (i : Nat) : Fld := ⟨0x200 + 0x4 * i, 0, 5, .rw, 0x0, false⟩
def EVT.PFV_v1 (i : Nat) : Fld := ⟨0x200 + 0x4 * i, 8, 5, .rw, 0x0, false⟩
def EVT.PFV_v2 (i : Nat) : Fld := ⟨0x200 + 0x4 * i, 16, 5, .rw, 0x0, false⟩
def EVT.PFV_v3 (i : Nat) : Fld := ⟨0x200 + 0x4 * i, 24, 5, .rw, 0x0, false⟩
def EVT.PFQ_STAT_count : Fld := ⟨0x210, 16, 9, .ro, 0x0, false⟩
def EVT.PFQ_STAT_overflow : Fld := ⟨0x210, 0, 16, .rc, 0x0, false⟩
def EVT.PFQ_DATA0_valid : Fld := ⟨0x214, 31, 1, .ro, 0x0, false⟩
def EVT.PFQ_DATA0_chain : Fld := ⟨0x214, 30, 1, .ro, 0x0, false⟩
def EVT.PFQ_DATA0_hub : Fld := ⟨0x214, 24, 6, .ro, 0x0, false⟩
def EVT.PFQ_DATA0_page : Fld := ⟨0x214, 0, 9, .ro, 0x0, false⟩
def EVT.PFQ_DATA1_pend : Fld := ⟨0x218, 0, 32, .ro, 0x0, false⟩
def EVT.PFQ_DATA2_time : Fld := ⟨0x21c, 0, 32, .ro, 0x0, false⟩
/-- The block registers of the page type EVT. -/
def EVT.rows : List FRow :=
  [⟨EVT.EVT_CFG_int_en, 4, 1⟩, ⟨EVT.EVT_CFG_hold_us, 4, 1⟩, ⟨EVT.ACC_ERR_valid, 4, 1⟩, ⟨EVT.ACC_ERR_write, 4, 1⟩, ⟨EVT.ACC_ERR_src, 4, 1⟩, ⟨EVT.ACC_ERR_byte_en, 4, 1⟩, ⟨EVT.ACC_ERR_offset, 4, 1⟩, ⟨EVT.ACC_CNT_count, 4, 1⟩, ⟨EVT.INT_STAT_int_low, 4, 1⟩, ⟨EVT.PEND_MAP_pend 0, 0x4, 16⟩, ⟨EVT.ROUTE_route 0, 0x4, 32⟩, ⟨EVT.PFV_v0 0, 0x4, 3⟩, ⟨EVT.PFV_v1 0, 0x4, 3⟩, ⟨EVT.PFV_v2 0, 0x4, 3⟩, ⟨EVT.PFV_v3 0, 0x4, 3⟩, ⟨EVT.PFQ_STAT_count, 4, 1⟩, ⟨EVT.PFQ_STAT_overflow, 4, 1⟩, ⟨EVT.PFQ_DATA0_valid, 4, 1⟩, ⟨EVT.PFQ_DATA0_chain, 4, 1⟩, ⟨EVT.PFQ_DATA0_hub, 4, 1⟩, ⟨EVT.PFQ_DATA0_page, 4, 1⟩, ⟨EVT.PFQ_DATA1_pend, 4, 1⟩, ⟨EVT.PFQ_DATA2_time, 4, 1⟩]

/-! ### TMR (R472) -/
def TMR.TICK_tick : Fld := ⟨0x40, 0, 32, .roc, 0x0, false⟩
def TMR.TMR_CFG_en (i : Nat) : Fld := ⟨0x80 + 0x20 * i, 31, 1, .rw, 0x0, true⟩
def TMR.TMR_CFG_periodic (i : Nat) : Fld := ⟨0x80 + 0x20 * i, 30, 1, .rw, 0x0, false⟩
def TMR.TMR_CFG_ct_align (i : Nat) : Fld := ⟨0x80 + 0x20 * i, 29, 1, .rw, 0x0, false⟩
def TMR.TMR_CFG_period_us (i : Nat) : Fld := ⟨0x80 + 0x20 * i, 0, 24, .rw, 0x0, false⟩
def TMR.TMR_CNT_remain (i : Nat) : Fld := ⟨0x84 + 0x20 * i, 0, 24, .ro, 0x0, false⟩
def TMR.TMR_START_LO_start_lo (i : Nat) : Fld := ⟨0x88 + 0x20 * i, 0, 32, .rw, 0x0, false⟩
def TMR.TMR_START_HI_start_hi (i : Nat) : Fld := ⟨0x8c + 0x20 * i, 0, 32, .rw, 0x0, false⟩
def TMR.TMR_EXP_expiries (i : Nat) : Fld := ⟨0x90 + 0x20 * i, 16, 16, .rc, 0x0, false⟩
def TMR.TMR_EXP_skipped (i : Nat) : Fld := ⟨0x90 + 0x20 * i, 0, 16, .rc, 0x0, false⟩
/-- The block registers of the page type TMR. -/
def TMR.rows : List FRow :=
  [⟨TMR.TICK_tick, 4, 1⟩, ⟨TMR.TMR_CFG_en 0, 0x20, 4⟩, ⟨TMR.TMR_CFG_periodic 0, 0x20, 4⟩, ⟨TMR.TMR_CFG_ct_align 0, 0x20, 4⟩, ⟨TMR.TMR_CFG_period_us 0, 0x20, 4⟩, ⟨TMR.TMR_CNT_remain 0, 0x20, 4⟩, ⟨TMR.TMR_START_LO_start_lo 0, 0x20, 4⟩, ⟨TMR.TMR_START_HI_start_hi 0, 0x20, 4⟩, ⟨TMR.TMR_EXP_expiries 0, 0x20, 4⟩, ⟨TMR.TMR_EXP_skipped 0, 0x20, 4⟩]

/-! ### events of TRK -/
def TRK.ev_link_up : Ev := ⟨0, none⟩
def TRK.ev_link_down : Ev := ⟨1, some .function⟩
def TRK.ev_lane_lost : Ev := ⟨2, some .corrected⟩
def TRK.ev_lane_ready : Ev := ⟨3, none⟩
def TRK.ev_lane_rejoin : Ev := ⟨4, none⟩
def TRK.ev_recover : Ev := ⟨5, some .corrected⟩
def TRK.ev_train_fail : Ev := ⟨6, some .function⟩
def TRK.ev_eq_pinned : Ev := ⟨7, none⟩
def TRK.ev_beacon_rx : Ev := ⟨8, none⟩
def TRK.ev_beacon_unanswered : Ev := ⟨9, none⟩
def TRK.ev_sb_err : Ev := ⟨10, none⟩
def TRK.ev_cc_attach : Ev := ⟨11, none⟩
def TRK.ev_cc_detach : Ev := ⟨12, none⟩
def TRK.ev_cfg_err : Ev := ⟨13, none⟩
def TRK.evBits : List Nat := [0, 1, 2, 3, 4, 5, 6, 7, 8, 9, 10, 11, 12, 13]

/-! ### events of LNK -/
def LNK.ev_hop_crc : Ev := ⟨0, some .corrected⟩
def LNK.ev_nak_tx : Ev := ⟨1, some .corrected⟩
def LNK.ev_nak_rx : Ev := ⟨2, some .corrected⟩
def LNK.ev_replay : Ev := ⟨3, some .corrected⟩
def LNK.ev_replay_limit : Ev := ⟨4, some .corrected⟩
def LNK.ev_status_tmo : Ev := ⟨5, some .corrected⟩
def LNK.ev_ack_err : Ev := ⟨6, some .corrected⟩
def LNK.ev_credit_err : Ev := ⟨7, some .contained⟩
def LNK.ev_hdr_err : Ev := ⟨8, some .contained⟩
def LNK.ev_e2e_transit : Ev := ⟨9, some .contained⟩
def LNK.ev_e2e_egress : Ev := ⟨10, some .contained⟩
def LNK.ev_rsq_gap : Ev := ⟨11, some .contained⟩
def LNK.ev_p1_err : Ev := ⟨12, some .corrected⟩
def LNK.ev_cfg_err : Ev := ⟨13, none⟩
def LNK.evBits : List Nat := [0, 1, 2, 3, 4, 5, 6, 7, 8, 9, 10, 11, 12, 13]

/-! ### events of CHN -/
def CHN.ev_enum_done : Ev := ⟨0, none⟩
def CHN.ev_enum_fail : Ev := ⟨1, some .function⟩
def CHN.ev_hub_added : Ev := ⟨2, none⟩
def CHN.ev_hub_lost : Ev := ⟨3, some .function⟩
def CHN.ev_hb_miss : Ev := ⟨4, none⟩
def CHN.ev_home_lost : Ev := ⟨5, none⟩
def CHN.ev_rehomed : Ev := ⟨6, none⟩
def CHN.ev_handover_won : Ev := ⟨7, none⟩
def CHN.ev_handover_lost : Ev := ⟨8, none⟩
def CHN.ev_boundary_hop : Ev := ⟨9, none⟩
def CHN.ev_chain_overlong : Ev := ⟨10, none⟩
def CHN.ev_p1200_seen : Ev := ⟨11, none⟩
def CHN.ev_gasp_tx : Ev := ⟨12, none⟩
def CHN.ev_gasp_rx : Ev := ⟨13, none⟩
def CHN.ev_cmd_done : Ev := ⟨14, none⟩
def CHN.ev_cmd_fail : Ev := ⟨15, none⟩
def CHN.evBits : List Nat := [0, 1, 2, 3, 4, 5, 6, 7, 8, 9, 10, 11, 12, 13, 14, 15]

/-! ### events of CTIM -/
def CTIM.ev_lock : Ev := ⟨0, none⟩
def CTIM.ev_unlock : Ev := ⟨1, none⟩
def CTIM.ev_free_run : Ev := ⟨2, none⟩
def CTIM.ev_step : Ev := ⟨3, none⟩
def CTIM.ev_epoch_change : Ev := ⟨4, none⟩
def CTIM.evBits : List Nat := [0, 1, 2, 3, 4]

/-! ### events of SWC -/
def SWC.ev_core_cap : Ev := ⟨0, none⟩
def SWC.ev_no_route : Ev := ⟨1, some .contained⟩
def SWC.ev_flush : Ev := ⟨2, some .contained⟩
def SWC.ev_stale_gen : Ev := ⟨3, none⟩
def SWC.evBits : List Nat := [0, 1, 2, 3]

/-! ### events of GRN -/
def GRN.ev_q_reset : Ev := ⟨0, some .contained⟩
def GRN.ev_ecc_corr : Ev := ⟨1, some .corrected⟩
def GRN.ev_ecc_unc : Ev := ⟨2, some .contained⟩
def GRN.ev_e_drop : Ev := ⟨3, none⟩
def GRN.ev_pkt_long : Ev := ⟨4, some .contained⟩
def GRN.ev_plc_pinned : Ev := ⟨5, none⟩
def GRN.ev_acct_err : Ev := ⟨6, some .corrected⟩
def GRN.ev_reserve_short : Ev := ⟨7, none⟩
def GRN.ev_cfg_err : Ev := ⟨8, none⟩
def GRN.evBits : List Nat := [0, 1, 2, 3, 4, 5, 6, 7, 8]

/-! ### events of TUN -/
def TUN.ev_refused : Ev := ⟨0, none⟩
def TUN.ev_tun_done : Ev := ⟨1, none⟩
def TUN.ev_tun_fail : Ev := ⟨2, none⟩
def TUN.ev_tun_set : Ev := ⟨3, none⟩
def TUN.evBits : List Nat := [0, 1, 2, 3]

/-! ### events of SCH -/
def SCH.ev_swap : Ev := ⟨0, none⟩
def SCH.ev_tbl_drop : Ev := ⟨1, none⟩
def SCH.ev_tbl_base : Ev := ⟨2, none⟩
def SCH.ev_tbl_late : Ev := ⟨3, none⟩
def SCH.ev_cal_rebuild : Ev := ⟨4, none⟩
def SCH.ev_g_overrun : Ev := ⟨5, none⟩
def SCH.evBits : List Nat := [0, 1, 2, 3, 4, 5]

/-! ### events of ALT -/
def ALT.ev_lead_change : Ev := ⟨0, none⟩
def ALT.ev_g_suspend : Ev := ⟨1, none⟩
def ALT.ev_g_resume : Ev := ⟨2, none⟩
def ALT.ev_e_pinned : Ev := ⟨3, none⟩
def ALT.ev_hop_pinned : Ev := ⟨4, none⟩
def ALT.ev_rpt_miss : Ev := ⟨5, none⟩
def ALT.ev_rpt_late : Ev := ⟨6, none⟩
def ALT.ev_cfg_err : Ev := ⟨7, none⟩
def ALT.evBits : List Nat := [0, 1, 2, 3, 4, 5, 6, 7]

/-! ### events of XBR -/
def XBR.ev_cpl_tmo : Ev := ⟨0, some .contained⟩
def XBR.ev_late_cpl : Ev := ⟨1, some .contained⟩
def XBR.ev_unexp_cpl : Ev := ⟨2, some .contained⟩
def XBR.ev_tkt_stale : Ev := ⟨3, some .contained⟩
def XBR.ev_slot_discard : Ev := ⟨4, some .contained⟩
def XBR.ev_np_retry : Ev := ⟨5, none⟩
def XBR.ev_fmt_err : Ev := ⟨6, some .contained⟩
def XBR.ev_cfg_err : Ev := ⟨7, none⟩
def XBR.evBits : List Nat := [0, 1, 2, 3, 4, 5, 6, 7]

/-! ### events of PXB -/
def PXB.ev_window_miss : Ev := ⟨0, some .contained⟩
def PXB.ev_master_retry : Ev := ⟨1, none⟩
def PXB.ev_crossing : Ev := ⟨2, none⟩
def PXB.ev_px_timeout : Ev := ⟨3, some .contained⟩
def PXB.ev_pxint : Ev := ⟨4, none⟩
def PXB.evBits : List Nat := [0, 1, 2, 3, 4]

/-! ### events of ERL -/
def ERL.ev_entry : Ev := ⟨0, none⟩
def ERL.ev_overflow : Ev := ⟨1, some .contained⟩
def ERL.evBits : List Nat := [0, 1]

/-! ### events of VHG -/
def VHG.ev_cmd_done : Ev := ⟨0, none⟩
def VHG.ev_refused : Ev := ⟨1, none⟩
def VHG.ev_gen_nak : Ev := ⟨2, none⟩
def VHG.ev_disable_done : Ev := ⟨3, none⟩
def VHG.ev_freeze_done : Ev := ⟨4, none⟩
def VHG.ev_save_done : Ev := ⟨5, none⟩
def VHG.ev_restore_done : Ev := ⟨6, none⟩
def VHG.ev_img_err : Ev := ⟨7, some .function⟩
def VHG.evBits : List Nat := [0, 1, 2, 3, 4, 5, 6, 7]

/-! ### events of VHC -/
def VHC.ev_eq_entry : Ev := ⟨0, none⟩
def VHC.ev_rd_limit : Ev := ⟨1, none⟩
def VHC.ev_frozen : Ev := ⟨2, none⟩
def VHC.ev_gen_changed : Ev := ⟨3, none⟩
def VHC.ev_wr_err : Ev := ⟨4, none⟩
def VHC.ev_eq_overflow : Ev := ⟨5, none⟩
def VHC.evBits : List Nat := [0, 1, 2, 3, 4, 5]

/-! ### events of ENC -/
def ENC.ev_set_done : Ev := ⟨0, none⟩
def ENC.ev_bad_rect : Ev := ⟨1, none⟩
def ENC.ev_fetch_err : Ev := ⟨2, none⟩
def ENC.evBits : List Nat := [0, 1, 2]

/-! ### events of LOFT -/
def LOFT.ev_cmd_done : Ev := ⟨0, none⟩
def LOFT.ev_refused : Ev := ⟨1, none⟩
def LOFT.ev_dec_err : Ev := ⟨2, some .contained⟩
def LOFT.ev_ecc_corr : Ev := ⟨3, some .corrected⟩
def LOFT.ev_ecc_unc : Ev := ⟨4, some .contained⟩
def LOFT.evBits : List Nat := [0, 1, 2, 3, 4]

/-! ### events of STG -/
def STG.ev_set_commit : Ev := ⟨0, none⟩
def STG.ev_set_drop : Ev := ⟨1, some .contained⟩
def STG.ev_chk_err : Ev := ⟨2, some .contained⟩
def STG.ev_no_loft : Ev := ⟨3, none⟩
def STG.ev_flip : Ev := ⟨4, none⟩
def STG.evBits : List Nat := [0, 1, 2, 3, 4]

/-! ### events of DISP -/
def DISP.ev_frame : Ev := ⟨0, none⟩
def DISP.ev_locked : Ev := ⟨1, none⟩
def DISP.ev_lock_lost : Ev := ⟨2, none⟩
def DISP.ev_plug : Ev := ⟨3, none⟩
def DISP.ev_unplug : Ev := ⟨4, none⟩
def DISP.ev_hpd_irq : Ev := ⟨5, none⟩
def DISP.ev_lt_done : Ev := ⟨6, none⟩
def DISP.ev_lt_fail : Ev := ⟨7, some .function⟩
def DISP.ev_edid_err : Ev := ⟨8, none⟩
def DISP.ev_lock_pinned : Ev := ⟨9, none⟩
def DISP.ev_start_refused : Ev := ⟨10, none⟩
def DISP.evBits : List Nat := [0, 1, 2, 3, 4, 5, 6, 7, 8, 9, 10]

/-! ### events of FRZ -/
def FRZ.ev_viol (i : Nat) : Ev := ⟨0 + i, none⟩
def FRZ.ev_clear (i : Nat) : Ev := ⟨8 + i, none⟩
def FRZ.ev_wd_viol : Ev := ⟨16, none⟩
def FRZ.ev_wd_clear : Ev := ⟨17, none⟩
def FRZ.ev_cfg_err : Ev := ⟨18, none⟩
def FRZ.evBits : List Nat := [0, 1, 2, 3, 4, 5, 6, 7, 8, 9, 10, 11, 12, 13, 14, 15, 16, 17, 18]

/-! ### events of USB -/
def USB.ev_rwake : Ev := ⟨0, none⟩
def USB.ev_iso_overrun : Ev := ⟨1, some .contained⟩
def USB.ev_iso_late : Ev := ⟨2, some .contained⟩
def USB.ev_iso_lost : Ev := ⟨3, some .contained⟩
def USB.ev_dma_err : Ev := ⟨4, some .contained⟩
def USB.ev_hse : Ev := ⟨5, some .function⟩
def USB.ev_bw_refused : Ev := ⟨6, none⟩
def USB.evBits : List Nat := [0, 1, 2, 3, 4, 5, 6]

/-! ### events of SVC -/
def SVC.ev_attach : Ev := ⟨0, none⟩
def SVC.ev_detach : Ev := ⟨1, none⟩
def SVC.ev_bus_reset : Ev := ⟨2, none⟩
def SVC.ev_ctl_abort : Ev := ⟨3, none⟩
def SVC.ev_configured : Ev := ⟨4, none⟩
def SVC.ev_suspend : Ev := ⟨5, none⟩
def SVC.ev_resume : Ev := ⟨6, none⟩
def SVC.evBits : List Nat := [0, 1, 2, 3, 4, 5, 6]

/-! ### events of ETH -/
def ETH.ev_link_up : Ev := ⟨0, none⟩
def ETH.ev_link_down : Ev := ⟨1, none⟩
def ETH.ev_an_done : Ev := ⟨2, none⟩
def ETH.ev_pause_rx : Ev := ⟨3, none⟩
def ETH.ev_rx_ovf : Ev := ⟨4, some .contained⟩
def ETH.ev_tx_abort : Ev := ⟨5, some .contained⟩
def ETH.ev_hp_bad : Ev := ⟨6, some .contained⟩
def ETH.evBits : List Nat := [0, 1, 2, 3, 4, 5, 6]

/-! ### events of PCIE -/
def PCIE.ev_link_up : Ev := ⟨0, none⟩
def PCIE.ev_link_down : Ev := ⟨1, some .function⟩
def PCIE.ev_dev_err : Ev := ⟨2, some .contained⟩
def PCIE.ev_bar_fail : Ev := ⟨3, some .function⟩
def PCIE.ev_park_drop : Ev := ⟨4, some .contained⟩
def PCIE.evBits : List Nat := [0, 1, 2, 3, 4]

/-! ### events of TC -/
def TC.ev_attach : Ev := ⟨0, none⟩
def TC.ev_detach : Ev := ⟨1, none⟩
def TC.ev_det_transition : Ev := ⟨2, none⟩
def TC.ev_contract : Ev := ⟨3, none⟩
def TC.ev_contract_fail : Ev := ⟨4, none⟩
def TC.ev_hard_reset : Ev := ⟨5, none⟩
def TC.ev_collision : Ev := ⟨6, none⟩
def TC.ev_swap : Ev := ⟨7, none⟩
def TC.ev_wet : Ev := ⟨8, none⟩
def TC.ev_dry : Ev := ⟨9, none⟩
def TC.ev_alt_enter : Ev := ⟨10, none⟩
def TC.ev_alt_exit : Ev := ⟨11, none⟩
def TC.ev_hpd : Ev := ⟨12, none⟩
def TC.ev_cable_found : Ev := ⟨13, none⟩
def TC.ev_vconn_err : Ev := ⟨14, some .function⟩
def TC.ev_hook_tmo : Ev := ⟨15, some .contained⟩
def TC.evBits : List Nat := [0, 1, 2, 3, 4, 5, 6, 7, 8, 9, 10, 11, 12, 13, 14, 15]

/-! ### events of PWP -/
def PWP.ev_a_warn : Ev := ⟨0, none⟩
def PWP.ev_a_ok : Ev := ⟨1, none⟩
def PWP.ev_b_warn : Ev := ⟨2, none⟩
def PWP.ev_b_ok : Ev := ⟨3, none⟩
def PWP.ev_pg_up : Ev := ⟨4, none⟩
def PWP.ev_pg_down : Ev := ⟨5, none⟩
def PWP.ev_ef_limit : Ev := ⟨6, none⟩
def PWP.ev_ef_fault : Ev := ⟨7, some .function⟩
def PWP.ev_fast_trip : Ev := ⟨8, some .function⟩
def PWP.ev_prechg_tmo : Ev := ⟨9, some .function⟩
def PWP.ev_ov : Ev := ⟨10, some .function⟩
def PWP.ev_retry : Ev := ⟨11, none⟩
def PWP.ev_latched : Ev := ⟨12, some .function⟩
def PWP.evBits : List Nat := [0, 1, 2, 3, 4, 5, 6, 7, 8, 9, 10, 11, 12]

/-! ### events of HVD -/
def HVD.ev_link_lost : Ev := ⟨0, some .function⟩
def HVD.ev_link_back : Ev := ⟨1, none⟩
def HVD.ev_link_crc : Ev := ⟨2, none⟩
def HVD.ev_thermal_warn : Ev := ⟨3, none⟩
def HVD.ev_thermal_sd : Ev := ⟨4, some .function⟩
def HVD.evBits : List Nat := [0, 1, 2, 3, 4]

/-! ### events of VBS -/
def VBS.ev_on : Ev := ⟨0, none⟩
def VBS.ev_off : Ev := ⟨1, none⟩
def VBS.ev_held : Ev := ⟨2, none⟩
def VBS.ev_trip : Ev := ⟨3, some .function⟩
def VBS.ev_disch_done : Ev := ⟨4, none⟩
def VBS.ev_disch_fail : Ev := ⟨5, some .function⟩
def VBS.ev_trim_pinned : Ev := ⟨6, none⟩
def VBS.evBits : List Nat := [0, 1, 2, 3, 4, 5, 6]

/-! ### events of ENG -/
def ENG.ev_mb_done (i : Nat) : Ev := ⟨0 + i, none⟩
def ENG.ev_restart (i : Nat) : Ev := ⟨4 + i, none⟩
def ENG.ev_wdg (i : Nat) : Ev := ⟨8 + i, some .function⟩
def ENG.ev_update : Ev := ⟨12, none⟩
def ENG.ev_table_err : Ev := ⟨13, some .function⟩
def ENG.evBits : List Nat := [0, 1, 2, 3, 4, 5, 6, 7, 8, 9, 10, 11, 12, 13]

/-! ### events of LRD -/
def LRD.ev_upd_ok : Ev := ⟨0, none⟩
def LRD.ev_upd_fail : Ev := ⟨1, some .contained⟩
def LRD.ev_swept : Ev := ⟨2, none⟩
def LRD.ev_hop_unprot : Ev := ⟨3, none⟩
def LRD.ev_mac_fail : Ev := ⟨4, some .contained⟩
def LRD.ev_gate_closed : Ev := ⟨5, none⟩
def LRD.ev_debug : Ev := ⟨6, none⟩
def LRD.evBits : List Nat := [0, 1, 2, 3, 4, 5, 6]

/-! ### events of GLB -/
def GLB.ev_boot_done : Ev := ⟨0, none⟩
def GLB.ev_boot_err : Ev := ⟨1, some .function⟩
def GLB.ev_strap_fault : Ev := ⟨2, none⟩
def GLB.ev_thermal_warn : Ev := ⟨3, none⟩
def GLB.evBits : List Nat := [0, 1, 2, 3]

/-! ### events of CLK -/
def CLK.ev_frq_pinned : Ev := ⟨0, none⟩
def CLK.ev_step : Ev := ⟨1, none⟩
def CLK.ev_guard : Ev := ⟨2, none⟩
def CLK.ev_cfg_err : Ev := ⟨3, none⟩
def CLK.evBits : List Nat := [0, 1, 2, 3]

/-! ### events of PWS -/
def PWS.ev_armed : Ev := ⟨0, none⟩
def PWS.ev_woke : Ev := ⟨1, none⟩
def PWS.ev_refused : Ev := ⟨2, none⟩
def PWS.ev_trim_enter : Ev := ⟨3, none⟩
def PWS.ev_trim_exit : Ev := ⟨4, none⟩
def PWS.evBits : List Nat := [0, 1, 2, 3, 4]

/-! ### events of AVS -/
def AVS.ev_slack_low : Ev := ⟨0, none⟩
def AVS.ev_pinned : Ev := ⟨1, none⟩
def AVS.ev_bus_err : Ev := ⟨2, none⟩
def AVS.ev_cfg_err : Ev := ⟨3, none⟩
def AVS.evBits : List Nat := [0, 1, 2, 3]

/-! ### events of EVT -/
def EVT.ev_acc_err : Ev := ⟨0, some .contained⟩
def EVT.ev_pfq_ovf : Ev := ⟨1, some .contained⟩
def EVT.evBits : List Nat := [0, 1]

/-! ### events of TMR -/
def TMR.ev_expire (i : Nat) : Ev := ⟨0 + i, none⟩
def TMR.evBits : List Nat := [0, 1, 2, 3]

end Sys2Proof.Machine
end

