-- ==== Sys2Proof/Machine/Resets.lean ====
section
/-!
DEFINITION. Sys2Proof/Machine/Resets.lean: the strap modes, the page numbers (R457), and the reset values that depend on the strap
mode, on the place of a page or on an account (R148, R378, R471).
-/
namespace Sys2Proof.Machine

open Sys2Proof

/-- The mode that the MODE straps select (R14). -/
inductive Mode where
  | hub | head | standalone | reserved
deriving DecidableEq, Repr

/-! ### Page numbers (R457) -/

def Port.idx : Port → Nat
  | .tu => 0
  | .td => 1

def Port.other : Port → Port
  | .tu => .td
  | .td => .tu

namespace Pg
def glb : Nat := 0x000
def clk : Nat := 0x001
def pws : Nat := 0x002
def avs : Nat := 0x003
def eng (k : Nat) : Nat := 0x008 + k
def trk (p : Port) : Nat := 0x010 + Port.idx p
def lnk (p : Port) : Nat := 0x012 + Port.idx p
def chn : Nat := 0x014
def ctim : Nat := 0x015
def swc : Nat := 0x020
def grn : Nat := 0x021
def sch : Nat := 0x022
def alt : Nat := 0x023
def tun0 : Nat := 0x024
def tun1 : Nat := 0x025
def xbr : Nat := 0x030
def pxb : Nat := 0x031
def erl : Nat := 0x032
def vhg : Nat := 0x040
def vhc (v : Nat) : Nat := 0x080 + v
def bay (n : Nat) : Nat := 0x100 + 0x10 * n
def disp (n : Nat) : Nat := 0x101 + 0x10 * n
def frz (n : Nat) : Nat := 0x102 + 0x10 * n
def usb (n : Nat) : Nat := 0x103 + 0x10 * n
def eth (n : Nat) : Nat := 0x104 + 0x10 * n
def pcie (n : Nat) : Nat := 0x105 + 0x10 * n
def tc (n : Nat) : Nat := 0x106 + 0x10 * n
def vbs (n : Nat) : Nat := 0x107 + 0x10 * n
def stg (n : Nat) : Nat := 0x108 + 0x10 * n
def loft : Nat := 0x140
def enc : Nat := 0x141
def pwp : Nat := 0x150
def hvd : Nat := 0x151
def lrd : Nat := 0x160
def fus : Nat := 0x161
def evt : Nat := 0x170
def tmr : Nat := 0x171
def svc : Nat := 0x180
/-- The counters behind SWC.CNT_SEL, the wait histograms behind SCH.WH_SEL and the register sets of functions are kept under page numbers
beyond the map: they are no pages of the part. -/
def cnt (p : Nat) : Nat := 0x200 + p
def wait (p c : Nat) : Nat := 0x210 + 2 * p + c
def present (k : Nat) : Nat := 0x400 + k
def nic (k : Nat) : Nat := 0x800 + k
end Pg

/-! ### Reset values that are not one constant -/

/-- The MODE strap code (R14). -/
def modeCode : Mode → Nat
  | .hub => 0
  | .head => 1
  | .standalone => 2
  | .reserved => 3

/-- Registers whose reset value depends on the place or on the strap mode: page, field, value. -/
def resetEntries (m : Mode) : List (Nat × Fld × Nat) :=
  [ (Pg.glb, GLB.GLB_STAT_mode, modeCode m),
    (Pg.trk .tu, TRK.PORT_CFG_port_en, if m = .hub ∨ m = .head then 1 else 0),
    (Pg.trk .td, TRK.PORT_CFG_port_en, if m = .hub ∨ m = .head then 1 else 0),
    (Pg.trk .td, TRK.PORT_STAT_role, 1),
    (Pg.trk .td, TRK.TTC_CFG_cc_role, 1),
    (Pg.chn, CHN.CHN_STAT_part_role, match m with | .hub => 0 | .head => 1 | .standalone => 3 | .reserved => 3) ] ++
  [4, 5, 6, 7].flatMap (fun a => [(Pg.grn, GRN.LIMITS_floor a, 0x0400), (Pg.grn, GRN.LIMITS_ceiling a, 0x2000), (Pg.grn, GRN.RES_reserve a, 0x0400)]) ++
  [ (Pg.grn, GRN.LIMITS_floor 8, 0x0100), (Pg.grn, GRN.LIMITS_ceiling 8, 0x0800), (Pg.grn, GRN.RES_reserve 8, 0x0100) ] ++
  (if m = .head then [(Pg.grn, GRN.LIMITS_floor 9, 0x0800), (Pg.grn, GRN.LIMITS_ceiling 9, 0x2000), (Pg.grn, GRN.RES_reserve 9, 0x0800)] else []) ++
  (List.range 8).flatMap (fun p => [(Pg.grn, GRN.THR_mark (4 * p + 1), 0x0040), (Pg.grn, GRN.THR_mark (4 * p + 2), 0x0080),
    (Pg.grn, GRN.THR_mark (4 * p + 3), 0x0040), (Pg.grn, GRN.THR_drop (4 * p + 3), 0x0200)]) ++
  [ (Pg.evt, EVT.PFV_v1 0, 1), (Pg.evt, EVT.PFV_v2 0, 2), (Pg.evt, EVT.PFV_v3 0, 3), (Pg.evt, EVT.PFV_v0 1, 4), (Pg.evt, EVT.PFV_v1 1, 5),
    (Pg.evt, EVT.PFV_v2 1, 6), (Pg.evt, EVT.PFV_v3 1, 7), (Pg.evt, EVT.PFV_v0 2, 8), (Pg.evt, EVT.PFV_v1 2, 9), (Pg.evt, EVT.PFV_v2 2, 10) ] ++
  (if m = .standalone ∨ m = .reserved then (List.range 32).map (fun k => (Pg.evt, EVT.ROUTE_route k, 0x55555555)) else [])

/-- The foldback curve of the eFuse at reset (R365) and the cooldown curve (R369): points x, y. -/
def resetCurves : List (Nat × Nat) × List (Nat × Nat) := ([(0, 256), (120, 256), (240, 128), (480, 64), (720, 64), (720, 64), (720, 64), (720, 64)],
  [(0, 100), (100, 200), (1000, 1000), (5000, 6000), (5000, 6000), (5000, 6000), (5000, 6000), (5000, 6000)])

/-- Reset values of the companion die's pages that are not one constant (R378). -/
def companionEntries : List (Nat × Fld × Nat) :=
  [ (Pg.pwp, PWP.FEED_CFG_used 0, 1) ] ++
  (List.range resetCurves.1.length).flatMap (fun k => match resetCurves.1[k]? with
    | some (x, y) => [(Pg.pwp, PWP.FBK_vds k, x), (Pg.pwp, PWP.FBK_frac k, y)]
    | none => []) ++
  (List.range resetCurves.2.length).flatMap (fun k => match resetCurves.2[k]? with
    | some (x, y) => [(Pg.pwp, PWP.CDN_e k, x), (Pg.pwp, PWP.CDN_t k, y)]
    | none => [])

/-- The fuses of the part that the model starts from (DESIGN CHOICE, log entry 3): a P4816, stepping A1, every other fuse 0. -/
def fuseEntries : List (Nat × Fld × Nat) :=
  [ (Pg.fus, FUS.PART_part, 0x01), (Pg.fus, FUS.PART_stepping, 0x01) ]

/-- A store that holds given entries, beside one it starts from. -/
def Store.hold (l : List (Nat × Fld × Nat)) (st : Store) : Store :=
  l.foldl (fun r e => if e.2.2 = e.2.1.rst then Tab.del (fkey e.1 e.2.1) r else Tab.put (fkey e.1 e.2.1) e.2.2 r) st

end Sys2Proof.Machine
end

