-- ==== Sys2Proof/Machine/State.lean ====
section
/-!
DEFINITION. Sys2Proof/Machine/State.lean: the state of the part (one P4816 or P4808 in any strap mode) as plain data. Register
fields are held in one sparse table by (page, offset, bit); everything the spec gives the part beside its registers (queues,
replay stores, contexts, slots, running timers, pins driven) stands in the structures below. `State.reset` is the part after the
release of a power-on reset.
-/
namespace Sys2Proof.Machine

open Sys2Proof

/-- Reasons for which the part would stop: the spec names none. Every error it describes is reported in a register, by an event or
by a completion, and the part goes on. -/
inductive Fault where
deriving DecidableEq, Repr

/-- Reasons for which a command has no meaning. -/
inductive Refusal where
  /-- The dispatcher raises it for a command that has no meaning yet. Safe: nothing is claimed of such a command. -/
  | notModelled (mnemonic : String)
deriving DecidableEq, Repr

/-- Whether the main die runs, is held in reset, or sleeps (R424, R448). -/
inductive Life where
  | running | inReset | p2 | p3
deriving DecidableEq, Repr

/-! ### What the part sends -/

/-- How an egress spoils a packet (R72, R80): an Ethernet frame ends with its FCS inverted; a TLP is nullified, with EDB and an inverted LCRC; a USB 2.0 packet ends with a
bit-stuff error, a SuperSpeed one with its CRC inverted; a tile is not committed; an operation is not performed; a TLP goes with EP set; a USB transfer ends in error. -/
inductive Spoil where
  | fcs | nullified | usbCrc | tile | unperformed | ep | usbError
deriving DecidableEq, Repr

/-- Everything that leaves the part, in the order in which it leaves. -/
inductive Output where
  /-- A register access completes on its path with data (R455). -/
  | busData (p : Path) (addr v : Nat)
  /-- A register access completes with an error on its path (R456). -/
  | busError (p : Path) (addr : Nat)
  /-- A sideband frame between its delimiters, with the line that carries it: 0 the ball SB_TX, 1 SBU1, 2 SBU2 (R36, R37, R53). -/
  | sideband (p : Port) (line : Nat) (f : SbFrame)
  /-- A training frame with the hop page it carries, or a reply in one (R39, R45). -/
  | training (p : Port) (what : Nat) (payload : List Byte)
  /-- A cell leaves on a trunk hop, every byte of it (R62, R87), and what of it each pair of the connector carries (R30, R53, R84). -/
  | wire (p : Port) (bytes : List Byte) (pairs : List (Nat × List Byte))
  /-- A packet is handed to the function that a local egress serves (R130): egress port code of R124. -/
  | deliver (port : Nat) (cells : List Cell)
  /-- A packet leaves its egress spoiled, after a failed E2E check or poisoned, in the egress's own way (R72, R80). -/
  | spoiled (port : Nat) (how : Spoil) (cells : List Cell)
  /-- A posted write to host memory with the Requester ID of a function: 0 the PF, n + 1 VHC n (R215). -/
  | hostWrite (rid addr : Nat) (data : List Byte)
  /-- A read of host memory is issued on the host link (R215). -/
  | hostRead (rid addr len tag : Nat)
  /-- A completion to the host, status 0 SC, 1 UR, 2 CA, 3 CRS (R214, R226). -/
  | hostCpl (vhc : Nat) (status : Nat) (data : List Byte)
  /-- An MSI-X message of function rid (0 the PF, n + 1 VHC n). -/
  | msix (rid vec : Nat)
  /-- A pin or an output of either die changes: its name and its new level or value. -/
  | pin (name : String) (v : Nat)
  /-- A message of the PD protocol leaves a bay's CC line. -/
  | pd (bay : Nat) (msg : String) (data : List Nat)
  /-- Something a bay's bus, link or display output carries: bay, what, and its numbers. -/
  | bay (bay : Nat) (what : String) (args : List Nat)
  /-- A frame leaves a bay's Ethernet MAC; `good` is false when it ends with the FCS inverted (R72, R315). -/
  | frame (bay : Nat) (data : List Byte) (good : Bool)
  /-- A cycle that the bridge runs or serves on the PX bus. -/
  | px (what : String) (args : List Nat)
  /-- A transaction handed to the SPI flash: what, address, data (R388, R401). -/
  | flash (what : String) (addr : Nat) (data : List Byte)
  /-- A reply in a mailbox, on the service port or to a firmware engine, or a report of hub firmware that no register holds. -/
  | note (what : String) (args : List Nat)
deriving DecidableEq, Repr

/-! ### Trunk ports (02_trunk_lanes.md) -/

/-- A hop page (R37): modes allowed (bit 3 G2 … bit 0 P1), lanes (bit 0 L0 rx, 1 L1 rx, 2 L0 tx, 3 L1 tx usable), whether the sender is a
head, its media code and page sequence. -/
structure HopPage where
  modes : Nat
  lanes : Nat
  head  : Bool
  media : Nat
  seq   : Nat
deriving DecidableEq, Repr

/-- What R40 selects: the mode code of R37 and the lane sets of this end. -/
structure HopSel where
  mode : Nat
  txl  : Nat
  rxl  : Nat
deriving DecidableEq, Repr

/-- The state of a trunk port beside its TRK page. -/
structure Trunk where
  /-- The resolved medium: media code 1–4, 0 while none is resolved (R34). -/
  medium    : Nat := 0
  /-- The 200 ms window of R34 is open. -/
  autoWin   : Bool := false
  /-- What bring-up took over from PORT_CFG and LANE_CFG (R61): the allow bits as a page has them, l1_dis, and bits 4:0 of LANE_CFG. -/
  allow     : Nat := 15
  l1Dis     : Bool := false
  laneMap   : Nat := 0
  /-- Own page sequence of R37, the page's first bytes under that number, and the partner's last page. -/
  pageSeq   : Nat := 0
  pageLast  : List Nat := []
  partner   : Option HopPage := none
  /-- The selection in force (R40). -/
  sel       : Option HopSel := none
  /-- The mode in which training or in-band negotiation runs; 0 none. -/
  training  : Nat := 0
  /-- The mode at which in-band training has converged in this bring-up. -/
  trained   : Nat := 0
  /-- The 1 s wait of step 9c of R39 runs. -/
  failWait  : Bool := false
  /-- The P1 attempt of step 9b of R39 runs. -/
  p1Try     : Bool := false
  /-- The next bring-up negotiates in-band because the sideband was lost (R38). -/
  inbandDue : Bool := false
  /-- The RECOVER in progress was started by a link-layer request (R50). -/
  recLink   : Bool := false
  /-- Local times of the last RECOVER entries (R51). -/
  recTimes  : List Nat := []
  /-- The partner was found to be a P1200 by the identify exchange (R114). -/
  isP1200   : Bool := false
  /-- Its 48-bit serial, the TD partner it reports, and whether it has an address (R114). -/
  serial    : Nat := 0
  beyond    : Nat := 0
  assigned  : Bool := false
  /-- Lanes that are ready to rejoin, bit 0 L0, bit 1 L1 (R49). -/
  readyLanes : Nat := 0
  /-- The ready lanes that a pending allotment table counts (R49). -/
  counted   : Nat := 0
  /-- Lanes of the receive direction that the link runs on when none is lost. -/
  fullRx    : Nat := 0
  fullTx    : Nat := 0
  /-- The CC termination presented now: 0 Rd, 1 Rp (R52), and the CC line on which the opposite one is seen, 0 none, 1 CC1, 2 CC2. -/
  ccTerm    : Nat := 0
  ccSeen    : Nat := 0
  /-- The snapshot that the always-on domain keeps through sleep: mode, transmit and receive lanes (R42). -/
  snap      : Option HopSel := none
  /-- The transmitters are on; a module's transmit-disable line is released or driven (R486). -/
  txOn      : Bool := false
  /-- A valid sideband frame has arrived in this bring-up. -/
  sbSeen    : Bool := false
  /-- The partner announced entry to P2 or P3 (R55); 0 none. -/
  partnerSleep : Nat := 0
  /-- Cells toward this part's home have come from beyond the port since it was homed or the link came up (R110, log entry 146). -/
  below     : Bool := false
deriving DecidableEq, Repr

/-! ### Link layer (03_cells_and_integrity.md) -/

/-- Six cumulative counts of credits: the private pools M, G, T, E and the T and E use of the shared pool (R67). -/
structure Pools where
  m  : Nat := 0
  g  : Nat := 0
  t  : Nat := 0
  e  : Nat := 0
  ts : Nat := 0
  es : Nat := 0
deriving DecidableEq, Repr

/-- Five limits: the private pools and the shared pool (R67, R81). -/
structure Limits where
  m  : Nat := 0
  g  : Nat := 0
  t  : Nat := 0
  e  : Nat := 0
  sh : Nat := 0
deriving DecidableEq, Repr

/-- A cell in a replay store: its 32-bit link count, the cell and its Granary buffer (R26, R73); a hop control cell has no buffer (R64), number 0. -/
structure Sent where
  count : Nat
  cell  : Cell
  bid   : Nat
  /-- On a P1 hop: the forerunner cells that had left when the cell was aborted; none for a whole cell. -/
  part  : Option Nat
deriving DecidableEq, Repr

/-- A native cell or a packet on its way through a P1 hop (R89, R90): the bytes so far, the private and shared forerunner credits that they hold, and whether a native cell of
the packet has been made already. -/
structure Asm where
  data   : List Byte := []
  priv   : Nat := 0
  shared : Nat := 0
  made   : Bool := false
deriving DecidableEq, Repr

/-- The link layer of a trunk port beside its LNK page. -/
structure Link where
  /-- The link layer is initialised (R67). -/
  up        : Bool := false
  /-- 32-bit counts behind lseq: the next to send, the next expected, the oldest unacknowledged (R73, R74). -/
  txCount   : Nat := 0
  rxCount   : Nat := 0
  ackCount  : Nat := 0
  /-- The replay store, oldest first (R26). -/
  store     : List Sent := []
  /-- While replaying: the count of the next cell to resend. -/
  replayAt  : Option Nat := none
  /-- Replay-wait (R73), and the running count of a replay that began behind the expected value. -/
  replayWait : Bool := false
  replayRx   : Option Nat := none
  /-- Consecutive replays that started at the same count, and that count (R75). -/
  replayN   : Nat := 0
  replayBase : Nat := 0
  /-- Status blocks owed: nak, or replay start at a count. -/
  owedNak   : Bool := false
  owedRs    : Option Nat := none
  /-- A RETRAIN_REQ to leave in the next slot, by its LNK cause (R75). -/
  owedRetrain : Option Nat := none
  /-- No acknowledgement progress yet since the last RECOVER (R75). -/
  sinceRecover : Bool := false
  /-- Cells of each pool received, credits returned for them, and the limits granted to the partner (R82). -/
  rcvd      : Pools := {}
  returned  : Pools := {}
  /-- Cells of each pool sent, credits the partner returned, and the limits it grants (R82). -/
  sent      : Pools := {}
  pReturned : Pools := {}
  pLimits   : Limits := {}
  /-- The partner's last ts and when it came; whether a ts of this session has been echoed (R67). -/
  echo      : Nat := 0
  echoAt    : Nat := 0
  startAt   : Nat := 0
  /-- What is being put together from forerunner cells on a P1 hop, by stream (R89, R90). -/
  asm       : Tab Asm := []
  /-- Per stream: the next tseq times 128, plus the cseq expected with it (R90). -/
  cseq      : Tab Nat := []
  /-- Cells still held in the ingress account from before the last link-layer initialisation (R128), and the cut of the shared limit by R136. -/
  carry     : Nat := 0
  shCut     : Nat := 0
  /-- The hop key exchange (R418): 0 none, 1 running, 2 keyed, 3 unprotected; the own and the partner's KX_HELLO from byte 1. -/
  kx        : Nat := 0
  hello     : List Byte := []
  peerHello : List Byte := []
  /-- The lanes that the next 8-byte unit sent and received takes on a two-lane direction (R84). -/
  txUnit    : Nat := 0
  rxUnit    : Nat := 0
  /-- Forerunner cell times that have gone by in the current slot of a P1 hop (R91). -/
  third     : Nat := 0
  /-- Payloads of hop control cells that wait to leave (R66, R418), and hop MACs owed: count, covered bytes, void (R419). -/
  hopCtl    : List (List Byte) := []
  macTx     : List (Nat × List Byte × Bool) := []
  /-- Covered M cells held for their tags: count, the 276 bytes as received, and the cell with its credit pool (R419). -/
  macHeld   : List (Nat × List Byte × Nat) := []
  /-- Covered M cells cut through before their tags came: the incoming count, the outgoing count and the bytes that left (R419). -/
  macCut    : List (Nat × Nat × List Byte) := []
  /-- A status block has come in this session (its ts is in `echo`); the round trip for which firmware last wrote N_rt (R81). -/
  heard     : Bool := false
  rttFw     : Nat := 0
  /-- The highest limits granted to the partner in this session. -/
  granted   : Limits := {}
deriving DecidableEq, Repr

/-! ### The Granary (05_granary_switch.md) -/

/-- A Granary buffer in a queue: its number, the cell, the account charged (R132), the credit pool it holds (0 M, 1 G, 2 T, 3 E, 4 T shared,
5 E shared, 6 none; on a P1 hop the class with the counts of its private and shared forerunner credits behind it), whether its packet is committed, chain time at arrival (R123), and the port code at which
it entered. -/
structure Buf where
  bid     : Nat
  cell    : Cell
  acct    : Nat
  pool    : Nat
  commit  : Bool
  arrival : Nat
  src     : Nat
deriving DecidableEq, Repr

/-- A cell that waits in its ingress account (R133) or in its local function (R134): egress and ingress port codes, the half of its tunnel
entry, the account that must take it. -/
structure Wait where
  code : Nat
  src  : Nat
  half : Nat
  want : Nat
  buf  : Buf
deriving DecidableEq, Repr

/-- One resequencer (R85): the egress port code, the expected tseq and the cells held. -/
structure Rsq where
  code : Nat
  exp  : Nat := 0
  held : List Buf := []
deriving DecidableEq, Repr

/-- The Granary's queues and the state of the logic around them. -/
structure Granary where
  /-- Queues by the index of R124; an absent queue is empty. -/
  queues  : Tab (List Buf) := []
  /-- Incarnations that are not 0, by queue index; 0x1FFE and 0x1FFF for the replay stores. -/
  incs    : Tab Nat := []
  /-- Buffers of old incarnations that the Gleaner has still to find: queue, incarnation, buffer. -/
  stale   : List (Nat × Nat × Buf) := []
  /-- Buffers of the replay stores lost at a link down that are still to be swept: account and buffer. -/
  staleRpl : List (Nat × Nat) := []
  /-- Queues stopped by a second reset until the accelerated pass ends (R143). -/
  stopped : List Nat := []
  /-- Cells that no account admits yet, in their order. -/
  waiting : List Wait := []
  /-- Streams whose open packet a reset broke, by their numbers: later cells go out poisoned (R143 step 5). -/
  broken  : List Nat := []
  /-- Packets being dropped whole: queue and stream (R139). -/
  dropping : List (Nat × Nat) := []
  /-- G tunnels whose group was cut, with the cause of R249: 1 a gap, 2 an abort cell. -/
  cuts    : List (Nat × Nat) := []
  /-- Resequencers by tunnel, and for tunnels 1–15 by source and destination too (R85, R94). -/
  rsqs    : Tab Rsq := []
  /-- Sequence counters of cells sent here, by tunnel and destination. -/
  seqs    : Tab Nat := []
  /-- The tseq of the last posted request of a tunnel sourced here, by the same numbers (R184). -/
  lastPosted : Tab Nat := []
  nextBid : Nat := 0
  /-- Deficit counters of T and E at each egress, in cells (R131): key 2 × port code + (0 T, 1 E), and whose turn it is. -/
  deficit : Tab Int := []
  turn    : Tab Nat := []
  /-- The Gleaner's place in its sweep. -/
  sweep   : Nat := 0
  /-- Epochs since the placement loop last stepped (R137). -/
  plcEpochs : Nat := 0
  /-- Highest in_use of an account in this placement period (R137). -/
  peaks   : Tab Nat := []
deriving DecidableEq, Repr

/-! ### Chains, homing and chain time (04_chains_and_homing.md) -/

/-- A directory entry of a head (R96): device ID, DIR_DATA2 and DIR_DATA3 without the valid bit, and the hop round trip of ENUM_REPLY. -/
structure DirEnt where
  id    : Nat
  ident : Nat
  tuB   : Nat
  tdB   : Nat
  part  : Nat
  rtt   : Nat
  valid : Bool
deriving DecidableEq, Repr

/-- A chain as its head sees it. -/
structure HeadChain where
  /-- This head is home of the chain. -/
  home     : Bool := false
  /-- This head stands by for the chain. -/
  standby  : Bool := false
  /-- An ENUM or REHOME step is unanswered; resends made (R96 step 7a). -/
  waiting  : Bool := false
  resends  : Nat := 0
  /-- The device ID of the standby head, 0 for none; at a standby head the home's device ID. -/
  standbyId : Nat := 0
  homeId   : Nat := 0
  /-- Hubs put to sleep by command (R119). -/
  asleep   : List Nat := []
  /-- The directory by address. -/
  dir      : Tab DirEnt := []
  /-- Hub at which a boundary hop was found, 0 none. -/
  boundaryAt : Nat := 0
  /-- Gasps of the last 10 ms: their senders and when they came (R117). -/
  gasps    : List (Nat × Nat) := []
  /-- Standby head: a heartbeat of the chain's home has arrived since it was homed or re-homed; one has arrived in the current epoch; the count of R99. -/
  hbSeen   : Bool := false
  hbNow    : Bool := false
  missed   : Nat := 0
deriving DecidableEq, Repr

/-- A command armed at a hub (R118): its sequence number, code, argument and t_go. -/
structure Armed where
  seq  : Nat
  cmd  : Nat
  arg  : Nat
  tgo  : Nat
deriving DecidableEq, Repr

/-- A hand-over armed at a hub or head (R111). -/
structure ArmedGo where
  chain  : Nat
  winner : Nat
  prio   : Nat
  tgo    : Nat
deriving DecidableEq, Repr

/-- Chain state beside the CHN and CTIM pages. -/
structure Chain where
  /-- ENUM_REPLY owed once the hop key exchange ends (R96 step 5), with the sequence number that it echoes. -/
  replyDue : Option Nat := none
  /-- A heartbeat has arrived since the part was homed; one has arrived in the current epoch (R99). -/
  hbSeen   : Bool := false
  hbNow    : Bool := false
  /-- A head's chains whose homes' first heartbeat it waits for, in the order in which the waits began (R99). -/
  firstWait : List (Fin 2) := []
  /-- The home's priority and the standby head it names (R95). -/
  homePrio : Nat := 0
  standbyId : Nat := 0
  /-- Chain time in ns, its correction pending for the next epoch boundary, and a head's SET load (R105, R122). -/
  time     : Nat := 0
  pendStep : Option Int := none
  setDue   : Bool := false
  /-- Slewing left to do, signed, in parts of 10^-9 ns; the last frequency correction in ppb (R105); the part of a ns that the corrections have left over; consecutive offsets below
  10 ns (R102). -/
  slew     : Int := 0
  freq     : Int := 0
  frac     : Nat := 0
  lockCnt  : Nat := 0
  /-- Epochs since the last time cell, demand report and link report counters. -/
  tcEpochs : Nat := 0
  rptEpochs : Nat := 0
  armed    : List Armed := []
  go       : Option ArmedGo := none
  /-- The last GO applied: its t_go and winner (R112). -/
  goDone   : Option ArmedGo := none
  /-- Gasp repeats still to send, and the cause bits (R116). -/
  gaspLeft : Nat := 0
  gaspCause : Nat := 0
  /-- The ports whose hop is a boundary hop (R110). -/
  bounds   : List Port := []
  /-- TD_UP owed by R98. -/
  tdUpDue  : Bool := false
  /-- Chain-control sequence number of cells that this part originates. -/
  seq      : Nat := 0
  /-- Head: chains C0 and C1. -/
  c0       : HeadChain := {}
  c1       : HeadChain := {}
  /-- Head: hand-over request pending for a chain (0 none, 1 C0, 2 C1) and a better one seen. -/
  reqChain : Nat := 0
  /-- Head: command in flight: chain, addresses still to answer, refused. -/
  cmdChain : Nat := 0
  cmdWait  : List Nat := []
  cmdSeq   : Nat := 0
  cmdCode  : Nat := 0
deriving DecidableEq, Repr

/-! ### Tunnels and allotment (06_allotment_latency.md) -/

/-- A tunnel entry: the words TUN_W0 to TUN_W3 (R150, R151). -/
structure TunEnt where
  w0 : Nat := 0
  w1 : Nat := 0
  w2 : Nat := 0
  w3 : Nat := 0
deriving DecidableEq, Repr

/-- An allotment bank (R167): log2 of the G periods by 2 × tunnel + ball group, and E source rates by tunnel. -/
structure Bank where
  ver : Nat := 0
  per : Tab Nat := []
  rate : Tab Nat := []
deriving DecidableEq, Repr

/-- A tunnel in a calendar array: it holds the positions o + m × 2^p (R157). -/
structure CalEnt where
  tunnel : Nat
  p      : Nat
  o      : Nat
deriving DecidableEq, Repr

/-- The calendar arrays of the two trunk egresses. -/
structure Cals where
  tu : List CalEnt := []
  td : List CalEnt := []
deriving DecidableEq, Repr

/-- A record of an allotment table (R167). -/
structure TblRec where
  tunnel : Nat
  kind   : Nat
  value  : Nat
deriving DecidableEq, Repr

/-- The table being received (R167): version, base, swap epoch, parts counted and received. -/
structure TblIn where
  ver   : Nat
  base  : Nat
  epoch : Nat
  parts : Nat
  got   : List Nat
  recs  : List TblRec
deriving DecidableEq, Repr

/-- A record of a demand report (R162). -/
structure RptRec where
  tunnel : Nat
  kind   : Nat
  depth  : Nat
  sent   : Nat
  marks  : Nat
deriving DecidableEq, Repr

/-- The newest demand report of a part, as the head keeps it (R164). -/
structure Report where
  epoch   : Nat
  ver     : Nat
  flags   : Nat
  marksTu : Nat
  marksTd : Nat
  recs    : List RptRec
  /-- The epoch in which it came, and whether it was counted as missing since (R164). -/
  came    : Nat := 0
  missed  : Bool := false
  /-- The part's reporting period in epochs, as its reports show it (R162, R164). -/
  gap     : Nat := 1
deriving DecidableEq, Repr

/-- The state of one trunk port of a hub as the head knows it (R514). -/
structure LinkState where
  mode  : Nat
  rx    : Nat
  tx    : Nat
  rtt   : Nat
  isTu  : Bool
  time  : Nat
deriving DecidableEq, Repr

/-- A routing half that a head sets or deletes (R153, R154): its chain, the tunnel, the routing word (of the deleted half when `del`). -/
structure TunStep where
  del    : Bool
  half   : Nat
  tunnel : Nat
  word   : Nat
deriving DecidableEq, Repr

/-- A job of a head's tunnel logic: the steps left, whether TUN_CMD started it, else the VHC and directory entry for which it runs, its result. -/
structure TunJob where
  steps  : List TunStep
  cmd    : Bool := false
  vhc    : Nat := 0
  fn     : Nat := 0
  result : Nat := 0
deriving DecidableEq, Repr

/-- The step in progress (R153, R154): its phase (1 hubs other than the source, 2 source, 3 the wait of R154), the answers still missing with
their sequence numbers, the hubs that have answered, resends made. -/
structure TunOp where
  step    : TunStep
  phase   : Nat
  wait    : List (Nat × Nat) := []
  did     : List Nat := []
  resends : Nat := 0
deriving DecidableEq, Repr

/-- A suspended or allotted G tunnel in the allotter: chain, tunnel, its periods along the path (log2), or none when suspended. -/
structure AllotG where
  chain   : Nat
  tunnel  : Nat
  periods : List Nat
  susp    : Bool
deriving DecidableEq, Repr

/-- Allotments that come into force at a swap epoch (R164, R178). -/
structure AllotDue where
  chain : Nat
  epoch : Nat
  list  : List AllotG
deriving DecidableEq, Repr

/-- A packet of an elastic tunnel that waits for tokens at its source (R172): port code, trunk port, the header of its cells, its bytes. -/
structure Shaped where
  src   : Nat
  port  : Port
  cell  : Cell
  bytes : List Byte
deriving DecidableEq, Repr

/-- The scheduler, and in a head the allotter, beside the SCH, ALT and TUN pages. -/
structure Sched where
  /-- Tunnel entries by tunnel ID. -/
  tun     : Tab TunEnt := []
  /-- Bank in force and next bank, with the calendars built from them. -/
  cur     : Bank := {}
  nxt     : Option Bank := none
  cal     : Cals := {}
  calNext : Cals := {}
  nxtFull : Bool := false
  tblIn   : Option TblIn := none
  /-- The next report says that a table came late (R168). -/
  tblLate : Bool := false
  /-- Shaper tokens of E tunnels sourced here, signed, in 1/125,000 of a cell, and the packets that wait (R172). -/
  tokens  : Tab Int := []
  shaped  : List Shaped := []
  /-- Per tunnel since the last report: cells sent, marks, greatest depth (R162). -/
  sent    : Tab Nat := []
  marks   : Tab Nat := []
  depth   : Tab Nat := []
  /-- E and T marks on the trunk egresses since the last report, by ball group. -/
  egrMarks : Nat × Nat := (0, 0)
  /-- The last tunnel ID reported when a report was truncated (R163). -/
  rptFrom : Nat := 0
  /-- Head: the entries as admitted, the jobs of the tunnel logic, the step in progress, jobs for VHCs that have ended, and the sequence
  number of tunnel-entry messages. -/
  cfg     : Tab TunEnt := []
  jobs    : List TunJob := []
  op      : Option TunOp := none
  ended   : List TunJob := []
  opSeq   : Nat := 0
  /-- Head: newest reports by 64 × chain + address, and epochs since each came. -/
  reports : Tab Report := []
  /-- Head: hops' states by (64 × chain + address) × 2 + ball group. -/
  links   : Tab LinkState := []
  /-- Head: allotments of G tunnels as last computed, in force at the hubs, and on their way. -/
  allot   : List AllotG := []
  inForce : List AllotG := []
  allotDue : List AllotDue := []
  /-- Head: hop factors that are not 256, by hop key; G use and E budget of the last computation. -/
  hopF    : Tab Nat := []
  hopPin  : List Nat := []
  hopUsed : Tab Nat := []
  hopBud  : Tab Nat := []
  /-- Head: E tunnels' rates by 4096 × chain + tunnel. -/
  eRate   : Tab Nat := []
  /-- Head: the bank last sent to each part, by 64 × chain + address, table versions, parts that need a full table. -/
  sentBank : Tab Bank := []
  /-- Head: the epoch at which the last table sent to a part swaps. -/
  sentSwap : Tab Nat := []
  needFull : List Nat := []
  version : Nat := 0
  /-- Head: tables computed and waiting for the boundary: chain. -/
  tablesDue : List Nat := []
deriving DecidableEq, Repr

/-! ### Transactions, the PX bus and the error log (07_transactions_bridging.md) -/

/-- A T-class transaction (R179): header fields, data, and the cell fields it travels with. -/
structure TReq where
  op     : Nat := 0
  ro     : Bool := false
  st     : Nat := 0
  count  : Nat := 0
  ticket : Nat := 0
  msg    : Nat := 0
  addr   : Nat := 0
  data   : List Byte := []
  tunnel : Nat := 0
  shub   : Nat := 0
  sport  : Nat := 0
  dport  : Nat := 0
  vhc    : Nat := 0
  gen    : Nat := 0
  tag    : Nat := 0
  wc     : Bool := false
  tseq   : Nat := 0
  psn    : Bool := false
deriving DecidableEq, Repr

/-- A delayed-read slot (R190, R204): state 0 FREE, 1 PENDING, 2 READY; owner 0 a trunk ticket, 1 a PX master; its seq; the request held;
the byte enables of a PX master's cycle; the result. -/
structure Slot where
  state : Nat := 0
  owner : Nat := 0
  seq   : Nat := 0
  req   : TReq := {}
  be    : Nat := 0
  /-- The operation has ended and left `st` and `data`. -/
  done  : Bool := false
  st    : Nat := 0
  data  : List Byte := []
deriving DecidableEq, Repr

/-- A non-posted request outstanding at an initiator of the part: initiator (0 head, 1 + n bay n's root port, 5 + n bay n's USB controller, 9 engines,
10 PX windows), the request, the directory slot of a head's request, the data gathered, whether a RETRY waits for its re-issue, and whether its host read was answered already. -/
structure Outst where
  init    : Nat
  req     : TReq
  /-- The chain on which it travels. -/
  chain   : Nat := 0
  slot    : Nat := 0
  got     : List Byte := []
  retry   : Bool := false
  ticket  : Nat := 0
  answered : Bool := false
deriving DecidableEq, Repr

/-- A tag in quarantine (R188): initiator, vhc, tag. -/
structure Quar where
  init : Nat
  vhc  : Nat
  tag  : Nat
deriving DecidableEq, Repr

/-- An error log entry (R208). -/
structure ErlEnt where
  w : List Nat
deriving DecidableEq, Repr

/-- One 16-bit transfer of a PX operation: its even byte address, and the operation's bytes that its even and odd lanes carry. -/
structure PxXfer where
  addr : Nat
  even : Option Nat
  odd  : Option Nat
deriving DecidableEq, Repr

/-- A trunk request at the PX bridge (R201): where its answer goes, its window, the transfers left, its bytes, the slot that holds it. -/
structure PxOp where
  req   : TReq
  port  : Port
  win   : Nat
  xfers : List PxXfer
  buf   : List Byte
  slot  : Option Nat := none
deriving DecidableEq, Repr

/-- An external master's cycle (R202): direction, address, lanes enabled (bit 1 even, bit 0 odd), data, the slot that works for it, and what the bridge is
ready to answer. -/
structure PxExt where
  write  : Bool
  addr   : Nat
  be     : Nat
  data   : Nat
  slot   : Option Nat := none
  answer : Option Nat := none
  /-- A posted write that the full buffer keeps on the bus: window and request (R204). -/
  held   : Option (Nat × TReq) := none
deriving DecidableEq, Repr

/-- The transaction bridge and the PX bridge beside the XBR, PXB and ERL pages. -/
structure Xbr where
  /-- Slots by index; an absent slot is FREE with seq 0. -/
  slots   : Tab Slot := []
  /-- Requests outstanding at this part's initiators, tags in quarantine. -/
  outst   : List Outst := []
  quar    : List Quar := []
  /-- Requests that wait for a tag or behind a confirmed write (R185, R196). -/
  waitl   : List Outst := []
  /-- Host requests that wait on the host link, because the head withholds non-posted credits while its wait list of 256 is full (R185). -/
  hostHeld : List Outst := []
  /-- Quotas of VHCs that are not 64 (R185). -/
  quota   : Tab Nat := []
  /-- Windows of a head, as VHC and directory entry, in which a confirmed write failed: their next read completes with CA (R196). -/
  wrErr   : List (Nat × Nat) := []
  /-- The error log, oldest first. -/
  erl     : List ErlEnt := []
  /-- The bridge's operation in service; the writes that wait for it, in their order, and the reads (R183); the requests that wait in their tunnels because the posted queue is full, each
  with its buffer; the external master's cycle, its posted write buffer (R201–R205). -/
  pxOp    : Option PxOp := none
  pxPosted : List PxOp := []
  pxWait  : List PxOp := []
  pxHold  : List (Port × TReq) := []
  pxExt   : Option PxExt := none
  pxPost  : List (Nat × TReq) := []
  /-- Writes to PXB windows during a cycle: offset and word (R207). -/
  pxLate  : List (Nat × Nat) := []
deriving DecidableEq, Repr

/-! ### Head mode (08_virtual_hosts.md) -/

/-- A generation message in flight (R222): code, VHC (64 for none), bytes 5 and 6, its sequence number, hubs still to answer as 64 × chain + address,
resends, generations reported, and what waits for it: 0 nothing, 1 the VHC's command, 2 its drain. -/
structure GenMsg where
  code  : Nat
  vhc   : Nat
  gen   : Nat
  flags : Nat
  seq   : Nat
  wait  : List Nat
  resends : Nat := 0
  seen  : List Nat := []
  job   : Nat := 0
deriving DecidableEq, Repr

/-- An interrupt that waits for its fence (R184): chain, tunnel, fence tseq, vector. -/
structure Fence where
  chain  : Nat
  tunnel : Nat
  tseq   : Nat
  vec    : Nat
deriving DecidableEq, Repr

/-- A VHC beside its page: what runs and what is held. -/
structure VhcCtx where
  /-- What a VHG command is doing with it: 0 none, 1 ENABLE, 2 THAW, 3 ADD_FUNC writes tunnels, 4 ADD_FUNC awaits GEN_SET, 5 REMOVE_FUNC deletes tunnels,
  6 REMOVE_FUNC drains, 7 DESTROY, 8 SAVE, 9 RESTORE writes tunnels, 10 RESTORE asks for generations, 11 RESTORE awaits GEN_SET, 12 RESTORE resumes the functions,
  13 what ADD_FUNC wrote is deleted, 14 what RESTORE wrote is deleted; the directory entry that it concerns. -/
  job     : Nat := 0
  jobFn   : Nat := 0
  /-- ADD_FUNC: the entry's four words; the result to report once what was written is deleted. -/
  entry   : List Nat := []
  undo    : Nat := 0
  /-- A drain in progress: 0 none, 1 DISABLE, 2 FREEZE drains, 3 FREEZE snapshot, 4 FLR, 5 the PF cleared VF Enable, 6 the ENABLE after an FLR; whether VHG_CMD started it. -/
  drain   : Nat := 0
  drainCmd : Bool := false
  /-- The generation that a drain gives the VHC; in RESTORE that of the image. -/
  genNext : Nat := 0
  /-- Entries whose function is being removed: host requests get UR (R225). -/
  gone    : List Nat := []
  /-- MSI-X: vectors pending, vectors unmasked, the table's words 0–2 by 4 × vector + word (R210, R220). -/
  pba     : List Nat := []
  unmasked : List Nat := []
  msix    : Tab Nat := []
  fences  : List Fence := []
  /-- Error entries held while FREEZING or FROZEN (R221). -/
  held    : List (List Nat) := []
  /-- The VHC is FROZEN by a snapshot (R227). -/
  snapped : Bool := false
  /-- RESTORE: the generation has been taken (R229 step 3); whether the saved contexts are written, and the contexts. -/
  taken   : Bool := false
  ctxLoad : Bool := false
  ctxs    : List Byte := []
deriving DecidableEq, Repr

/-- The head's endpoint and VHC logic beside the VHG and VHC pages. -/
structure Vhg where
  numVfs   : Nat := 0
  /-- The endpoint is held in reset by B0_PERST_N (R489). -/
  perst    : Bool := true
  vhcs     : Tab VhcCtx := []
  genSeq   : Nat := 0
  /-- PF MSI-X vectors pending and unmasked, and the table's words. -/
  pfUnmasked : List Nat := []
  pfPba    : List Nat := []
  pfMsix   : Tab Nat := []
  /-- The PF event queue (R468): chain, hub, page, EV_PEND, time. -/
  pfq      : List (List Nat) := []
  /-- Hubs that stayed silent to a generation message, by 64 × chain + address (R222). -/
  silent   : List Nat := []
  /-- Tags of host-link reads issued, last given. -/
  hostTag  : Nat := 0
  /-- Bay requests outstanding on the host link: host tag, the port by which the request came, the T request. -/
  hostOut  : List (Nat × Port × TReq) := []
  /-- Generation messages that await answers (R222). -/
  msgs     : List GenMsg := []
deriving DecidableEq, Repr

/-! ### Keys (16_larder_keys.md) -/

/-- A Larder slot (R405, R416): kind (1 fuse root, 2 test root, 3 written, 4 derived), use bits (bit 1 use_mac, bit 0 use_derive), parent, the
parent's incarnation as captured, its own incarnation, and the value as stored, XOR the mask; both are empty once zeroised. -/
structure KeySlot where
  valid  : Bool := false
  kind   : Nat := 0
  use    : Nat := 0
  parent : Nat := 0
  pinc   : Nat := 0
  inc    : Nat := 0
  stored : List Byte := []
  mask   : List Byte := []
deriving DecidableEq, Repr

/-- The Larder beside its pages. -/
structure Larder where
  slots  : Tab KeySlot := [(0, { valid := true, kind := 1, use := 1 })]
  /-- The keys burnt into key rows CR0 to CR7 (R411). -/
  rows   : Tab (List Byte) := []
  /-- JTAG is open: debug by fuse or by an unlock message (R408). -/
  jtag   : Bool := false
  /-- The values burnt into counter rows (R413). -/
  cnts   : Tab Nat := []
deriving DecidableEq, Repr

/-! ### Update sessions (15_engines_tables.md) -/

/-- An update session (R401): 0 none, 1 firmware, 2 table image; the source that owns it; the image's size and the chunks written, the newest last;
whether UPD_VERIFY has passed with no write since. -/
structure Update where
  kind   : Nat := 0
  owner  : Nat := 0
  size   : Nat := 0
  chunks : List (Nat × List Byte) := []
  passed : Bool := false
deriving DecidableEq, Repr

/-! ### Bay functions of a hub (R20, R216, R222, R227) -/

/-- What the part holds of its bay functions as the head commands them: VHCs whose functions are parked, and stopped by FREEZE_FN. -/
structure Fns where
  parked : List Nat := []
  frozen : List Nat := []
  /-- Interrupts held by stopped functions: kind, unit, VHC, vector, T tunnel. -/
  heldIrq : List (Nat × Nat × Nat × Nat × Nat) := []
deriving DecidableEq, Repr

/-! ### Display heads and encoders (09_display_tiles_loft.md, 10_scanout_freeze.md) -/

/-- A staging bank (R248): state 0 EMPTY, 1 FILLING, 2 CLOSED, 3 COMMITTING; the subset's tunnel, owner and header; the tile indices (512 × row +
column) of its runs in order; how many tiles have come; the tiles held, then those still to commit. -/
structure StBank where
  st     : Nat := 0
  tunnel : Nat := 0
  vhc    : Nat := 0
  gen    : Nat := 0
  set    : Nat := 0
  idx    : Nat := 0
  more   : Bool := false
  total  : Nat := 0
  pos    : List Nat := []
  got    : Nat := 0
  tiles  : Tab (List Byte) := []
  /-- Double-buffered: its set lost a subset, or its function parked, before it committed; its tiles are taken back and no flip follows (R251, R252). -/
  dead   : Bool := false
deriving DecidableEq, Repr

/-- A present-done event that waits for the frame start that first shows its subset (R253). -/
structure Shown where
  vhc : Nat
  gen : Nat
  set : Nat
  idx : Nat
  more : Bool
deriving DecidableEq, Repr

/-- A display head beside its DISP, FRZ, STG and LOFT registers. -/
structure DispHead where
  bank0   : StBank := {}
  bank1   : StBank := {}
  /-- The bank that fills next; a subset was dropped and its later tiles are discarded (R249); packets that wait for an EMPTY
  bank, with the result of their E2E check (R248). -/
  fill    : Nat := 0
  dropping : Bool := false
  wait    : List (Bool × Cell) := []
  /-- The frame slots: records by tile index, absent ones black (R255). -/
  slot0   : Tab (List Byte) := []
  slot1   : Tab (List Byte) := []
  /-- Tile rows decoded in the frame in progress, and the records read in it; an empty list is a tile that was rejected (R256, R263). -/
  decRow  : Nat := 0
  read    : Tab (List Byte) := []
  /-- Double-buffered: a flip is due; tiles of the set just shown that the new back slot still lacks; the unfinished set, its tiles and subsets already
  committed; the set of which a subset was dropped (R251). -/
  flipDue : Bool := false
  shown   : List Nat := []
  setNum  : Option Nat := none
  setTiles : List Nat := []
  setIdx  : List Shown := []
  broken  : Option Nat := none
  reports : List Shown := []
  /-- Chain time at the last frame start (FRAME_T). -/
  frameT  : Nat := 0
  /-- The generator stops at the next frame start (R265). -/
  stopDue : Bool := false
  /-- The stripe phase s of R281. -/
  phase   : Nat := 0
  /-- Time since the last commit or flip in µs while the watchdog counts (R279). -/
  wdUs    : Nat := 0
  /-- Windows: comparison bases; windows whose next signature is captured (R277, R278). -/
  base    : Tab Nat := []
  capture : List Nat := []
  /-- The watchdog's action is shown. -/
  wdActs  : Bool := false
  /-- Consecutive frame starts within half a line; lock is to be acquired; the trim to take at the next frame start (R269, R270). -/
  lockN   : Nat := 0
  acquire : Bool := false
  trimDue : Option Int := none
  /-- DisplayPort: candidates left (lanes, rate code), the one that trains or carries the stream first; training; an IRQ_HPD held until it ends, with
  whether lock was lost (R272, R273). -/
  cands   : List (Nat × Nat) := []
  training : Bool := false
  irqHeld : Option Bool := none
  /-- What step 1 of R273 last read from the sink; none while no sink is plugged. -/
  sink    : Option Sink := none
deriving DecidableEq, Repr

/-- A present-ring entry (R235). -/
structure PrEnt where
  addr   : Nat
  pitch  : Nat
  ten    : Bool
  tiled  : Bool
  close  : Bool
  x0     : Nat
  y0     : Nat
  w      : Nat
  h      : Nat
  cookie : Nat
  /-- Its reserved bits are 0 (R237). -/
  clean  : Bool
deriving DecidableEq, Repr

/-- A run of tiles of a subset (R246): row, first column, count. -/
structure Run where
  row : Nat
  col : Nat
  n   : Nat
deriving DecidableEq, Repr

/-- The set that a pipeline works on (R237, R247): number, cookie, the display head, entries still to fetch, subsets left, index of the next, surface words by
tile. -/
structure PrSet where
  num    : Nat
  cookie : Nat
  geo    : HeadGeo
  fetch  : List PrEnt
  subs   : List (List Run)
  idx    : Nat
  split  : Bool
  px     : Tab (List Nat)
deriving DecidableEq, Repr

/-- A set sent and not yet reported (R253): number, cookie, subsets, whether it shows in more than one frame, the first event's frame. -/
structure PrSent where
  num    : Nat
  cookie : Nat
  subs   : Nat
  frame  : Option Nat := none
  split  : Bool := false
deriving DecidableEq, Repr

/-- A bound display function's present ring in a head (R235–R238): its pipeline, entries read and not yet taken, the number of the next set, the set in
progress, sets sent. -/
structure PrCtx where
  pipe  : Nat
  ring  : List PrEnt := []
  next  : Nat := 0
  cur   : Option PrSet := none
  sent  : List PrSent := []
deriving DecidableEq, Repr

/-- The encoders of a head: bound functions by 16 × VHC + entry, and the function that each pipeline served last (R238). -/
structure Enc where
  fns  : Tab PrCtx := []
  last : Tab Nat := []
deriving DecidableEq, Repr

/-! ### Type-C ports (13_typec_pd.md) -/

/-- A Type-C port beside its TC page. -/
structure TcCtx where
  /-- The bay configuration in force (R332). -/
  cfg     : Nat := 0
  /-- Presents Rd while unattached in DRP; the CC line that shows the opposite termination, 0 none; Ra on the other (R333, R334). -/
  rd      : Bool := false
  seen    : Nat := 0
  ra      : Bool := false
  /-- Source_Capabilities sent without GoodCRC; the objects last offered; a Request is awaited (R336–R341). -/
  capsN   : Nat := 0
  offered : List Pdo := []
  wait    : Bool := false
  /-- The contract accepted and on its way: object position, kind, voltage, current; whether the setpoint has been moved (R341). -/
  target  : Option (Nat × Nat × Nat × Nat) := none
  moved   : Bool := false
  /-- Hard resets without a contract in between (R356). -/
  hardN   : Nat := 0
  /-- Alternate mode, the VDM last sent or due (R349): 0 none, 1 Identity, 2 SVIDs, 3 Modes, 4 Enter, 5 Status, 6 Configure; what the partner's mode offers as C, D; the pin
  assignment D; tried since attach. -/
  alt     : Nat := 0
  modeC   : Bool := false
  modeD   : Bool := false
  pinD    : Bool := false
  altTried : Bool := false
  /-- A swap: 0 none, 1 PR_Swap sent, 2 to Sink while VBUS goes off, 3 to Sink awaiting PS_RDY, 4 to Source awaiting PS_RDY, 5 to Source bringing up vSafe5V, 6 VCONN_Swap sent,
  7 VCONN awaiting PS_RDY. -/
  swap    : Nat := 0
  /-- As Sink: the Request sent: position, kind, voltage, current. -/
  asked   : Option (Nat × Nat × Nat × Nat) := none
  /-- An own sequence that waits for tSinkTx: 0 none, 1 capabilities, 2 PR_Swap, 3 VCONN_Swap, 4 VDM (R344). -/
  deferred : Nat := 0
  /-- Consecutive readings below the threshold; above 1.25 times it while wet (R352, R353). -/
  wetN    : Nat := 0
  dryN    : Nat := 0
  /-- Discover Identity sent to SOP' and not answered yet (R348). -/
  cableAsk : Bool := false
  /-- The hook whose answer is late: 0 none, 1 src_caps, 2 request, 3 sink_select, 4 pr_swap, 5 vconn_swap, 6 alt_mode, 7 own PR_Swap; what it was asked about (R358). -/
  hook    : Nat := 0
  hookArg : List Nat := []
  hookCaps : List Pdo := []
  /-- CC lines open after a request of PORTSC.PP = 0 (R356). -/
  ppOff   : Bool := false
deriving DecidableEq, Repr

/-! ### USB and the service port (11_usb_bays_service.md) -/

/-- An endpoint of a USB device: state 1 Running, 2 Halted, 3 Stopped; a TD is in progress; as configured. -/
structure UsbEp where
  state : Nat
  busy  : Bool := false
  cfg   : EpCfg
deriving DecidableEq, Repr

/-- A device slot: the xHCI port it hangs on, whether that port's translator serves it, its endpoints by device context index. -/
structure UsbSlot where
  port : Nat
  tt   : Bool
  eps  : Tab UsbEp
deriving DecidableEq, Repr

/-- A bay's USB host controller beside its USB page. -/
structure UsbFn where
  /-- USBCMD.R/S, USBSTS.HCH and HSE. -/
  run   : Bool := false
  halted : Bool := true
  hse   : Bool := false
  slots : Tab UsbSlot := []
  /-- xHCI ports that are connected, in U3, in Resume by the device, in Resume by the host; PORTSC.PP of port 3. -/
  ccs   : List Nat := []
  u3    : List Nat := []
  wake  : List Nat := []
  resume : List Nat := []
  /-- Ports whose link state change bit PLC, whose connection change bit CSC is set. -/
  plc   : List Nat := []
  csc   : List Nat := []
  pp3   : Bool := true
  /-- The rest of the xHCI register words as written, by offset. -/
  xregs : Tab Nat := []
  /-- IN: intervals whose packets await ISO_ACK, with the events of their TDs; the interval that each bank last sent (R297). -/
  acks  : Tab (List UsbEv) := []
  inOk  : Bool := true
  /-- OUT: data that has committed by interval, none for a record that failed; events of the TDs, each with its count of packets, by interval; intervals whose data moved into its bank (R298). -/
  outs  : Tab (List (Option (List Byte))) := []
  outEvs : Tab (List (UsbEv × Nat)) := []
  moved : List Nat := []
deriving DecidableEq, Repr

/-- The service port function beside its SVC page (R304–R307): pull-up connected, a control transfer without an acknowledged status stage (its SETUP bytes), the endpoints
that are halted, the configuration. -/
structure SvcCtx where
  up    : Bool := false
  ctl   : Option (List Byte) := none
  halts : List Nat := []
deriving DecidableEq, Repr
/-! ### Ethernet, NIC queue sets and PCIe root ports (12_ethernet_pcie_bays.md) -/

/-- A bay's MAC beside its ETH page: transmission is paused by the partner, this end has sent PAUSE, frames that wait for the end of a pause with the result of
their E2E check (R312, R315). -/
structure EthCtx where
  paused : Bool := false
  xoff   : Bool := false
  hold   : List (Bool × Cell) := []
deriving DecidableEq, Repr

/-- A TX descriptor as fetched with its buffer, none where the fetch failed (R317). -/
structure TxDesc where
  addr  : Nat
  len   : Nat
  flags : Nat
  tci   : Nat
  data  : Option (List Byte)
deriving DecidableEq, Repr

/-- A TX frame that waits for its timestamp: queue, first descriptor, count (R318). -/
structure TxWait where
  q     : Nat
  first : Nat
  n     : Nat
  descs : List TxDesc
deriving DecidableEq, Repr

/-- A NIC queue set in a head beside its registers (R316–R320): descriptors handed over and not yet fetched, by queue; frames that await timestamps; frames completed and not
signalled, by ring (queue, plus 4 for RX); the TX ring served last; frames whose cells have not all entered the head's Granary. -/
structure NicCtx where
  tx    : Tab (List TxDesc) := []
  wait  : List TxWait := []
  quiet : Tab Nat := []
  last  : Nat := 3
  back  : List TxWait := []
deriving DecidableEq, Repr

/-- A request outstanding toward a bay's device (R325, R326): its number at the port, the trunk port it came by, the request, whether it goes to configuration space, whether it
waits for its next issue after CRS. -/
structure DevOut where
  id   : Nat
  port : Port
  req  : TReq
  cfg  : Bool
  crs  : Bool := false
deriving DecidableEq, Repr

/-- A bay's root port beside its PCIE page: the reference clock runs, PERST_N is asserted and will be released 100 ms after the clock's start, a retrain is due, the BARs of the
device as size, low four bits and assigned address (0 for none), those last written with all ones, requests outstanding toward the device, and what the device sent while the function was frozen. -/
structure PcieCtx where
  clock : Bool := false
  perst : Bool := true
  wait  : Bool := false
  retrain : Bool := false
  bars  : List (Nat × Nat × Nat) := []
  ones  : List Nat := []
  outs  : List DevOut := []
  next  : Nat := 0
  held  : List (Nat × DevReq) := []
deriving DecidableEq, Repr

/-! ### The power companion die (14_feeds_efuse_vbus.md) -/

/-- The companion die beside its pages: it is powered; the state from which the eFuse went into limit (R365); VOR_S is above ov, the die is too hot (R370); the
companion pages as last mirrored before the supervised link was lost (R361). -/
structure PwrCtx where
  on     : Bool := false
  from_  : Nat := 0
  ov     : Bool := false
  hot    : Bool := false
  mirror : Option Store := none
deriving DecidableEq, Repr

/-! ### Engines, boot and sleep (15_engines_tables.md, 17_power_clocks_boot.md) -/

/-- What E15 holds: the boot record in force; the header of the running bundle and the running table image, empty for none; the lock source (0 none, 1 fused, 2 pin); neither
slot supports the profile; the last boot rolled a trial back; a valid pin record; the record of Cellar bank 7 (R431): boot record, bundle header, table measurement, profile; curves that E7 holds back, true for cooldown (R397). -/
structure EngCtx where
  boot   : BootRec := ⟨0, 0, 0, 0, 0, false, 0⟩
  fw     : List Byte := []
  tbl    : List Byte := []
  lock   : Nat := 0
  noProf : Bool := false
  rolled : Bool := false
  pin    : Option Nat := none
  bank7  : Option (BootRec × List Byte × List Byte × Nat) := none
  curves : List Bool := []
deriving DecidableEq, Repr

/-- The always-on domain, sleep, and the loops of the clocks and of VDD (R424–R445). -/
structure PmCtx where
  /-- A sleep that PWS_CTL asked for: 2 P2, 3 P3, 0 none (R426); chain time at entry (R432). -/
  want   : Nat := 0
  slept  : Nat := 0
  /-- The watch program in the sequencer; consecutive matches by rule; periods since entry (R435, R436). -/
  prog   : List Byte := []
  hits   : Tab Nat := []
  period : Nat := 0
  /-- Contexts of Type-C ports parked in retained Cellar banks: the port's state and its page's fields (R431). -/
  parked : Tab (TcCtx × Store) := []
  /-- Resources trimmed (R425). -/
  trims  : List Trim := []
  /-- Consecutive epochs in which the frequency loop wanted a slower step (R443); the last AVSBus command failed (R444). -/
  slow   : Nat := 0
  busBad : Bool := false
  /-- A thermal reset holds the part, the root PLL has lost its lock (R441, R448). -/
  hot    : Bool := false
  noLock : Bool := false
deriving DecidableEq, Repr


/-! ### The whole part -/

/-- What EVT holds beside its page: pages inside their hold interval and pages that changed within it (R465). -/
structure EvtCtx where
  hold : List Nat := []
  due  : List Nat := []
  /-- Pages of which a bit of EV_PEND has gone from 0 to 1 since the last delivery (R464, R467). -/
  fresh : List Nat := []
deriving DecidableEq, Repr

/-- The state of the part. -/
structure State where
  /-- Register fields that are not at their reset value, by `fkey`. -/
  regs    : Store := []
  /-- Visible values of the counters of pages with PG_CTL.frz = 1 (R459). -/
  snap    : Store := []
  /-- The straps sampled at the last release (R446). -/
  mode    : Mode := .hub
  compat  : Bool := false
  refsel  : Bool := false
  life    : Life := .running
  /-- Local time in ns since power-on, as the idle step counts it. -/
  now     : Nat := 0
  /-- How many free values have been drawn: the model's own counter. -/
  free    : Nat := 0
  evt     : EvtCtx := {}
  tu      : Trunk := {}
  td      : Trunk := {}
  lu      : Link := {}
  ld      : Link := {}
  gran    : Granary := {}
  chain   : Chain := {}
  sched   : Sched := {}
  xbr     : Xbr := {}
  vhg     : Vhg := {}
  /-- The profile in force when no fused profile exists: a valid pin record's, else the bundle's default (R399), as boot found it. -/
  prof    : Nat := 1
  larder  : Larder := {}
  update  : Update := {}
  fns     : Fns := {}
  /-- Display heads D0–D3, and a head's encoders. -/
  disp    : Tab DispHead := []
  enc     : Enc := {}
  tcs     : Tab TcCtx := []
  usb     : Tab UsbFn := []
  svc     : SvcCtx := {}
  eth     : Tab EthCtx := []
  nic     : Tab NicCtx := []
  pcie    : Tab PcieCtx := []
  pw      : PwrCtx := {}
  eng     : EngCtx := {}
  pm      : PmCtx := {}
  /-- Timers of TMR that run: the time of the next expiry in ns, of chain time with ct_align, of local time without (R473). -/
  tmr     : Tab Nat := []
  /-- INT_N is driven low (R463, R433, R434). -/
  intN    : Bool := false
  /-- Everything sent so far, oldest first. -/
  outbox  : List Output := []
  /-- The commands waiting, first in first out. -/
  pending : List Instr := []
deriving DecidableEq, Repr

/-- The part after the release of a power-on reset, strapped as a hub (R14, R448): every register at its reset value (an absent field reads
its reset value), every queue empty. -/
def State.reset : State := { regs := Store.hold (resetEntries .hub ++ companionEntries ++ fuseEntries) [] }

end Sys2Proof.Machine
end

