-- ==== Sys2Proof/Machine/Pages.lean ====
section
/-!
DEFINITION. Sys2Proof/Machine/Pages.lean: the page types (R457), the rows of every page type, the common header (R458).
-/
namespace Sys2Proof.Machine

open Sys2Proof

/-- The page types. -/
inductive PageKind where
  | glb | clk | pws | avs | eng | trk | lnk | chn | ctim | swc | grn | sch | alt | tun0 | tun1 | xbr | pxb | erl | vhg | vhc | bay | disp | frz
  | usb | eth | pcie | tc | vbs | stg | loft | enc | pwp | hvd | lrd | fus | evt | tmr | svc
deriving DecidableEq, Repr

/-- The type of a page number, whatever the mode. -/
def pageKind (p : Nat) : Option PageKind :=
  if 0x100 ≤ p ∧ p < 0x140 then
    match p % 16 with
    | 0 => some .bay
    | 1 => some .disp
    | 2 => some .frz
    | 3 => some .usb
    | 4 => some .eth
    | 5 => some .pcie
    | 6 => some .tc
    | 7 => some .vbs
    | 8 => some .stg
    | _ => none
  else if 0x080 ≤ p ∧ p < 0x0C0 then some .vhc
  else if 0x008 ≤ p ∧ p < 0x00C then some .eng
  else match p with
    | 0x000 => some .glb
    | 0x001 => some .clk
    | 0x002 => some .pws
    | 0x003 => some .avs
    | 0x010 => some .trk
    | 0x011 => some .trk
    | 0x012 => some .lnk
    | 0x013 => some .lnk
    | 0x014 => some .chn
    | 0x015 => some .ctim
    | 0x020 => some .swc
    | 0x021 => some .grn
    | 0x022 => some .sch
    | 0x023 => some .alt
    | 0x024 => some .tun0
    | 0x025 => some .tun1
    | 0x030 => some .xbr
    | 0x031 => some .pxb
    | 0x032 => some .erl
    | 0x040 => some .vhg
    | 0x140 => some .loft
    | 0x141 => some .enc
    | 0x150 => some .pwp
    | 0x151 => some .hvd
    | 0x160 => some .lrd
    | 0x161 => some .fus
    | 0x170 => some .evt
    | 0x171 => some .tmr
    | 0x180 => some .svc
    | _ => none

/-- The bay of a bay page. -/
def pageBay (p : Nat) : Nat := (p - 0x100) / 16

/-- PG_ID.type of a page (R457). -/
def pageType (p : Nat) : Nat := match pageKind p with
  | some .eng => 0x0008
  | some .trk => 0x0010
  | some .lnk => 0x0012
  | some .tun1 => 0x0024
  | some .vhc => 0x0080
  | some k => if k = .bay ∨ (0x100 ≤ p ∧ p < 0x140) then 0x100 + p % 16 else p
  | none => 0

/-- PG_ID.instance of a page (R457). -/
def pageInst (p : Nat) : Nat := match pageKind p with
  | some .eng => p - 8
  | some .trk => p - 0x010
  | some .lnk => p - 0x012
  | some .tun1 => 1
  | some .vhc => p - 0x080
  | some _ => if 0x100 ≤ p ∧ p < 0x140 then pageBay p else 0
  | none => 0

/-- The page group that chooses the PF vector (R457, R468). -/
def pageGroup (p : Nat) : Nat :=
  if p < 0x010 then 0 else if p < 0x020 then 1 else if p < 0x030 then 2 else if p < 0x040 then 3 else if p < 0x100 then 4
  else if p < 0x140 then 5 else if p < 0x150 then 6 else if p < 0x160 then 7 else if p < 0x170 then 8 else if p < 0x180 then 9 else 10

/-- PG_CAP of a page (R61, R92); other pages read 0. -/
def pageCap (p : Nat) : Nat := match p with
  | 0x010 => 0x1F
  | 0x011 => 0x0F
  | 0x012 => 0x7
  | 0x013 => 0x3
  | _ => 0

/-- The block registers of a page type. -/
def PageKind.rows : PageKind → List FRow
  | .glb => GLB.rows
  | .clk => CLK.rows
  | .pws => PWS.rows
  | .avs => AVS.rows
  | .eng => ENG.rows
  | .trk => TRK.rows
  | .lnk => LNK.rows
  | .chn => CHN.rows
  | .ctim => CTIM.rows
  | .swc => SWC.rows
  | .grn => GRN.rows
  | .sch => SCH.rows
  | .alt => ALT.rows
  | .tun0 => TUN.rows
  | .tun1 => TUN1.rows
  | .xbr => XBR.rows
  | .pxb => PXB.rows
  | .erl => ERL.rows
  | .vhg => VHG.rows
  | .vhc => VHC.rows
  | .bay => BAY.rows
  | .disp => DISP.rows
  | .frz => FRZ.rows
  | .usb => USB.rows
  | .eth => ETH.rows
  | .pcie => PCIE.rows
  | .tc => TC.rows
  | .vbs => VBS.rows
  | .stg => STG.rows
  | .loft => LOFT.rows
  | .enc => ENC.rows
  | .pwp => PWP.rows
  | .hvd => HVD.rows
  | .lrd => LRD.rows
  | .fus => FUS.rows
  | .evt => EVT.rows
  | .tmr => TMR.rows
  | .svc => SVC.rows

/-- The event bits that a page type names. -/
def PageKind.evBits : PageKind → List Nat
  | .glb => GLB.evBits
  | .clk => CLK.evBits
  | .pws => PWS.evBits
  | .avs => AVS.evBits
  | .eng => ENG.evBits
  | .trk => TRK.evBits
  | .lnk => LNK.evBits
  | .chn => CHN.evBits
  | .ctim => CTIM.evBits
  | .swc => SWC.evBits
  | .grn => GRN.evBits
  | .sch => SCH.evBits
  | .alt => ALT.evBits
  | .tun0 => TUN.evBits
  | .tun1 => []
  | .xbr => XBR.evBits
  | .pxb => PXB.evBits
  | .erl => ERL.evBits
  | .vhg => VHG.evBits
  | .vhc => VHC.evBits
  | .bay => []
  | .disp => DISP.evBits
  | .frz => FRZ.evBits
  | .usb => USB.evBits
  | .eth => ETH.evBits
  | .pcie => PCIE.evBits
  | .tc => TC.evBits
  | .vbs => VBS.evBits
  | .stg => STG.evBits
  | .loft => LOFT.evBits
  | .enc => ENC.evBits
  | .pwp => PWP.evBits
  | .hvd => HVD.evBits
  | .lrd => LRD.evBits
  | .fus => []
  | .evt => EVT.evBits
  | .tmr => TMR.evBits
  | .svc => SVC.evBits

/-- Bit `n` of EV_RAW, of EV_EN (R458). -/
def HDR.raw (n : Nat) : Fld := ⟨0x10, n, 1, .w1c, 0, false⟩
def HDR.evEn (n : Nat) : Fld := ⟨0x14, n, 1, .rw, 0, false⟩

/-- The bay protocol pages' counters behind SWC.CNT_SEL (R147): code `c`. -/
def CNTX.value (c : Nat) : Fld := ⟨0x100 + 4 * c, 0, 32, .rc, 0, false⟩

/-- A bin behind SCH.WH_SEL (R176). -/
def WAITX.bin (b : Nat) : Fld := ⟨0x100 + 4 * b, 0, 32, .rc, 0, false⟩

end Sys2Proof.Machine
end

