-- ==== Sys2Proof/Machine/Ops.lean ====
section
/-!
DEFINITION. Sys2Proof/Machine/Ops.lean: the named operations that every meaning is written with: reading and writing register
fields, counters and their snapshot (R459), raising an event with its error capture (R461, R462), and what leaves the part. Taking
an exception does not exist in this part; raising an event is its counterpart.
-/
namespace Sys2Proof.Machine

open Sys2Proof

/-! ### Register fields -/

/-- The value of a field: what is held, or its reset value. -/
def State.rd (s : State) (p : Nat) (f : Fld) : Nat := (Tab.find (fkey p f) s.regs).getD f.rst

/-- The store with a field at a value, cut to its width; nothing is listed for a field at its reset value. -/
def Store.setField (r : Store) (p : Nat) (f : Fld) (v : Nat) : Store :=
  if v % 2 ^ f.width = f.rst then Tab.del (fkey p f) r else Tab.put (fkey p f) (v % 2 ^ f.width) r

/-- Hold a value in a field, cut to its width; nothing is listed for a field at its reset value. -/
def State.wr (s : State) (p : Nat) (f : Fld) (v : Nat) : State := { s with regs := s.regs.setField p f v }

/-- A one-bit field as a truth value. -/
def State.on (s : State) (p : Nat) (f : Fld) : Bool := s.rd p f != 0

/-- A field with 0 acting as 1 (as the tables say). -/
def State.rd1 (s : State) (p : Nat) (f : Fld) : Nat := if s.rd p f = 0 then 1 else s.rd p f

/-- A counter counts up by `n` and saturates. -/
def State.bump (s : State) (p : Nat) (f : Fld) (n : Nat) : State := s.wr p f (satAdd f.width (s.rd p f) n)

/-- Append to what the part sends. -/
def State.emit (s : State) (o : Output) : State := { s with outbox := s.outbox ++ [o] }

/-- A field whose value the model's own free value gives (the spec leaves it open): the next value drawn, cut to `w` bits. -/
def State.draw (s : State) (w : Nat) : Nat × State := ((Config.freeValue s.free).toNat % 2 ^ w, { s with free := s.free + 1 })

/-! ### Curves (R396) -/

/-- Linear interpolation between the points that bracket x; outside them the end point holds; division truncates toward zero. -/
def curveAt : List (Int × Int) → Int → Int
  | [], _ => 0
  | [p], _ => p.2
  | p :: q :: t, x => if x ≤ p.1 then p.2 else if x < q.1 then p.2 + Int.tdiv ((x - p.1) * (q.2 - p.2)) (q.1 - p.1) else curveAt (q :: t) x

/-! ### Events and error capture -/

/-- What an error capture records: W2 of the cell concerned, and an address or W1 and W0 (R458 ER_CAP1–3). -/
structure Ctx where
  c1 : Nat := 0
  c2 : Nat := 0
  c3 : Nat := 0
deriving DecidableEq, Repr

/-- Capture a class C, D or F error in a page and count it (R462). -/
def State.capture (s : State) (p : Nat) (e : Ev) (c : Sev) (x : Ctx) : State :=
  let s :=
    if s.on p HDR.ER_CAP0_valid then s.wr p HDR.ER_CAP0_more 1
    else
      let s := s.wr p HDR.ER_CAP0_valid 1
      let s := s.wr p HDR.ER_CAP0_sev c.code
      let s := s.wr p HDR.ER_CAP0_code (e.bit + 1)
      let s := s.wr p HDR.ER_CAP1_context x.c1
      let s := s.wr p HDR.ER_CAP2_addr_lo x.c2
      let s := s.wr p HDR.ER_CAP3_addr_hi x.c3
      if c = .function then s.wr p HDR.PG_STAT_fault 1 else s
  if c = .corrected then s.bump p HDR.ER_CNT_corr 1 else s.bump p HDR.ER_CNT_uncorr 1

/-- A bit of EV_RAW is set; when EV_EN has it and it was 0, EV_PEND changes from 0 to 1 and the page is marked for delivery (R463–R467). -/
def State.setRaw (s : State) (p n : Nat) : State :=
  { s with
    regs := s.regs.setField p (HDR.raw n) 1
    evt := { s.evt with fresh := if !s.on p (HDR.raw n) && s.on p (HDR.evEn n) then s.evt.fresh ++ [p] else s.evt.fresh } }

/-- Hardware raises an event in a page (R461, R462). -/
def State.raise (s : State) (p : Nat) (e : Ev) (x : Ctx := {}) : State :=
  let s := s.setRaw p e.bit
  match e.sev with
  | none => s
  | some c => s.capture p e c x

/-- EV_PEND of a page (R458). -/
def State.evPend (s : State) (p : Nat) : Nat := match pageKind p with
  | some k => sumNat (k.evBits.map (fun n => if s.on p (HDR.raw n) && s.on p (HDR.evEn n) then 2 ^ n else 0))
  | none => 0

/-! ### The companion die's pages (R13, R361) -/

/-- The companion die's pages. -/
def isCompanion (p : Nat) : Bool := p = Pg.pwp || p = Pg.hvd || (0x100 ≤ p && p < 0x140 && p % 16 = 7)

/-- The supervised link is up. -/
def State.hvLink (s : State) : Bool := s.pw.on && s.on Pg.hvd HVD.HVD_STAT_link

/-- The registers as a read of a companion page finds them: live, as mirrored before the link was lost, or at reset (R361). -/
def State.companionView (s : State) : State :=
  if s.hvLink then s
  else match s.pw.mirror with
    | some m => { s with regs := m }
    | none => if s.pw.on then s else { s with regs := Store.hold companionEntries [] }

/-- A page is pending while its EV_PEND, as the main die knows it, is not 0 (R463). -/
def State.isPending (s : State) (p : Nat) : Bool := (if isCompanion p then s.companionView else s).evPend p != 0

/-- The route code of a page (R463): bit 0 INT_N, bit 1 home. -/
def State.route (s : State) (p : Nat) : Nat := bitsOf (s.rd Pg.evt (EVT.ROUTE_route (p / 16))) (2 * (p % 16) + 1) (2 * (p % 16))

/-! ### Bays, modes, presence -/

/-- A bay is fused off (R2). -/
def State.fused (s : State) (n : Nat) : Bool := bitOf (s.rd Pg.fus FUS.PART_bay_off) n = 1

/-- BAYn.PG_CTL.en (R470): 1 at reset, 0 with the reserved straps. -/
def State.bayOn (s : State) (n : Nat) : Bool := !s.fused n && s.on (Pg.bay n) HDR.PG_CTL_en && s.mode != .reserved

/-- A page is present in the part's mode (R457, R2, R15). -/
def State.present (s : State) (p : Nat) : Bool := match pageKind p with
  | none => false
  | some k =>
    if k = .alt ∨ k = .vhg ∨ k = .vhc ∨ k = .enc then s.mode = .head
    else if 0x100 ≤ p ∧ p < 0x140 then
      !s.fused (pageBay p) && s.mode != .reserved && (k != .pcie || s.mode = .hub)
    else true

/-- The page's block answers writes: it is present, and its bay, if it has one, is enabled or the page is the BAY page itself (R470). -/
def State.alive (s : State) (p : Nat) : Bool :=
  s.present p && (!(0x100 ≤ p && p < 0x140) || pageKind p = some .bay || s.bayOn (pageBay p))

/-- PG_CTL.lock of a page (R9). -/
def State.locked (s : State) (p : Nat) : Bool := s.on p HDR.PG_CTL_lock

/-- PG_CTL.frz of a page (R459). -/
def State.frozen (s : State) (p : Nat) : Bool := s.on p HDR.PG_CTL_frz

/-- The pages of the part, in ascending order. -/
def allPages : List Nat := [0x000, 0x001, 0x002, 0x003, 0x008, 0x009, 0x00A, 0x00B, 0x010, 0x011, 0x012, 0x013, 0x014, 0x015, 0x020, 0x021, 0x022, 0x023, 0x024, 0x025, 0x030, 0x031, 0x032, 0x040] ++
  (List.range 64).map (0x080 + ·) ++ (List.range 4).flatMap (fun n => (List.range 9).map (0x100 + 0x10 * n + ·)) ++ [0x140, 0x141, 0x150, 0x151, 0x160, 0x161, 0x170, 0x171, 0x180]

/-- INT_N is driven low (R463): int_en, and a page with route bit 0 is pending. -/
def State.intLow (s : State) : Bool :=
  s.on Pg.evt EVT.EVT_CFG_int_en && allPages.any (fun p => s.route p % 2 = 1 && s.present p && s.isPending p)

/-- The device ID (FUS DEV_ID). -/
def State.devId (s : State) : Nat := s.rd Pg.fus FUS.DEV_ID_LO_id_lo + 2 ^ 32 * s.rd Pg.fus FUS.DEV_ID_HI_id_hi

/-- Chain time in ns (R101). -/
def State.ctime (s : State) : Nat := s.chain.time

/-! ### Ports -/

def State.trunk (s : State) : Port → Trunk
  | .tu => s.tu
  | .td => s.td

def State.setTrunk (s : State) (p : Port) (t : Trunk) : State := match p with
  | .tu => { s with tu := t }
  | .td => { s with td := t }

def State.link (s : State) : Port → Link
  | .tu => s.lu
  | .td => s.ld

def State.setLink (s : State) (p : Port) (l : Link) : State := match p with
  | .tu => { s with lu := l }
  | .td => { s with ld := l }

/-- PORT_STAT.state codes (R61). -/
def stDisabled : Nat := 0
def stDetect : Nat := 1
def stNegotiate : Nat := 2
def stTrain : Nat := 3
def stAlign : Nat := 4
def stUp : Nat := 5
def stDegraded : Nat := 6
def stRecover : Nat := 7
def stSleep : Nat := 8
def stBeacon : Nat := 9
def stDown : Nat := 10

/-- PORT_STAT.state of a port. -/
def State.pst (s : State) (p : Port) : Nat := s.rd (Pg.trk p) TRK.PORT_STAT_state

/-- A port has a route: UP, DEGRADED or RECOVER (R127). -/
def State.routed (s : State) (p : Port) : Bool := s.pst p = stUp || s.pst p = stDegraded || s.pst p = stRecover

/-- The ball group that holds role TU (0) or TD (1) (R28). -/
def State.rolePort (s : State) (role : Nat) : Port := if s.rd (Pg.trk .tu) TRK.PORT_STAT_role = role then .tu else .td

/-- The role of a ball group (R28, R29). -/
def State.roleOf (s : State) (p : Port) : Nat := s.rd (Pg.trk p) TRK.PORT_STAT_role

/-- The part has a home (R93): CHN_STAT.home_state is homed. -/
def State.homed (s : State) : Bool := s.rd Pg.chn CHN.CHN_STAT_home_state = 1

/-- The part's hub address, 63 for none; a head at home holds address 0 (R93). -/
def State.addr (s : State) : Nat := s.rd Pg.chn CHN.CHN_STAT_addr

/-- The chain that hangs on a port of a head: C0 on TD, C1 on TU (R1). -/
def chainOf : Port → Nat
  | .td => 0
  | .tu => 1

/-- The port of a head's chain. -/
def portOfChain (c : Nat) : Port := if c = 0 then .td else .tu

def State.headChain (s : State) (c : Nat) : HeadChain := if c = 0 then s.chain.c0 else s.chain.c1

def State.setHeadChain (s : State) (c : Nat) (h : HeadChain) : State :=
  if c = 0 then { s with chain := { s.chain with c0 := h } } else { s with chain := { s.chain with c1 := h } }

end Sys2Proof.Machine
end

