-- ==== Sys2Proof/Machine/Cells.lean ====
section
/-!
DEFINITION. Sys2Proof/Machine/Cells.lean: cells bit by bit: the header words (R63), a native cell on the wire (R62), the E2E CRC (R68),
the hop CRC (R69), the abort marker (R78), and forerunner cells (R87).
-/
namespace Sys2Proof

open Sys2Proof.Machine

/-- Header word W0 (R63). -/
def Cell.w0 (c : Cell) : Nat :=
  c.ctype * 2 ^ 28 + c.cls * 2 ^ 26 + b2n c.ce * 2 ^ 25 + b2n c.psn * 2 ^ 24 + c.dhub * 2 ^ 18 + c.dport * 2 ^ 14 + c.shub * 2 ^ 8 + c.sport * 2 ^ 4 + c.rsv0

/-- Header word W1 (R63). -/
def Cell.w1 (c : Cell) : Nat := c.tunnel * 2 ^ 20 + c.tseq * 2 ^ 4 + b2n c.fst * 8 + b2n c.lst * 4 + b2n c.wc * 2 + c.rsv1

/-- Header word W2 (R63). -/
def Cell.w2 (c : Cell) : Nat := c.vhc * 2 ^ 26 + c.gen * 2 ^ 18 + c.tag * 2 ^ 6 + c.rsv2

/-- Header word W3 (R63). -/
def Cell.w3 (c : Cell) : Nat := c.lseq * 2 ^ 20 + c.hops * 2 ^ 14 + c.len * 2 ^ 5 + c.rsv3

/-- The bytes over which the E2E CRC runs (R68): ce, psn and all of W3 except len read as zero. -/
def Cell.e2eBytes (c : Cell) : List Byte :=
  leBytes 4 ({ c with ce := false, psn := false } : Cell).w0 ++ leBytes 4 c.w1 ++ leBytes 4 c.w2 ++ leBytes 4 (c.len % 512 * 32) ++ c.payload.take c.len

/-- The E2E CRC that a cell should carry (R68). -/
def Cell.e2eCalc (c : Cell) : Nat := crc32c c.e2eBytes

/-- A cell with its length and E2E CRC filled in from its payload: what an ingress bay, core or host sends. -/
def Cell.seal (c : Cell) : Cell :=
  let c : Cell := { c with len := c.payload.length }
  { c with e2e := c.e2eCalc }

/-- The first 276 bytes of a native cell on the wire: header, payload field with its padding, E2E CRC (R62). A cell passed on keeps the padding that it came with (R70 step 3). -/
def Cell.body (c : Cell) : List Byte :=
  leBytes 4 c.w0 ++ leBytes 4 c.w1 ++ leBytes 4 c.w2 ++ leBytes 4 c.w3 ++ (c.payload ++ c.pad ++ List.replicate 256 0).take 256 ++ leBytes 4 c.e2e

/-- A native cell on the wire with its hop CRC (R62, R69). -/
def Cell.bytes (c : Cell) : List Byte := c.body ++ leBytes 2 (crcHop c.body) ++ [0, 0]

/-- A native cell that ends with the abort marker (R78). -/
def Cell.abortBytes (c : Cell) : List Byte := c.body ++ leBytes 2 (crcHop c.body ^^^ 0xFFFF) ++ [0xA5, 0x5A]

/-- The cell that 280 wire bytes spell (R62, R63). -/
def cellOf (l : List Byte) : Cell :=
  let w0 := numAt l 0 4
  let w1 := numAt l 4 4
  let w2 := numAt l 8 4
  let w3 := numAt l 12 4
  let len := bitsOf w3 13 5
  let pad := ((l.drop 16).take 256).drop (min len 256)
  { ctype := bitsOf w0 31 28, cls := bitsOf w0 27 26, ce := bitOf w0 25 = 1, psn := bitOf w0 24 = 1, dhub := bitsOf w0 23 18,
    dport := bitsOf w0 17 14, shub := bitsOf w0 13 8, sport := bitsOf w0 7 4, rsv0 := bitsOf w0 3 0,
    tunnel := bitsOf w1 31 20, tseq := bitsOf w1 19 4, fst := bitOf w1 3 = 1, lst := bitOf w1 2 = 1, wc := bitOf w1 1 = 1, rsv1 := bitOf w1 0,
    vhc := bitsOf w2 31 26, gen := bitsOf w2 25 18, tag := bitsOf w2 17 6, rsv2 := bitsOf w2 5 0,
    lseq := bitsOf w3 31 20, hops := bitsOf w3 19 14, len := len, rsv3 := bitsOf w3 4 0,
    payload := (l.drop 16).take (min len 256), pad := if pad.all (· == 0) then [] else pad, e2e := numAt l 272 4 }

/-- The hop CRC of received bytes is right (R69). -/
def hopGood (l : List Byte) : Bool := numAt l 276 2 = crcHop (l.take 276)

/-- Received bytes end with the abort marker (R78). -/
def hopAbort (l : List Byte) : Bool := numAt l 276 2 = (crcHop (l.take 276) ^^^ 0xFFFF) && byteAt l 278 = 0xA5 && byteAt l 279 = 0x5A

/-- Classes (R63). -/
def clsM : Nat := 0
def clsG : Nat := 1
def clsT : Nat := 2
def clsE : Nat := 3

/-- A cell is hop-local (R64): fill, credit or ack/nak. -/
def Cell.hopLocal (c : Cell) : Bool := c.ctype = 0 || c.ctype = 8 || c.ctype = 9

/-- A cell is a hop control cell (R64, R66). -/
def Cell.hopCtl (c : Cell) : Bool := c.ctype = 0xA && c.tunnel = 0

/-- A known cell type (R64). -/
def Cell.typeOk (c : Cell) : Bool :=
  c.ctype ≤ 4 || c.ctype = 8 || c.ctype = 9 || c.ctype = 0xA || c.ctype = 0xB || c.ctype = 0xC || c.ctype = 0xF

/-- A cell starts a packet: first, only, or a cell of one of the single-cell types (R63, R64). -/
def Cell.starts (c : Cell) : Bool := c.ctype = 1 || c.ctype = 4 || c.ctype = 0xA || c.ctype = 0xB || c.ctype = 0xC

/-- A cell ends a packet (R140). -/
def Cell.ends (c : Cell) : Bool := c.ctype = 3 || c.ctype = 4 || c.ctype = 0xA || c.ctype = 0xB || c.ctype = 0xC

/-- The context that an error capture takes from a cell (R458). -/
def Cell.ctx (c : Cell) : Ctx := ⟨c.w2, c.w1, c.w0⟩

/-! ### Forerunner cells (R87) -/

/-- The header word of a forerunner cell and its fields. -/
structure FCell where
  ptype : Nat
  pcls  : Nat
  dhub  : Nat
  dport : Nat
  shub  : Nat
  sport : Nat
  chan  : Nat
  lseq  : Nat
  cseq  : Nat
  plen  : Nat
  data  : List Byte
deriving DecidableEq, Repr

/-- The forerunner cell that 128 wire bytes spell. -/
def fcellOf (l : List Byte) : FCell :=
  let w := numAt l 0 8
  let n := bitsOf w 6 0
  { ptype := bitsOf w 63 60, pcls := bitsOf w 59 58, dhub := bitsOf w 57 52, dport := bitsOf w 51 48, shub := bitsOf w 47 42, sport := bitsOf w 41 38,
    chan := bitsOf w 37 26, lseq := bitsOf w 25 14, cseq := bitsOf w 13 7, plen := n, data := (l.drop 8).take (min n 116) }

/-- The forerunner CRC of received bytes is right (R87). -/
def fcellGood (l : List Byte) : Bool := numAt l 124 4 = crc32 (l.take 124)

/-- A forerunner cell on the wire (R87). -/
def FCell.bytes (f : FCell) : List Byte :=
  let body := leBytes 8 (f.ptype * 2 ^ 60 + f.pcls * 2 ^ 58 + f.dhub * 2 ^ 52 + f.dport * 2 ^ 48 + f.shub * 2 ^ 42 + f.sport * 2 ^ 38 + f.chan * 2 ^ 26
      + f.lseq * 2 ^ 14 + f.cseq * 2 ^ 7 + f.plen) ++ f.data.take 116 ++ List.replicate (116 - f.data.length) 0
  body ++ leBytes 4 (crc32 body)

/-- The stream of which a forerunner cell is a part: tunnel, source and destination. -/
def FCell.stream (f : FCell) : Nat := (f.chan * 64 + f.shub) * 64 + f.dhub

/-- A forerunner cell of a type that a stream of cells has (R87). -/
def FCell.known (f : FCell) : Bool := (1 ≤ f.ptype && f.ptype ≤ 7) || f.ptype = 0xA || f.ptype = 0xD

/-- A forerunner cell is a hop control cell (R66). -/
def FCell.hopCtl (f : FCell) : Bool := f.ptype = 0xA && f.chan = 0

/-- Bytes cut into pieces of at most `n` (structural on the fuel `k`). -/
def chunks (n : Nat) : Nat → List Byte → List (List Byte)
  | 0, _ => []
  | k + 1, l => if l.length ≤ n then [l] else l.take n :: chunks n k (l.drop n)

/-- The carrier pieces of a native cell across a P1 hop (R89): 16 header bytes, the payload, the E2E CRC, cut at 116 bytes. -/
def Cell.carrier (c : Cell) : List FCell :=
  let all := leBytes 4 c.w0 ++ leBytes 4 c.w1 ++ leBytes 4 c.w2 ++ leBytes 4 c.w3 ++ c.payload.take c.len ++ leBytes 4 c.e2e
  let ps := chunks 116 4 all
  let n := ps.length
  (List.range n).map (fun i =>
    { ptype := if n = 1 then 0xD else if i = 0 then 5 else if i + 1 = n then 7 else 6, pcls := c.cls, dhub := c.dhub, dport := c.dport, shub := c.shub,
      sport := c.sport, chan := c.tunnel, lseq := 0, cseq := c.tseq % 128, plen := (ps.getD i []).length, data := ps.getD i [] })

/-- The native cell that reassembled carrier bytes spell (R89). -/
def cellOfCarrier (l : List Byte) : Cell :=
  let len := l.length - 20
  { cellOf (l.take 16 ++ (l.drop 16).take len ++ List.replicate (256 - len) 0 ++ l.drop (16 + len)) with payload := (l.drop 16).take len, pad := [], e2e := numAt l (16 + len) 4 }

end Sys2Proof
end

