-- ==== Sys2Proof/Machine/Granary.lean ====
section
/-!
DEFINITION. Sys2Proof/Machine/Granary.lean: buffers, accounts and credits (R132–R136, R515), queues and the winnower (R124, R138),
the resequencers (R85, R86), packets at a local egress (R139–R141, R516), tunnel entries (R150), and the forwarding decision (R126).
-/
namespace Sys2Proof.Machine

open Sys2Proof

/-- Apply `f` where a condition holds. -/
def State.when (s : State) (b : Bool) (f : State → State) : State := if b then f s else s

/-- Apply a step for each element of a list, in order. -/
def State.each {α : Type} (s : State) (l : List α) (f : State → α → State) : State := l.foldl f s

/-! ### Counters of R147 -/

/-- Count in a counter behind SWC.CNT_SEL: port code, counter code. -/
def State.count (s : State) (p c : Nat) (n : Nat := 1) : State := s.bump (Pg.cnt p) (CNTX.value c) n

/-- The port whose ball group has a port code. -/
def portOf (code : Nat) : Port := if code = 0 then .tu else .td

/-! ### Accounts (R132, R515) -/

/-- in_use of an account. -/
def State.inUse (s : State) (a : Nat) : Nat := s.rd Pg.grn (GRN.RES_in_use a)

/-- in_use changes by one more buffer, and PEAK and the placement loop's peak follow. -/
def State.chargeAcct (s : State) (a : Nat) : State :=
  let s := s.wr Pg.grn (GRN.RES_in_use a) (s.inUse a + 1)
  let s := if s.rd Pg.grn (GRN.PEAK_peak a) < s.inUse a then s.wr Pg.grn (GRN.PEAK_peak a) (s.inUse a) else s
  if (Tab.find a s.gran.peaks).getD 0 < s.inUse a then { s with gran := { s.gran with peaks := Tab.put a (s.inUse a) s.gran.peaks } } else s

/-- in_use changes by one buffer less. -/
def State.dischargeAcct (s : State) (a : Nat) : State := s.wr Pg.grn (GRN.RES_in_use a) (s.inUse a - 1)

/-- The credit limits that a port grants: their total (R81). -/
def State.grantTotal (s : State) (p : Port) : Nat :=
  s.rd (Pg.lnk p) LNK.CRD_LIM0_m_lim + s.rd (Pg.lnk p) LNK.CRD_LIM0_g_lim + s.rd (Pg.lnk p) LNK.CRD_LIM1_t_lim
    + s.rd (Pg.lnk p) LNK.CRD_LIM1_e_lim + s.rd (Pg.lnk p) LNK.CRD_LIM2_sh_lim

def Limits.total (l : Limits) : Nat := l.m + l.g + l.t + l.e + l.sh

/-- The size of a trunk account (R515); 0 while the port has no link layer. -/
def State.acctSize (s : State) (a : Nat) : Nat :=
  if a < 2 then (if (s.link (portOf a)).up then s.grantTotal (portOf a) else 0)
  else if (s.link (portOf (a - 2))).up then (s.link (portOf (a - 2))).pLimits.total else 0

/-- The reserve that an account holds: the placement reserve of accounts 4–9, the size of accounts 0–3. -/
def State.reserveOf (s : State) (a : Nat) : Nat := if a < 4 then s.acctSize a else s.rd Pg.grn (GRN.RES_reserve a)

/-- Free buffers (GRN_STAT.free). -/
def State.freeBufs (s : State) : Nat := 32768 - sumNat ((List.range 10).map s.inUse)

/-- The common pool of R134. -/
def State.commonFree (s : State) : Nat := s.freeBufs - sumNat ((List.range 10).map (fun a => s.reserveOf a - s.inUse a))

/-- A local account admits a cell (R134). -/
def State.admits (s : State) (a : Nat) : Bool :=
  s.inUse a < s.reserveOf a || (s.inUse a < s.rd Pg.grn (GRN.LIMITS_ceiling a) && 0 < s.commonFree)

/-! ### Credit limits granted (R81, R128, R136) -/

/-- N_rt of a port. -/
def State.nrt (s : State) (p : Port) : Nat := s.rd (Pg.lnk p) LNK.CRD_CFG_rt_cells

/-- ⌈N_rt × share / 16⌉. -/
def shareCells (n share : Nat) : Nat := ceilDiv (n * share) 16

/-- The shared limit of R81 before any cut. -/
def State.sharedBase (s : State) (p : Port) : Nat :=
  s.nrt p - shareCells (s.nrt p) (s.rd (Pg.lnk p) LNK.CRD_CFG_m_share) - shareCells (s.nrt p) (s.rd (Pg.lnk p) LNK.CRD_CFG_g_share)

/-- Write the limits that a port grants: R81, less the cut of R136, less the cells still held from before the link-layer
initialisation (R128: the shared limit first, then T and E in equal steps). -/
def State.setLimits (s : State) (p : Port) : State :=
  let l := s.link p
  let sh := s.sharedBase p - l.shCut
  let fromSh := min l.carry sh
  let rest := l.carry - fromSh
  let t := 16 - min 16 (ceilDiv rest 2)
  let e := 16 - min 16 (rest / 2)
  let m := shareCells (s.nrt p) (s.rd (Pg.lnk p) LNK.CRD_CFG_m_share) + 16
  let g := shareCells (s.nrt p) (s.rd (Pg.lnk p) LNK.CRD_CFG_g_share) + 16
  let s := s.wr (Pg.lnk p) LNK.CRD_LIM0_m_lim m
  let s := s.wr (Pg.lnk p) LNK.CRD_LIM0_g_lim g
  let s := s.wr (Pg.lnk p) LNK.CRD_LIM1_t_lim t
  let s := s.wr (Pg.lnk p) LNK.CRD_LIM1_e_lim e
  let s := s.wr (Pg.lnk p) LNK.CRD_LIM2_sh_lim (sh - fromSh)
  let x := l.granted
  s.setLink p { l with granted := if l.up then { m := max x.m m, g := max x.g g, t := max x.t t, e := max x.e e, sh := max x.sh (sh - fromSh) } else {} }

/-- The sum of R135: the floors of accounts 4–9 and the sizes of accounts 0–3. -/
def State.granSum (s : State) : Nat :=
  sumNat ((List.range 4).map s.acctSize) + sumNat ([4, 5, 6, 7, 8, 9].map (fun a => s.rd Pg.grn (GRN.LIMITS_floor a)))

/-- The placement loop's formula for every reserve (R137), from given targets' peaks; `step` says that a new period starts. -/
def State.place (s : State) : State :=
  let avail : Int := 32768 - (sumNat ((List.range 4).map (fun a => max (s.acctSize a) (s.inUse a))) : Nat)
  let floor := fun a => s.rd Pg.grn (GRN.LIMITS_floor a)
  let accts := [4, 5, 6, 7, 8, 9]
  let target := fun a => let pk := (Tab.find a s.gran.peaks).getD 0; pk + pk * s.rd Pg.grn GRN.PLC_CFG_headroom / 16
  let want := fun a => min (max (target a) (floor a)) (s.rd Pg.grn (GRN.LIMITS_ceiling a))
  let floors := sumNat (accts.map floor)
  let room : Int := avail - (floors : Nat)
  let extra := sumNat (accts.map (fun a => want a - floor a))
  let res := fun a =>
    if room < 0 then (if floors = 0 then 0 else floor a - ((floor a * room.natAbs) / floors))
    else if room < (extra : Nat) then floor a + ((want a - floor a) * room.toNat) / extra
    else want a
  let vals := accts.map (fun a => (a, res a))
  let pins := accts.filter (fun a => want a != target a)
  let s := s.each pins (fun s a =>
    if bitOf (s.rd Pg.grn GRN.PLC_PIN_pin) (a - 4) = 1 then s
    else (s.wr Pg.grn GRN.PLC_PIN_pin (s.rd Pg.grn GRN.PLC_PIN_pin + 2 ^ (a - 4))).raise Pg.grn GRN.ev_plc_pinned)
  let s := s.each vals (fun s v => s.wr Pg.grn (GRN.RES_reserve v.1) v.2)
  { s with gran := { s.gran with peaks := accts.map (fun a => (a, s.inUse a)) } }

/-- Reserves below their floors in proportion, when the sum of R135 still does not fit (R136). The rule names the placement loop and no moment: the model lowers them at once, with the
formula of the loop, even while PLC_CFG.hold stands (DESIGN CHOICE, log entry 134). -/
def State.shrinkReserves (s : State) : State :=
  let avail : Nat := 32768 - sumNat ((List.range 4).map (fun a => max (s.acctSize a) (s.inUse a)))
  let floors := sumNat ([4, 5, 6, 7, 8, 9].map (fun a => s.rd Pg.grn (GRN.LIMITS_floor a)))
  let vals := [4, 5, 6, 7, 8, 9].map (fun a => let f := s.rd Pg.grn (GRN.LIMITS_floor a)
    (a, if floors = 0 then 0 else f - (f * (floors - avail)) / floors))
  s.each vals (fun s v => s.wr Pg.grn (GRN.RES_reserve v.1) v.2)

/-- Fit the sum of R135 after a change of credit sizes (R136). -/
def State.fitCredits (s : State) : State :=
  let s := s.setLink .tu { s.link .tu with shCut := 0 }
  let s := s.setLink .td { s.link .td with shCut := 0 }
  let s := (s.setLimits .tu).setLimits .td
  let excess := s.granSum - 32768
  if excess = 0 then s.wr Pg.grn GRN.GRN_STAT_short 0
  else
    let can := fun p => if (s.link p).up then s.sharedBase p - 16 else 0
    let a := min (can .tu) (max (ceilDiv excess 2) (excess - can .td))
    let b := min (can .td) (excess - a)
    let s := s.setLink .tu { s.link .tu with shCut := a }
    let s := s.setLink .td { s.link .td with shCut := b }
    let s := (s.setLimits .tu).setLimits .td
    let s := if s.on Pg.grn GRN.GRN_STAT_short then s else (s.wr Pg.grn GRN.GRN_STAT_short 1).raise Pg.grn GRN.ev_reserve_short
    if 32768 < s.granSum then s.shrinkReserves else s

/-- A write of CRD_CFG (R83). -/
def State.crdCfg (s : State) (p : Port) (v : Nat) : State :=
  if 15 < bitsOf v 3 0 + bitsOf v 11 8 then s.raise (Pg.lnk p) LNK.ev_cfg_err
  else
    let s := s.wr (Pg.lnk p) LNK.CRD_CFG_rt_cells (bitsOf v 31 16)
    let s := s.wr (Pg.lnk p) LNK.CRD_CFG_g_share (bitsOf v 11 8)
    (s.wr (Pg.lnk p) LNK.CRD_CFG_m_share (bitsOf v 3 0)).fitCredits

/-! ### Buffers moving between accounts (R133) -/

/-- A pool's count counts up by `n`, modulo 65,536 (R67): 0 M, 1 G, 2 T, 3 E, 4 and 5 T and E of the shared pool, others none. -/
def Pools.add (r : Pools) (pool n : Nat) : Pools := match pool with
  | 0 => { r with m := (r.m + n) % 65536 }
  | 1 => { r with g := (r.g + n) % 65536 }
  | 2 => { r with t := (r.t + n) % 65536 }
  | 3 => { r with e := (r.e + n) % 65536 }
  | 4 => { r with ts := (r.ts + n) % 65536 }
  | 5 => { r with es := (r.es + n) % 65536 }
  | _ => r

/-- The code of a charge: `a` credits of a class's private pool and `b` of the shared one. A single credit has its pool's own code (0 M, 1 G, 2 T, 3 E, 4 T shared, 5 E shared); of the
forerunner credits of a P1 hop (R88) both counts stand behind the class. -/
def chargeCode (cls a b : Nat) : Nat := if a + b = 1 then (if a = 1 then cls else cls + 2) else cls + 8 * a + 524288 * b

/-- What a charge's code says: the class, private and shared credits; code 6 holds none. -/
def chargeParts (code : Nat) : Nat × Nat × Nat :=
  if code < 4 then (code, 1, 0) else if code < 6 then (code - 2, 0, 1) else if code < 8 then (0, 0, 0) else (code % 8, code / 8 % 65536, code / 524288)

/-- The counts of the pools with a charge on top. -/
def Pools.charge (r : Pools) (code : Nat) : Pools :=
  let x := chargeParts code
  let r := if x.2.1 = 0 then r else r.add x.1 x.2.1
  if x.2.2 = 0 then r else r.add (x.1 + 2) x.2.2

/-- The queue at an index. -/
def State.queue (s : State) (q : Nat) : List Buf := (Tab.find q s.gran.queues).getD []

def State.setQueue (s : State) (q : Nat) (l : List Buf) : State :=
  { s with gran := { s.gran with queues := if l.isEmpty then Tab.del q s.gran.queues else Tab.put q l s.gran.queues } }

/-- The accounts in which references to a buffer stand: queues, resequencers, waiting cells, lists still to be swept, replay stores. -/
def State.refAccts (s : State) (bid : Nat) : List Nat :=
  s.gran.queues.flatMap (fun q => (q.2.filter (fun b => b.bid = bid)).map (·.acct)) ++
  s.gran.rsqs.flatMap (fun r => (r.2.held.filter (fun b => b.bid = bid)).map (·.acct)) ++
  (s.gran.waiting.filter (fun w => w.buf.bid = bid)).map (·.buf.acct) ++
  (s.gran.stale.filter (fun x => x.2.2.bid = bid)).map (·.2.2.acct) ++
  (s.gran.staleRpl.filter (fun x => x.2 = bid)).map (·.1) ++
  (s.lu.store.filter (fun x => x.bid = bid && bid != 0)).map (fun _ => 2) ++
  (s.ld.store.filter (fun x => x.bid = bid && bid != 0)).map (fun _ => 3)

/-- The account charged for a buffer with references in given accounts: an ingress account while one holds a reference (R133), else the lowest. -/
def chargeOf (l : List Nat) : Option Nat := l.min?

/-- A charge returns to the partner of a port (R133), every forerunner credit of it on a P1 hop (R88); code 6 is a cell held from before the link-layer initialisation, whose limit
rises again (R128). -/
def State.creditBack (s : State) (p : Port) (pool : Nat) : State :=
  let l := s.link p
  if pool = 6 then (s.setLink p { l with carry := l.carry - 1 }).setLimits p
  else s.setLink p { l with returned := l.returned.charge pool }

/-- A reference to a buffer goes from account `b.acct` to account `n` (none: it is released); the other references are as they stand
(the reference itself stands nowhere). The counts follow, and a credit returns when the last reference leaves an ingress account. -/
def State.moveRef (s : State) (b : Buf) (n : Option Nat) : State :=
  let others := s.refAccts b.bid
  let was := chargeOf (b.acct :: others)
  let now := chargeOf (n.toList ++ others)
  if was = now then s
  else
    let s := match was with
      | some a => if a < 10 then s.dischargeAcct a else s
      | none => s
    let s := match now with
      | some a => if a < 10 then s.chargeAcct a else s
      | none => s
    match was with
    | some a => if a < 2 then s.creditBack (portOf a) b.pool else s
    | none => s

/-- A consumer releases a buffer (R133). -/
def State.release (s : State) (b : Buf) : State := s.moveRef b none

/-! ### Tunnel entries (R150) -/

def Tun.v (w : Nat) : Bool := bitOf w 31 = 1
def Tun.cls (w : Nat) : Nat := bitsOf w 30 29
def Tun.act (w : Nat) : Bool := bitOf w 28 = 1
def Tun.shub (w : Nat) : Nat := bitsOf w 27 22
def Tun.sport (w : Nat) : Nat := bitsOf w 21 18
def Tun.dhub (w : Nat) : Nat := bitsOf w 17 12
def Tun.dport (w : Nat) : Nat := bitsOf w 11 8
def Tun.vhc (w : Nat) : Nat := bitsOf w 7 2
def Tun.dbay (w : Nat) : Nat := bitsOf w 1 0

/-- A tunnel entry. -/
def State.tunEnt (s : State) (n : Nat) : TunEnt := (Tab.find n s.sched.tun).getD {}

def TunEnt.half (e : TunEnt) (h : Nat) : Nat := if h = 0 then e.w0 else e.w1

/-- A routing half of an entry. -/
def State.half (s : State) (n h : Nat) : Nat := if h = 0 then (s.tunEnt n).w0 else (s.tunEnt n).w1

/-- The half of the tunnel entries that a port of the part uses: in a head that of the port's chain, else half 0 (R150). -/
def State.halfOfPort (s : State) (p : Port) : Nat := if s.mode = .head then chainOf p else 0

/-! ### Ports and roles (R28) -/

/-- The port that faces the home, and the other. -/
def State.tuRole (s : State) : Port := s.rolePort 0
def State.tdRole (s : State) : Port := s.rolePort 1

/-- A port's hop is a standby hop (towards a standby head, or at the standby head itself) or a boundary hop (R94, R110). -/
def State.standbyHop (s : State) (p : Port) : Bool :=
  s.chain.bounds.contains p ||
    (if s.mode = .head then (s.headChain (chainOf p)).standby
     else s.homed && p = s.tdRole && (match (s.trunk p).partner with
       | some g => g.head
       | none => false))

/-- The egress port of the calendar and the per-tunnel queue of a G tunnel at this part, if it leaves on a trunk (R125, R126). -/
def State.trunkOf (s : State) (n h : Nat) : Option Port :=
  let w := s.half n h
  if !Tun.v w then none
  else if s.mode = .head then (if Tun.shub w = 0 && Tun.dhub w = 0 then none else if Tun.dhub w = 0 then none else some (portOfChain h))
  else if Tun.dhub w = s.addr then none
  else if s.addr < Tun.dhub w then some s.tdRole else some s.tuRole

/-! ### Queues (R124, R125, R138) -/

/-- The class queue of an egress port code (R124). -/
def classQ (code cls : Nat) : Nat := 4096 + 4 * code + cls

/-- Whether a G tunnel is active on an egress port: the bank in force gives it a period there (R125, R150). -/
def State.gActive (s : State) (n : Nat) (p : Port) : Bool := (Tab.find (2 * n + Port.idx p) s.sched.cur.per).isSome

/-- The queue that a cell bound for a trunk egress joins (R125). -/
def State.trunkQueue (s : State) (p : Port) (c : Cell) : Nat :=
  let code := Port.idx p
  if c.cls = clsG && Tun.v (s.half c.tunnel (s.halfOfPort p)) && s.gActive c.tunnel p then c.tunnel else classQ code c.cls

/-- Tunnels whose activity on a trunk egress ended between two states keep their cells (R125): those in the tunnel's own queue go, in their order, to the tail of the egress's G class
queue. `old` is the state before, whose entries say where a queue drains. -/
def State.regroup (s old : State) : State :=
  s.each (old.gran.queues.filter (fun q => q.1 < 4096)) (fun s q =>
    let p : Port := if old.trunkOf q.1 (old.halfOfPort .tu) = some .tu && old.gActive q.1 .tu then .tu else .td
    if s.trunkOf q.1 (s.halfOfPort p) = some p && s.gActive q.1 p then s
    else
      let g := classQ (Port.idx p) clsG
      (s.setQueue g (s.queue g ++ s.queue q.1)).setQueue q.1 [])

/-- Add to a table of counts. -/
def tabAdd (t : Tab Nat) (k n : Nat) : Tab Nat := Tab.put k ((Tab.find k t).getD 0 + n) t

/-- A DYING_GASP of this part, which goes ahead of every queued cell (R116). -/
def ownGasp (c : Cell) : Bool := c.ctype = 0xA && c.tunnel = 2 && c.hops = 0 && numAt c.payload 0 1 = 0x1B

/-- A cell joins a queue of egress port `code`: the winnower marks it (R138), and the depths of R162 follow. -/
def State.joinQueue (s : State) (code q : Nat) (b : Buf) : State :=
  let l := s.queue q
  let thr := if q < 4096 then s.rd Pg.grn GRN.TQ_MARK_tq_mark else s.rd Pg.grn (GRN.THR_mark (q - 4096))
  let mark := thr != 0xFFFF && thr ≤ l.length
  let b := if mark then { b with cell := { b.cell with ce := true } } else b
  let s := s.setQueue q (if ownGasp b.cell then l.filter (fun x => ownGasp x.cell) ++ b :: l.filter (fun x => !ownGasp x.cell) else l ++ [b])
  let s := if q < 4096 then { s with sched := { s.sched with depth := Tab.put q (max ((Tab.find q s.sched.depth).getD 0) (l.length + 1)) s.sched.depth } } else s
  let s := s.count code 3
  if mark then
    let s := s.count code 4
    let s := { s with sched := { s.sched with marks := tabAdd s.sched.marks b.cell.tunnel 1 } }
    let s := if code < 2 && (b.cell.cls = clsT || b.cell.cls = clsE) then
      { s with sched := { s.sched with egrMarks := if code = 0 then (s.sched.egrMarks.1 + 1, s.sched.egrMarks.2) else (s.sched.egrMarks.1, s.sched.egrMarks.2 + 1) } } else s
    if q < 4096 then
      let s := s.wr Pg.sch SCH.OVR_tunnel b.cell.tunnel
      let s := s.bump Pg.sch SCH.OVR_count 1
      s.raise Pg.sch SCH.ev_g_overrun
    else s
  else s

/-! ### Packets at a local egress (R139–R141, R516) -/

/-- Two cells belong to one tunnel's stream: the tunnel, and for the management tunnels the source and destination too (R94). -/
def sameStream (a b : Cell) : Bool := a.tunnel = b.tunnel && (16 ≤ a.tunnel || (a.shub = b.shub && a.dhub = b.dhub))

/-- The number of a cell's stream. -/
def streamKey (c : Cell) : Nat := if c.tunnel < 16 then (c.tunnel * 64 + c.shub) * 64 + c.dhub else 0x100000 + c.tunnel

/-- The cells of the open packet of a stream in a queue. -/
def State.openCells (s : State) (q : Nat) (c : Cell) : List Buf := (s.queue q).filter (fun b => !b.commit && sameStream b.cell c)

/-- Rewind the open packet of a stream, if there is one: free its buffers and count it (R141). -/
def State.rewind (s : State) (code q : Nat) (c : Cell) : State :=
  let o := s.openCells q c
  if o.isEmpty then s
  else
    let s := s.setQueue q ((s.queue q).filter (fun b => b.commit || !sameStream b.cell c))
    (s.each o State.release).count code 7

/-- The drop threshold of an egress's E class queue is met (R139). -/
def State.eFull (s : State) (code q : Nat) : Bool :=
  let drop := s.rd Pg.grn (GRN.THR_drop (4 * code + 3))
  drop != 0xFFFF && drop ≤ (s.queue q).length

/-- A cell of an E packet would be dropped at a queue, or ends a drop there (R139). -/
def State.eDropped (s : State) (code q : Nat) (c : Cell) : Bool :=
  s.gran.dropping.contains (q, streamKey c) || (c.cls = clsE && c.starts && s.eFull code q)

/-- E packets are dropped whole (R139): the cell is freed with its packet (true), or goes on to the queue. -/
def State.eDrop (s : State) (code q : Nat) (b : Buf) : Bool × State :=
  let c := b.cell
  let k := (q, streamKey c)
  let clear := fun (s : State) => ({ s with gran := { s.gran with dropping := s.gran.dropping.filter (· != k) } } : State)
  if c.starts then
    let s := clear s
    if c.cls = clsE && s.eFull code q then
      let s := ((s.release b).count code 5).raise Pg.grn GRN.ev_e_drop
      (true, if c.ends then s else { s with gran := { s.gran with dropping := s.gran.dropping ++ [k] } })
    else (false, s)
  else if s.gran.dropping.contains k then (true, if c.ends || c.ctype = 0xF then clear (s.release b) else s.release b)
  else (false, s)

/-- A cell joins its class queue at a local egress in tseq order. -/
def State.joinLocal (s : State) (code : Nat) (b : Buf) : State :=
  let c := b.cell
  let q := classQ code c.cls
  if c.ctype = 0xF then
    let s := (s.rewind code q c).release b
    if c.cls = clsG then { s with gran := { s.gran with cuts := s.gran.cuts ++ [(c.tunnel, 2)] } } else s
  else
  let s := if c.starts then s.rewind code q c else s
  match s.eDrop code q b with
  | (true, s) => s
  | (false, s) =>
  if c.starts then s.joinQueue code q { b with commit := c.ends }
  else if (s.openCells q c).isEmpty then (s.release b).count code 0xA
  else
    let s := s.joinQueue code q { b with commit := false }
    if max 36 (s.rd Pg.grn GRN.PKT_CFG_max_cells) < (s.openCells q c).length then (s.rewind code q c).raise Pg.grn GRN.ev_pkt_long c.ctx
    else if c.ends then s.setQueue q ((s.queue q).map (fun x => if !x.commit && sameStream x.cell c then { x with commit := true } else x))
    else s

/-! ### The resequencers (R85, R86) -/

/-- The resequencer of a cell: by tunnel and half, and for the management tunnels by source and destination too (R94). -/
def rsqKey (c : Cell) (half : Nat) : Nat :=
  if c.tunnel < 16 then (((c.tunnel * 64 + c.shub) * 64 + c.dhub) * 2 + half) else 0x100000 + c.tunnel * 2 + half

def State.rsq (s : State) (k : Nat) : Option Rsq := Tab.find k s.gran.rsqs

def State.setRsq (s : State) (k : Nat) (r : Rsq) : State := { s with gran := { s.gran with rsqs := Tab.put k r s.gran.rsqs } }

/-- Cells of a stream are lost ahead of one of its cells (R86): its open packet is aborted with cause 0x04; a group of a G tunnel is cut (R249). -/
def State.gapIn (s : State) (code : Nat) (c : Cell) : State :=
  let s := if c.cls = clsG then { s with gran := { s.gran with cuts := s.gran.cuts ++ [(c.tunnel, 1)] } } else s
  s.rewind code (classQ code c.cls) c

/-- One declaration of loss (R86): counted, recorded, and the open packet that spans the gap is aborted. -/
def State.declareLoss (s : State) (code first : Nat) (c : Cell) : State :=
  let s := s.bump (Pg.lnk .tu) LNK.RSQ_CNT0_rsq_gap 1
  let s := s.wr (Pg.lnk .tu) LNK.RSQ_GAP_gap_tunnel c.tunnel
  let s := s.wr (Pg.lnk .tu) LNK.RSQ_GAP_gap_tseq first
  (s.raise (Pg.lnk .tu) LNK.ev_rsq_gap c.ctx).gapIn code c

/-- Deliver the held cells that follow in order (structural on the fuel). -/
def State.releaseHeld (k : Nat) : Nat → State → State
  | 0, s => s
  | n + 1, s => match s.rsq k with
    | none => s
    | some r => match r.held.find? (fun b => b.cell.tseq = r.exp) with
      | none => s
      | some b => State.releaseHeld k n ((s.setRsq k { r with exp := (r.exp + 1) % 65536, held := r.held.filter (fun x => x.cell.tseq != r.exp) }).joinLocal r.code b)

/-- Held cells join in order; at each gap between them the packet that spans it is aborted (R86). `e` is the number expected. -/
def State.joinHeld (s : State) (code : Nat) : Nat → List Buf → State
  | _, [] => s
  | e, b :: rest =>
    let s := if b.cell.tseq = e then s else s.gapIn code b.cell
    State.joinHeld (s.joinLocal code b) code ((b.cell.tseq + 1) % 65536) rest

/-- Deliver every held cell behind `exp`, in order, and set the expected value. -/
def State.advanceRsq (s : State) (k exp : Nat) (c : Cell) : State := match s.rsq k with
  | none => s
  | some r =>
    let behind := r.held.filter (fun b => serialDist 16 r.exp b.cell.tseq < serialDist 16 r.exp exp)
    let sorted := behind.mergeSort (fun a b => serialDist 16 r.exp a.cell.tseq ≤ serialDist 16 r.exp b.cell.tseq)
    let s := s.setRsq k { r with exp := exp, held := r.held.filter (fun b => !behind.contains b) }
    let s := s.joinHeld r.code r.exp sorted
    match sorted.getLast? with
    | some b => if (b.cell.tseq + 1) % 65536 = exp then s else s.gapIn r.code c
    | none => s

/-- A cell reaches the resequencer of its tunnel at a local egress (R85). A management tunnel has no entry with which its resequencer could start: it starts at the first cell (DESIGN CHOICE, log entry 9). -/
def State.resequence (s : State) (code half : Nat) (b : Buf) : State :=
  let c := b.cell
  let k := rsqKey c half
  let r : Rsq := (s.rsq k).getD { code := code, exp := if c.tunnel < 16 then c.tseq else 0 }
  let r := { r with code := code }
  let d := serialDist 16 r.exp c.tseq
  if d = 0 then
    let s := (s.setRsq k { r with exp := (r.exp + 1) % 65536 }).joinLocal code b
    State.releaseHeld k (r.held.length + 1) s
  else if 32768 ≤ d then ((s.setRsq k r).release b).bump (Pg.lnk .tu) LNK.RSQ_CNT1_rsq_dup 1
  else if c.cls = clsE then
    let s := s.bump (Pg.lnk .tu) LNK.RSQ_CNT1_rsq_skip d
    (s.setRsq k { r with exp := (c.tseq + 1) % 65536 }).joinLocal code b
  else if r.held.any (fun x => x.cell.tseq = c.tseq) then ((s.setRsq k r).release b).bump (Pg.lnk .tu) LNK.RSQ_CNT1_rsq_dup 1
  else if d < 64 then s.setRsq k { r with held := r.held ++ [b] }
  else
    let s := (s.setRsq k { r with held := r.held ++ [b] }).declareLoss code r.exp c
    let s := s.advanceRsq k ((c.tseq + 65536 - 63) % 65536) c
    State.releaseHeld k 64 s

/-! ### Where a cell goes (R16, R126, R513) -/

/-- The egress port code of a dport at its destination part (R16); none where R513 gives a header error or, for dport 0x5, no entry leads on. -/
def State.localCode (s : State) (half : Nat) (c : Cell) : Option Nat :=
  if c.tunnel = 1 || c.tunnel = 2 || c.tunnel = 3 then some 6
  else if c.dport = 0 || c.dport = 6 || c.dport = 7 then some 6
  else if c.dport ≤ 4 then (if s.fused (c.dport - 1) then none else some (c.dport + 1))
  else if c.dport = 5 then (if s.fused (Tun.dbay (s.half c.tunnel half)) then none else some (Tun.dbay (s.half c.tunnel half) + 2))
  else if c.dport = 8 then (if s.mode = .head then some 7 else none)
  else none

/-- The dport gives a header error at its destination part (R513). -/
def State.badPort (s : State) (c : Cell) : Bool :=
  9 ≤ c.dport || (c.dport = 8 && s.mode != .head) || (1 ≤ c.dport && c.dport ≤ 4 && s.fused (c.dport - 1))

/-- A tunnel's entry lets a cell reach an egress function: the management tunnels need none (R149), but for dport 0x5, whose bay only an entry names (R16); every other needs a valid
half (R154). -/
def State.entryOk (s : State) (half : Nat) (c : Cell) : Bool :=
  (c.tunnel < 16 && (c.dport != 5 || (1 ≤ c.tunnel && c.tunnel ≤ 3))) || Tun.v (s.half c.tunnel half)

/-- A cell joins the queue of a trunk egress; E packets are dropped whole there too (R138, R139). -/
def State.joinTrunk (s : State) (code q : Nat) (b : Buf) : State := match s.eDrop code q b with
  | (true, s) => s
  | (false, s) => s.joinQueue code q b

/-- Try to charge a cell to the account it waits for, and on to its place: a local egress through its resequencer, or a trunk queue. -/
def State.settleCell (s : State) (w : Wait) : Option State :=
  let q := if w.code < 2 then s.trunkQueue (portOf w.code) w.buf.cell else classQ w.code w.buf.cell.cls
  if s.gran.stopped.contains q then none
  else if w.want < 10 && w.buf.acct != w.want && !s.admits w.want then none
  else
    let s := if w.want < 10 && w.buf.acct != w.want then s.moveRef w.buf (some w.want) else s
    let b := { w.buf with acct := if w.want < 10 then w.want else w.buf.acct }
    some (if w.code < 2 then s.joinTrunk w.code q b else s.resequence w.code w.half b)

/-- A cell goes to its place, or waits behind those that wait for the same (R133, R134). -/
def State.takeCell (s : State) (w : Wait) : State :=
  let behind := s.gran.waiting.any (fun x => x.code = w.code && x.buf.cell.cls = w.buf.cell.cls && x.want = w.want)
  let gasp := ownGasp w.buf.cell
  match (if behind && !gasp then none else s.settleCell w) with
  | some t => t
  | none => { s with gran := { s.gran with waiting := if gasp then w :: s.gran.waiting else s.gran.waiting ++ [w] } }

/-- Take up the waiting cells again, in their order, after buffers were released. -/
def State.retryWaiting (s : State) : State :=
  let ws := s.gran.waiting
  let s : State := { s with gran := { s.gran with waiting := [] } }
  s.each ws State.takeCell

/-- Every buffer in use, by buffer number + 1. -/
def State.usedBids (s : State) : List Nat :=
  s.gran.queues.flatMap (fun q => q.2.map (·.bid)) ++ s.gran.rsqs.flatMap (fun r => r.2.held.map (·.bid)) ++ s.gran.waiting.map (·.buf.bid) ++
    s.gran.stale.map (·.2.2.bid) ++ s.gran.staleRpl.map (·.2) ++ (s.lu.store ++ s.ld.store).map (·.bid)

/-- The first buffer from `n` on that is not in use, among 32,768; one more step than there are used ones finds it. -/
def freeFrom (used : List Nat) : Nat → Nat → Nat
  | 0, n => n
  | k + 1, n => if used.contains (n + 1) then freeFrom used k ((n + 1) % 32768) else n

/-- A buffer for a new cell (R123): the next free one of buffers 0–32,767. The model names a buffer by its number + 1, and writes 0 for a cell without one. -/
def State.newBid (s : State) : Nat × State :=
  let used := s.usedBids
  let n := freeFrom used (used.length + 1) s.gran.nextBid
  (n + 1, { s with gran := { s.gran with nextBid := (n + 1) % 32768 } })

/-- Discard a cell that a local function issued to a port without a route (R127, R513). -/
def State.noRoute (s : State) (src : Nat) (c : Cell) : State := (s.count src 6).raise Pg.swc SWC.ev_no_route c.ctx

/-- A cell of a tunnel that finds no valid entry (R154, R126). -/
def State.noEntry (s : State) : State := s.bump Pg.tun0 TUN.TUN_CNT_no_entry 1

/-- A queue reset has broken the packet of a cell's stream (R143 step 5). -/
def State.brokenStream (s : State) (c : Cell) : Bool := s.gran.broken.contains (streamKey c)

/-- The poison that a queue reset puts on the rest of an open packet (R143 step 5). -/
def State.poisonBroken (s : State) (c : Cell) : Cell × State :=
  if s.brokenStream c then
    ({ c with psn := true }, if c.ends || c.ctype = 0xF then { s with gran := { s.gran with broken := s.gran.broken.filter (· != streamKey c) } } else s)
  else (c, s)

/-- A cell from a local function (`src` port code) that its engine or its tunnel entry sends by trunk port `p`, or to this part (R126). -/
def State.fromLocal (s : State) (src : Nat) (p : Port) (c : Cell) : State :=
  let s := s.count src 0
  let s : State := if 16 ≤ c.tunnel then { s with sched := { s.sched with sent := tabAdd s.sched.sent c.tunnel 1 } } else s
  let (c, s) := s.poisonBroken c
  let half := s.halfOfPort p
  let mine := if s.mode = .head then c.dhub = 0 && s.homed && s.addr = 0 else c.dhub = s.addr && c.dhub != 63
  let want := src + 2
  if c.dhub != 63 && (mine || (s.mode = .head && c.dhub = 0 && c.shub = 0)) then
    if s.badPort c then s.noRoute src c
    else if !s.entryOk half c then s.noEntry
    else match s.localCode half c with
      | none => s.noRoute src c
      | some code =>
        let (n, s) := s.newBid
        s.takeCell ⟨code, src, half, want, ⟨n, c, 15, 6, false, s.chain.time % 2 ^ 32, src⟩⟩
  else
    let out := if s.mode = .head || c.dhub = 63 || c.tunnel < 16 then p else if s.addr < c.dhub then s.tdRole else s.tuRole
    if s.mode = .head && 16 ≤ c.tunnel && !(Tun.v (s.half c.tunnel half) && Tun.shub (s.half c.tunnel half) = 0) then s.noEntry
    else if !s.routed out then s.noRoute src c
    else
      let (n, s) := s.newBid
      s.takeCell ⟨Port.idx out, src, half, want, ⟨n, c, 15, 6, false, s.chain.time % 2 ^ 32, src⟩⟩

/-! ### What this part originates -/

/-- The counter from which a source numbers the cells of a tunnel: by destination for the management tunnels (R94), by half for the others (R154). -/
def seqKey (tunnel dhub half : Nat) : Nat := if tunnel < 16 then (tunnel * 64 + dhub) * 2 + half else 0x100000 + tunnel * 2 + half

/-- The next tseq of a tunnel sourced here. -/
def State.nextTseq (s : State) (tunnel dhub half : Nat) : Nat × State :=
  let k := seqKey tunnel dhub half
  let n := (Tab.find k s.gran.seqs).getD 0
  (n, { s with gran := { s.gran with seqs := Tab.put k ((n + 1) % 65536) s.gran.seqs } })

/-- The address that the part sends with on a port: a head that is not home of the port's chain counts as source 63 (R93, R94). -/
def State.srcAddr (s : State) (p : Port) : Nat := if s.mode = .head && !(s.headChain (chainOf p)).home then 63 else s.addr

/-- A cell of a management tunnel leaves the core by port `p`: numbered, addressed, sealed with its E2E CRC (R94, R95). -/
def State.sendCore (s : State) (p : Port) (ctype tunnel dhub dport : Nat) (payload : List Byte) : State :=
  let (n, s) := s.nextTseq tunnel dhub (s.halfOfPort p)
  s.fromLocal 6 p (({ ctype := ctype, cls := clsM, dhub := dhub, dport := dport, shub := s.srcAddr p, sport := 0, tunnel := tunnel, tseq := n, payload := payload } : Cell).seal)

/-- A packet of a tunnel sourced here leaves a local function: its cells in order, the first and last marked (R63). -/
def cutCells (c : Cell) (parts : List (List Byte)) : List Cell :=
  let n := parts.length
  (List.range n).map (fun i => { c with ctype := if n = 1 then 4 else if i = 0 then 1 else if i + 1 = n then 3 else 2, payload := parts.getD i [] })

/-- Send a packet in a tunnel sourced here: its bytes cut into cells of up to 256, numbered and sealed. -/
def State.sendPacket (s : State) (src : Nat) (p : Port) (c : Cell) (bytes : List Byte) : State :=
  let half := s.halfOfPort p
  s.each (cutCells c (chunks 256 (bytes.length / 256 + 1) bytes)) (fun s x =>
    let (n, s) := s.nextTseq x.tunnel x.dhub half
    s.fromLocal src p ({ x with tseq := n } : Cell).seal)

end Sys2Proof.Machine
end

