-- ==== Sys2Proof/Machine/Request.lean ====
section
/-!
DEFINITION. Sys2Proof/Machine/Request.lean: T-class transactions at their initiators (R179–R188, R193, R196): requests, tags and quotas,
completions and what each initiator does with them, and the answers that targets send.
-/
namespace Sys2Proof.Machine

open Sys2Proof

/-- The T request or completion that a packet's header cell and payload spell (R179). -/
def reqOf (c : Cell) : TReq :=
  let w0 := numAt c.payload 0 4
  let w1 := numAt c.payload 4 4
  { op := bitsOf w0 31 28, ro := bitOf w0 27 = 1, st := bitsOf w0 23 21, count := bitsOf w0 12 0, ticket := bitsOf w1 31 16, msg := bitsOf w1 15 8,
    addr := numAt c.payload 8 8, data := c.payload.drop 16, tunnel := c.tunnel, shub := c.shub, sport := c.sport, dport := c.dport, vhc := c.vhc,
    gen := c.gen, tag := c.tag, wc := c.wc, tseq := c.tseq, psn := c.psn }

/-- The 16-byte transaction header of a request or completion (R179). -/
def TReq.head (r : TReq) : List Byte :=
  leBytes 4 (r.op * 2 ^ 28 + b2n r.ro * 2 ^ 27 + r.st * 2 ^ 21 + r.count) ++ leBytes 4 (r.ticket * 65536 + r.msg * 256) ++ leBytes 8 r.addr

/-- Operation codes (R180). -/
def opMemRd : Nat := 0
def opMemWr : Nat := 1
def opCfgRd : Nat := 2
def opCfgWr : Nat := 3
def opMsg : Nat := 4
def opCpl : Nat := 8

/-- Completion statuses (R179). -/
def stSC : Nat := 0
def stUR : Nat := 1
def stCA : Nat := 2
def stCRS : Nat := 3
def stRetry : Nat := 4

/-- A request was posted (R180): MemWr without write-confirm, or Msg. -/
def TReq.posted (r : TReq) : Bool := (r.op = 1 && !r.wc) || r.op = 4

/-- A request breaks R181: a reserved op, a count outside its limits, data that is not its count. -/
def TReq.badFormat (r : TReq) : Bool :=
  match r.op with
  | 0 => r.count = 0 || 4096 < r.count
  | 1 => r.count = 0 || 512 < r.count || r.data.length != r.count
  | 2 => r.count = 0 || 4 < r.addr % 4 + r.count
  | 3 => r.count = 0 || 4 < r.addr % 4 + r.count || r.data.length != r.count
  | 4 => 512 < r.count || r.data.length != r.count
  | _ => true

/-- A read: it is answered with data. -/
def TReq.reads (r : TReq) : Bool := r.op = 0 || r.op = 2

/-! ### Sending (R179, R150) -/

/-- The chain of a request at this part: a head's chain, 0 elsewhere; and the port by which it leaves. -/
def State.portFor (s : State) (ch : Nat) : Port := if s.mode = .head then portOfChain ch else s.tuRole

/-- The generation that a source stamps: a head's VHC_STAT.gen, a hub's GEN_TBL (R142, R222). -/
def State.genFor (s : State) (v : Nat) : Nat :=
  if s.mode = .head then s.rd (Pg.vhc v) VHC.VHC_STAT_gen else s.rd Pg.swc (SWC.GEN_TBL_gen (v / 4)) / 256 ^ (v % 4) % 256

/-- The port code of a source port (R16, R124); the encoders of a head send by its host port (R132). -/
def codeOfPort (sport : Nat) : Nat := if sport = 8 || sport = 5 then 7 else if 1 ≤ sport && sport ≤ 4 then sport + 1 else 6

/-- The header of the cells of a tunnel as its source sends them: ends and owner from the entry (R150). -/
def State.tunCell (s : State) (n ch : Nat) : Option Cell :=
  let w := s.half n (if s.mode = .head then ch else 0)
  if !Tun.v w then none
  else some { cls := Tun.cls w, dhub := Tun.dhub w, dport := Tun.dport w, shub := Tun.shub w, sport := Tun.sport w, tunnel := n, vhc := Tun.vhc w, gen := s.genFor (Tun.vhc w) }

/-- The tunnel of a posted request remembers its tseq (R184). -/
def State.notePosted (s : State) (r : TReq) (dhub half : Nat) : State :=
  if r.op = 1 || r.op = 4 then
    let k := seqKey r.tunnel dhub half
    { s with gran := { s.gran with lastPosted := Tab.put k (((Tab.find k s.gran.seqs).getD 0 + 65535) % 65536) s.gran.lastPosted } }
  else s

/-- A T packet leaves in its tunnel. -/
def State.sendT (s : State) (ch : Nat) (r : TReq) (fst lst : Bool) : State := match s.tunCell r.tunnel ch with
  | none => s.noEntry
  | some c =>
    State.notePosted (r := r) (dhub := c.dhub) (half := s.halfOfPort (s.portFor ch)) <| s.sendPacket (codeOfPort c.sport) (s.portFor ch) { c with vhc := r.vhc, gen := r.gen, tag := r.tag, wc := r.wc, psn := r.psn, fst := fst, lst := lst }
      (r.head ++ (if r.op = 0 || r.op = 2 then [] else r.data))

/-- The tunnel in which a target answers: it leads from the request's target back to its source, for the same VHC (DEDUCED, log entry 24). -/
def State.backTunnel (s : State) (ch : Nat) (r : TReq) : Option Nat :=
  let h := if s.mode = .head then ch else 0
  let me := if s.mode = .head then 0 else s.addr
  (s.sched.tun.find? (fun e => let w := e.2.half h
    Tun.v w && Tun.cls w = clsT && Tun.shub w = me && Tun.sport w = r.dport && Tun.dhub w = r.shub && Tun.dport w = r.sport && Tun.vhc w = r.vhc)).map (·.1)

/-- A target completes a non-posted request: its data in packets of up to 512 bytes, one group (R181). The completion of a read that failed at the target is poisoned (R80; DEDUCED, log
entry 156). -/
def State.replyT (s : State) (ch : Nat) (r : TReq) (st ticket : Nat) (data : List Byte) : State := match s.backTunnel ch r with
  | none => s.noEntry
  | some n =>
    let ps := chunks 512 (data.length / 512 + 1) data
    let k := ps.length
    s.each (List.range k) (fun s i =>
      let d := ps.getD i []
      s.sendT ch { op := opCpl, st := st, count := d.length, ticket := ticket, addr := r.addr + 512 * i, data := d, tunnel := n, vhc := r.vhc, gen := r.gen, tag := r.tag, psn := r.reads && st = stCA } (i = 0) (i + 1 = k))

/-- The chain by which a request came in. -/
def State.chainIn (s : State) (p : Port) : Nat := if s.mode = .head then chainOf p else 0

/-! ### Tags and quotas (R185, R186) -/

/-- Initiators: 0 the head, 1 + n bay n's root port, 5 + n bay n's USB controller, 9 engines, 10 PX windows. -/
def poolSize (i : Nat) : Nat := if i = 0 then 4096 else if i ≤ 4 then 256 else if i ≤ 8 then 128 else if i = 9 then 32 else 16

/-- Tags that an initiator holds, outstanding and in quarantine. -/
def State.tagsOf (s : State) (i : Nat) : List (Nat × Nat) :=
  (s.xbr.outst.filter (fun o => o.init = i)).map (fun o => (o.req.vhc, o.req.tag)) ++ (s.xbr.quar.filter (fun q => q.init = i)).map (fun q => (q.vhc, q.tag))

/-- The tag quota of a VHC (R185). -/
def State.quotaOf (s : State) (v : Nat) : Nat := (Tab.find v s.xbr.quota).getD 64

/-- A tag may be given (R185, R186). -/
def State.tagFree (s : State) (i v : Nat) : Bool :=
  let l := s.tagsOf i
  l.length < poolSize i && (i != 0 || countWhere (fun x => x.1 = v) l < s.quotaOf v)

/-- The lowest tag of an initiator that no request of the VHC holds (R186). -/
def State.newTag (s : State) (i v : Nat) : Nat :=
  let l := s.tagsOf i
  ((List.range 4096).find? (fun t => !l.contains (v, t))).getD 0

/-- A later non-posted request of a VHC in a tunnel waits for earlier confirmed writes (R196). -/
def State.behindConfirm (s : State) (o : Outst) : Bool :=
  o.init = 0 && !o.req.wc &&
    (s.xbr.outst ++ s.xbr.waitl).any (fun x => x.init = 0 && x.req.wc && x.req.vhc = o.req.vhc && x.req.tunnel = o.req.tunnel && x.chain = o.chain)

/-- A non-posted request takes a tag and leaves, if it may; none while it must wait. -/
def State.tryIssue (s : State) (o : Outst) : Option State :=
  if !s.tagFree o.init o.req.vhc || s.behindConfirm o then none
  else
    let r := { o.req with tag := s.newTag o.init o.req.vhc }
    some (({ s with xbr := { s.xbr with outst := s.xbr.outst ++ [{ o with req := r }] } }).sendT o.chain r true true)

/-- A waiting request keeps another of its initiator back: a read one of the same VHC behind it; a write, posted or confirmed, only a confirmed write of its own tunnel, which it may not
overtake (R182, R196). -/
def Outst.holds (x o : Outst) : Bool :=
  x.init = o.init && x.req.vhc = o.req.vhc && (if o.req.posted || o.req.wc then x.req.wc && x.req.tunnel = o.req.tunnel && x.chain = o.chain else true)

/-- Requests of the head on its wait list. -/
def State.headWaits (s : State) : Nat := countWhere (fun o => o.init = 0) s.xbr.waitl

/-- A request goes onto the wait list; the head's holds 256, and with the last place taken the head withholds non-posted credits on the host link (R185). -/
def State.wait (s : State) (o : Outst) : State :=
  if o.init = 0 && !o.req.posted && 256 ≤ s.headWaits then { s with xbr := { s.xbr with hostHeld := s.xbr.hostHeld ++ [o] } }
  else
    let s : State := { s with xbr := { s.xbr with waitl := s.xbr.waitl ++ [o] } }
    if o.init = 0 && s.headWaits = 256 then s.emit (.note "host non-posted credits" [0]) else s

/-- An initiator issues a request: posted at once, non-posted with a tag, or onto the wait list (R185). -/
def State.issue (s : State) (o : Outst) : State :=
  if s.xbr.waitl.any (fun x => x.holds o) || (o.init = 0 && !o.req.posted && !s.xbr.hostHeld.isEmpty) then s.wait o
  else if o.req.posted then s.sendT o.chain o.req true true
  else match s.tryIssue o with
    | some t => t
    | none => s.wait o

/-- External posted writes in their buffer of 16 (R204). -/
def State.pxBuffered (s : State) : Nat := countWhere (fun o => o.init = 10 && o.req.posted) s.xbr.waitl

/-- The bridge answers an external cycle: RDY will be high. -/
def State.pxAnswer (s : State) (e : PxExt) (v : Nat) : State :=
  { s with xbr := { s.xbr with pxExt := some { e with answer := some v, slot := none, held := none } } }

/-- An external posted write enters the buffer, and RDY goes high; while the buffer is full the cycle is held (R204). -/
def State.pxAdmit (s : State) : State := match s.xbr.pxExt with
  | none => s
  | some e => match e.held with
    | none => s
    | some x => if 16 ≤ s.pxBuffered then s else ({ s with xbr := { s.xbr with pxPost := s.xbr.pxPost ++ [x] } } : State).pxAnswer e 0

/-- Take up the wait list again, in its order; with room in it the host's credits come back (R185), and a held external write goes on (R204). -/
def State.pump (s : State) : State :=
  let full := 256 ≤ s.headWaits
  let l := s.xbr.waitl ++ s.xbr.hostHeld
  let s := (({ s with xbr := { s.xbr with waitl := [], hostHeld := [] } } : State).each l State.issue).pxAdmit
  if full && s.headWaits < 256 then s.emit (.note "host non-posted credits" [1]) else s

/-! ### Completions (R187, R193, R196) -/

/-- The data that a read completed with CRS gives the host: 0x0001 in the Vendor ID register, 0xFF elsewhere (R325). -/
def crsData (addr count : Nat) : List Byte :=
  (List.range count).map (fun i => let a := (addr + i) % 4096; if a = 0 then 1 else if a = 1 then 0 else 0xFF)

/-- A confirmed write fails (R196): the write-error status, its first entry, and the next read through the window. -/
def State.writeError (s : State) (v f : Nat) : State :=
  let p := Pg.vhc v
  let s := if s.on p VHC.WR_ERR_set then s else (s.wr p VHC.WR_ERR_set 1).wr p VHC.WR_ERR_func f
  ({ s with xbr := { s.xbr with wrErr := if s.xbr.wrErr.contains (v, f) then s.xbr.wrErr else s.xbr.wrErr ++ [(v, f)] } }).raise p VHC.ev_wr_err

/-- What an initiator does with the end of a request: the head answers the host, a bay hands it to its device or controller, an engine or a PX slot
takes it. -/
def State.finish (s : State) (o : Outst) (st : Nat) (data : List Byte) : State :=
  if o.init = 0 then
    (if o.req.wc then (if st = stSC then s else s.writeError o.req.vhc o.slot)
     else if o.answered then s
     else if st = stCRS then (s.emit (.hostCpl o.req.vhc stSC (crsData o.req.addr o.req.count)))
     else s.emit (.hostCpl o.req.vhc st (if st = stSC then data else [])))
  else if o.init ≤ 4 then s.emit (.bay (o.init - 1) "device completion" (o.req.addr :: o.slot :: st :: data.map BitVec.toNat))
  else if o.init ≤ 8 then s.emit (.bay (o.init - 5) "controller completion" (o.req.addr :: o.slot :: st :: data.map BitVec.toNat))
  else if o.init = 9 then s.emit (.note "engine completion" (o.req.addr :: o.slot :: st :: data.map BitVec.toNat))
  else
    let x := (Tab.find o.slot s.xbr.slots).getD {}
    { s with xbr := { s.xbr with slots := Tab.put o.slot { x with done := true, st := st, data := data } s.xbr.slots } }

/-- Whether a request is the one outstanding under an initiator, VHC and tag. -/
def Outst.is (o : Outst) (i v t : Nat) : Bool := o.init = i && o.req.vhc = v && o.req.tag = t

/-- Drop a request from the outstanding ones. -/
def State.dropOut (s : State) (o : Outst) : State := { s with xbr := { s.xbr with outst := s.xbr.outst.filter (fun x => !x.is o.init o.req.vhc o.req.tag) } }

def State.setOut (s : State) (o : Outst) : State :=
  { s with xbr := { s.xbr with outst := s.xbr.outst.map (fun x => if x.is o.init o.req.vhc o.req.tag then o else x) } }

/-- A QUEUE_RESET entry names a request of the head: it completes with CA at once (R197). -/
def State.resetOut (s : State) (v t : Nat) : State := match s.xbr.outst.find? (fun o => o.is 0 v t) with
  | some o => ((s.dropOut o).finish o stCA []).pump
  | none => s

end Sys2Proof.Machine
end

