-- ==== Sys2Proof/Machine/Stage.lean ====
section
/-!
DEFINITION. Sys2Proof/Machine/Stage.lean: what a subset's drop does at a display head (R249, R251), the present-done event (R253), and the
event cells of bay functions (R219).
-/
namespace Sys2Proof.Machine

open Sys2Proof

def State.dh (s : State) (n : Nat) : DispHead := (Tab.find n s.disp).getD {}

def State.setDh (s : State) (n : Nat) (x : DispHead) : State := { s with disp := Tab.put n x s.disp }

def DispHead.bank (x : DispHead) (b : Nat) : StBank := if b = 0 then x.bank0 else x.bank1

def DispHead.setBank (x : DispHead) (b : Nat) (k : StBank) : DispHead := if b = 0 then { x with bank0 := k } else { x with bank1 := k }

/-- The bank in a state, if one is. -/
def DispHead.bankIn (x : DispHead) (st : Nat) : Option Nat := if x.bank0.st = st then some 0 else if x.bank1.st = st then some 1 else none

/-! ### The allocation of a display head (R254, R260) -/

def State.lAlloc (s : State) (n : Nat) : Bool := s.on Pg.loft (LOFT.HEAD_CFG_alloc n)
def State.lDbl (s : State) (n : Nat) : Bool := s.on Pg.loft (LOFT.HEAD_CFG_dbl n)
def State.lBudget (s : State) (n : Nat) : Nat := if s.on Pg.loft (LOFT.HEAD_CFG_bpp6 n) then 192 else 256
def State.lDepth (s : State) (n : Nat) : Nat := if s.on Pg.loft (LOFT.HEAD_CFG_depth10 n) then 10 else 8
def State.lWidth (s : State) (n : Nat) : Nat := s.rd Pg.loft (LOFT.HEAD_CFG_width_t n)
def State.lHeight (s : State) (n : Nat) : Nat := s.rd Pg.loft (LOFT.HEAD_CFG_height_t n)
def State.lFront (s : State) (n : Nat) : Nat := s.rd Pg.loft (LOFT.HEAD_FRONT_front n)

def DispHead.slot (x : DispHead) (k : Nat) : Tab (List Byte) := if k = 0 then x.slot0 else x.slot1

def DispHead.setSlot (x : DispHead) (k : Nat) (t : Tab (List Byte)) : DispHead := if k = 0 then { x with slot0 := t } else { x with slot1 := t }

/-- Tiles copied from one slot to the other; a black one is listed nowhere. -/
def copyTiles (l : List Nat) (a b : Tab (List Byte)) : Tab (List Byte) :=
  l.foldl (fun b t => match Tab.find t a with
    | some r => Tab.put t r b
    | none => Tab.del t b) b

/-! ### Event cells of bay functions (R219, R253) -/

/-- An event cell of 8 bytes or more leaves for the head in tunnel 8, from the port of a bay (DEDUCED, log entry 27). -/
def State.bayEvent (s : State) (sport v gen : Nat) (payload : List Byte) : State :=
  if s.mode != .head && !s.homed then s
  else
    let (n, s) := s.nextTseq 8 0 0
    let c : Cell := { ctype := 0xB, cls := clsM, shub := if s.mode = .head then 0 else s.addr, sport := sport, tunnel := 8, tseq := n, vhc := v, gen := gen, payload := payload }
    s.fromLocal (codeOfPort sport) s.tuRole c.seal

/-- A present-done event (R253). -/
def State.presentDone (s : State) (n status : Nat) (x : Shown) (frame time : Nat) : State :=
  s.bayEvent (n + 1) x.vhc x.gen ([0x42, 4, BitVec.ofNat 8 status, 0] ++ leBytes 2 x.set ++ leBytes 1 x.idx ++ leBytes 1 (b2n x.more) ++ leBytes 4 frame ++ leBytes 4 time)

def StBank.shown (k : StBank) : Shown := ⟨k.vhc, k.gen, k.set, k.idx, k.more⟩

/-! ### Dropping a subset (R249) -/

/-- The back slot of a double-buffered head takes the tiles of the unfinished set back from the front slot (R251). -/
def State.restoreBack (s : State) (n : Nat) : State :=
  let x := s.dh n
  let f := s.lFront n
  s.setDh n { x.setSlot (1 - f) (copyTiles x.setTiles (x.slot f) (x.slot (1 - f))) with setNum := none, setTiles := [], setIdx := [] }

def StBank.kill (k : StBank) (set : Nat) : StBank := if 2 ≤ k.st && k.set = set then { k with dead := true } else k

/-- A subset of a set is dropped at a double-buffered head (R251): what the set has committed is taken back, and what it still commits will be. -/
def State.takeBack (s : State) (n set : Nat) : State :=
  if !s.lDbl n then s
  else
    let s := if (s.dh n).setNum = some set then s.restoreBack n else s
    let x := s.dh n
    s.setDh n { x with broken := some set, bank0 := x.bank0.kill set, bank1 := x.bank1.kill set }

/-- The registers and the event of a drop. -/
def State.dropNote (s : State) (n cause : Nat) (x : Shown) : State :=
  let p := Pg.stg n
  let s := (s.wr p STG.STG_SET_cause cause).bump p STG.STG_CNT0_drops 1
  let s := s.raise p STG.ev_set_drop
  let s := if cause = 3 then s.raise p STG.ev_chk_err else if cause = 7 then s.raise p STG.ev_no_loft else s
  s.presentDone n 4 x 0 0

/-- A bank is emptied and its subset dropped. -/
def State.dropBank (s : State) (n b cause : Nat) : State :=
  let x := s.dh n
  let k := x.bank b
  let s := s.setDh n { x.setBank b {} with dropping := x.dropping || k.st = 1 }
  (s.takeBack n k.set).dropNote n cause k.shown

/-- The group of a tunnel is cut by a gap or an abort cell (R249 causes 1 and 2). -/
def State.cutGroup (s : State) (t cause : Nat) : State :=
  s.each (List.range 4) (fun s n => match (s.dh n).bankIn 1 with
    | some b => if ((s.dh n).bank b).tunnel = t then s.dropBank n b cause else s
    | none => s)

/-- Groups cut since the last command. -/
def State.cutGroups (s : State) : State :=
  let l := s.gran.cuts
  if l.isEmpty then s else ({ s with gran := { s.gran with cuts := [] } }).each l (fun s x => s.cutGroup x.1 x.2)

end Sys2Proof.Machine
end

