-- ==== Sys2Proof/Machine/Events.lean ====
section
/-!
DEFINITION. Sys2Proof/Machine/Events.lean: the error log and error events (R197, R198, R208), the VHC error queues and MSI-X
(R220, R221), page events and their delivery (R464, R465, R467, R468), and the reset of a queue (R143). `State.served` ends every meaning.
-/
namespace Sys2Proof.Machine

open Sys2Proof

/-! ### MSI-X (R220) -/

def State.vhcCtx (s : State) (v : Nat) : VhcCtx := (Tab.find v s.vhg.vhcs).getD {}

def State.setVhcCtx (s : State) (v : Nat) (x : VhcCtx) : State := { s with vhg := { s.vhg with vhcs := Tab.put v x s.vhg.vhcs } }

/-- VHC_STAT.state codes (R216). -/
def vFree : Nat := 0
def vActive : Nat := 1
def vDraining : Nat := 2
def vDisabled : Nat := 3
def vFreezing : Nat := 4
def vFrozen : Nat := 5
def vRestoring : Nat := 6

def State.vState (s : State) (v : Nat) : Nat := s.rd (Pg.vhc v) VHC.VHC_STAT_state

def State.vGen (s : State) (v : Nat) : Nat := s.rd (Pg.vhc v) VHC.VHC_STAT_gen

/-- Signal an MSI-X vector of a VHC: pending only while FREEZING or FROZEN, or while masked; nothing more while it is pending (R220). -/
def State.vecSignal (s : State) (v vec : Nat) : State :=
  let x := s.vhcCtx v
  if x.pba.contains vec then s
  else if s.vState v = vFreezing || s.vState v = vFrozen || !x.unmasked.contains vec then s.setVhcCtx v { x with pba := x.pba ++ [vec] }
  else (s.bump Pg.vhg VHG.EVD_CNT_delivered 1).emit (.msix (v + 1) vec)

/-- Signal an MSI-X vector of the PF. -/
def State.pfSignal (s : State) (vec : Nat) : State :=
  if !s.vhg.pfUnmasked.contains vec then
    (if s.vhg.pfPba.contains vec then s else { s with vhg := { s.vhg with pfPba := s.vhg.pfPba ++ [vec] } })
  else s.emit (.msix 0 vec)

/-! ### The error queue of a VHC (R221) -/

/-- Entries of a VHC's error queue. -/
def State.eqSize (s : State) (v : Nat) : Nat :=
  let n := s.rd (Pg.vhc v) VHC.EQ_CFG_size
  2 ^ (if 4 ≤ n ∧ n ≤ 12 then n else 4)

/-- Write one 32-byte entry into a VHC's error queue in host memory, or count it as overflow (R221). -/
def State.eqPut (s : State) (v : Nat) (w : List Nat) : State :=
  let p := Pg.vhc v
  if !s.on p VHC.EQ_CFG_en then s.bump p VHC.EQ_CNT_overflow 1
  else
    let n := s.eqSize v
    let t := s.rd p VHC.EQ_TAIL_tail % n
    if (t + 1) % n = s.rd p VHC.EQ_HEAD_head % n then (s.bump p VHC.EQ_CNT_overflow 1).raise p VHC.ev_eq_overflow
    else
      let a := s.rd p VHC.EQ_LO_eq_lo * 32 + s.rd p VHC.EQ_HI_eq_hi * 2 ^ 32 + 32 * t
      let s := s.emit (.hostWrite (v + 1) a (w.flatMap (leBytes 4)))
      let s := s.wr p VHC.EQ_TAIL_tail ((t + 1) % n)
      let s := s.bump p VHC.EQ_CNT_entries 1
      let s := s.raise p VHC.ev_eq_entry
      s.vecSignal v (s.rd p VHC.EQ_CFG_vector)

/-- An entry for a VHC: written when it runs, held while FREEZING or FROZEN (up to 16), not posted when DISABLED or FREE (R221, R224). -/
def State.eqEntry (s : State) (v : Nat) (w : List Nat) : State :=
  let st := s.vState v
  if st = vFreezing || st = vFrozen then
    let x := s.vhcCtx v
    if x.held.length < 16 then s.setVhcCtx v { x with held := x.held ++ [w] } else s.bump (Pg.vhc v) VHC.EQ_CNT_overflow 1
  else if st = vDisabled || st = vFree then s
  else s.eqPut v w

/-! ### The error log (R197, R198, R208) -/

/-- Causes of an error log entry (R208). -/
def erUr : Nat := 0x01
def erCa : Nat := 0x02
def erE2e : Nat := 0x03
def erPoison : Nat := 0x04
def erPxTmo : Nat := 0x05
def erQReset : Nat := 0x06
def erWindow : Nat := 0x07
def erStale : Nat := 0x08
def erDiscard : Nat := 0x09
def erCplTmo : Nat := 0x0A
def erFormat : Nat := 0x0B
def erDevice : Nat := 0x0C

/-- The words of an entry (R208). -/
def erlWords (seq cause : Nat) (r : TReq) (sent untrusted : Bool) (window time : Nat) : List Nat :=
  [ seq * 65536 + cause * 256 + b2n r.posted * 128 + b2n r.wc * 64 + b2n sent * 32 + b2n untrusted * 16 + r.op % 16,
    r.vhc * 2 ^ 26 + r.gen * 2 ^ 18 + r.tag * 64,
    r.tunnel * 2 ^ 20 + r.shub * 2 ^ 14 + r.sport * 2 ^ 10 + r.dport * 64 + window,
    r.ticket, r.addr % 2 ^ 32, r.addr / 2 ^ 32 % 2 ^ 32, time, r.count ]

/-- Put an entry into the ring of 64 (R208); in a head it goes to the error queue of the VHC that it names, too (R221). -/
def State.erlPush (s : State) (w : List Nat) (untrusted : Bool) : State :=
  let s := s.wr Pg.erl ERL.ERL_STAT_next_seq (s.rd Pg.erl ERL.ERL_STAT_next_seq + 1)
  let s := if 64 ≤ s.xbr.erl.length then
      ({ s with xbr := { s.xbr with erl := s.xbr.erl.drop 1 ++ [({ w := w } : ErlEnt)] } }.bump Pg.erl ERL.ERL_LOST_lost 1).raise Pg.erl ERL.ev_overflow
    else { s with xbr := { s.xbr with erl := s.xbr.erl ++ [({ w := w } : ErlEnt)] } }
  let s := s.raise Pg.erl ERL.ev_entry
  let v := bitsOf (w.getD 1 0) 31 26
  if s.mode = .head && !untrusted && bitsOf (w.getD 1 0) 25 18 = s.vGen v then s.eqEntry v w else s

/-- Log an entry without an event cell. -/
def State.erlLog (s : State) (cause : Nat) (r : TReq) (window : Nat := 0x3F) (untrusted : Bool := false) : State :=
  s.erlPush (erlWords (s.rd Pg.erl ERL.ERL_STAT_next_seq) cause r false untrusted window (s.chain.time % 2 ^ 32)) untrusted

/-- Log the failure of a posted request and send the error event cell to the current home (R197, R198). -/
def State.erlFail (s : State) (cause : Nat) (r : TReq) (window : Nat := 0x3F) : State :=
  let send := s.homed && s.mode != .head
  let w := erlWords (s.rd Pg.erl ERL.ERL_STAT_next_seq) cause r send false window (s.chain.time % 2 ^ 32)
  let s := s.erlPush w false
  if send then
    let (n, s) := s.nextTseq 8 0 0
    let c : Cell := { ctype := 0xB, cls := clsM, shub := s.addr, tunnel := 8, tseq := n, vhc := r.vhc, gen := r.gen, payload := 0x40 :: 0 :: 0 :: 0 :: w.flatMap (leBytes 4) }
    s.fromLocal 6 s.tuRole c.seal
  else s

/-! ### Queue reset and flush (R143, R128) -/

/-- An accelerated pass of the Gleaner starts, or starts again. -/
def State.glean (s : State) : State :=
  let s := s.wr Pg.grn GRN.GLN_STAT_busy 1
  { s with gran := { s.gran with sweep := 0 } }

/-- The streams whose packet a reset leaves open: the last cell of each in the old list ends no packet (R143 step 5). -/
def brokenBy (old : List Buf) : List Nat :=
  (old.map (fun b => streamKey b.cell)).eraseDups.filter (fun k => match (old.filter (fun b => streamKey b.cell = k)).getLast? with
    | some b => !b.cell.ends && b.cell.ctype != 0xF
    | none => false)

/-- The open packets of a local egress's queue are rewound as it is reset or flushed (R141): counted, their buffers freed at once. -/
def State.rewindAll (s : State) (q : Nat) : State :=
  if q < 4104 then s
  else
    let l := s.queue q
    let s := s.setQueue q (l.filter (·.commit))
    (s.each (l.filter (!·.commit)) State.release).count ((q - 4096) / 4) 7 (((l.filter (!·.commit)).map (fun b => streamKey b.cell)).eraseDups.length)

/-- Empty a queue, advance its incarnation, and log its T-class packets (R143 steps 1–6; cause 1 pointer mismatch, 2 descriptor ECC, 3 LINK_DOWN): up to 64 by an entry, further ones by
a count only, in ERL_LOST (DESIGN CHOICE, log entry 133). -/
def State.resetQueue (s : State) (q cause : Nat) : State :=
  let all := s.queue q
  let again := s.on Pg.grn GRN.GLN_STAT_busy && s.gran.stale.any (fun x => x.1 = q)
  let inc := (Tab.find q s.gran.incs).getD 0
  let s := s.rewindAll q
  let old := s.queue q
  let s := s.setQueue q []
  let s : State := { s with gran := { s.gran with
    incs := Tab.put q ((inc + 1) % 16) s.gran.incs,
    stale := s.gran.stale ++ old.map (fun b => (q, inc, b)),
    stopped := if again then s.gran.stopped ++ [q] else s.gran.stopped,
    broken := s.gran.broken ++ (brokenBy all).filter (fun k => !s.gran.broken.contains k) } }
  let s := s.glean
  let ts := all.filter (fun b => b.cell.cls = clsT && (b.cell.ctype = 1 || b.cell.ctype = 4))
  let s := s.each (ts.take 64) (fun s b =>
    let r := reqOf b.cell
    let s := s.erlFail erQReset r
    if s.mode = .head && !r.posted && r.op < 4 then s.resetOut r.vhc r.tag else s)
  let s := if 64 < ts.length then s.bump Pg.erl ERL.ERL_LOST_lost (ts.length - 64) else s
  let s := s.bump Pg.grn GRN.QRST_resets 1
  let s := s.wr Pg.grn GRN.QRST_cause cause
  s.wr Pg.grn GRN.QRST_queue q

/-- Flush every queue that drains to a port at its link down (R128): the four class queues and the per-tunnel queues whose entries route through it. -/
def State.flushPort (s : State) (p : Port) : State :=
  let code := Port.idx p
  let tuns := ((s.sched.tun.map (·.1)) ++ (s.gran.queues.map (·.1))).eraseDups.filter (fun n => n < 4096 && s.trunkOf n (s.halfOfPort p) = some p)
  let qs := tuns ++ (List.range 4).map (classQ code)
  let n := sumNat (qs.map (fun q => (s.queue q).length))
  let s := s.count code 9 n
  let s := s.each qs (fun s q => s.resetQueue q 3)
  let lost := s.gran.waiting.filter (fun w => w.code = code)
  let s : State := { s with gran := { s.gran with waiting := s.gran.waiting.filter (fun w => w.code != code) } }
  let s := s.each lost (fun s w => s.release w.buf)
  let s := s.count code 9 lost.length
  s.raise Pg.swc SWC.ev_flush

/-! ### Page events (R464, R465, R467, R468) -/

/-- A directory entry's words (R212). -/
def State.dirCfg (s : State) (v f : Nat) : Nat := s.rd (Pg.vhc v) (VHC.DIR_CFG_cfg f)
def dirV (w : Nat) : Bool := bitOf w 31 = 1
def dirKind (w : Nat) : Nat := bitsOf w 30 28
def dirWc (w : Nat) : Bool := bitOf w 27 = 1
def dirChain (w : Nat) : Nat := bitOf w 26
def dirHub (w : Nat) : Nat := bitsOf w 25 20
def dirUnit (w : Nat) : Nat := bitsOf w 19 17
def dirVecBase (w : Nat) : Nat := bitsOf w 13 8
def dirVecCnt (w : Nat) : Nat := bitsOf w 6 0

/-- The VHC and the entry that hold the function of a kind behind a hub and unit. -/
def State.ownerOf (s : State) (chain hub kind unit : Nat) : Option (Nat × Nat) :=
  ((List.range 64).flatMap (fun v => (List.range 16).map (fun f => (v, f)))).find? (fun x =>
    let w := s.dirCfg x.1 x.2
    dirV w && dirKind w = kind && dirHub w = hub && (hub = 0 || dirChain w = chain) && dirUnit w = unit)

/-- The function kind to which a page's events belong, and its bay (R467); none for the PF. -/
def pageOwnerKind (p : Nat) : Option (Nat × Nat) := match pageKind p with
  | some .disp => some (4, pageBay p)
  | some .frz => some (4, pageBay p)
  | some .stg => some (4, pageBay p)
  | some .usb => some (1, pageBay p)
  | some .eth => some (2, pageBay p)
  | some .pcie => some (3, pageBay p)
  | _ => none

/-- The PF vector of a page group (EVT.PFV). -/
def State.pfv (s : State) (g : Nat) : Nat :=
  s.rd Pg.evt (match g % 4 with
    | 0 => EVT.PFV_v0 (g / 4)
    | 1 => EVT.PFV_v1 (g / 4)
    | 2 => EVT.PFV_v2 (g / 4)
    | _ => EVT.PFV_v3 (g / 4))

/-- An entry for the PF event queue of 256 (R468). -/
def State.pfqPut (s : State) (chain hub page pend time : Nat) : State :=
  if 256 ≤ s.vhg.pfq.length then (s.bump Pg.evt EVT.PFQ_STAT_overflow 1).raise Pg.evt EVT.ev_pfq_ovf
  else ({ s with vhg := { s.vhg with pfq := s.vhg.pfq ++ [[chain, hub, page, pend, time]] } }).pfSignal (s.pfv (pageGroup page))

/-- The head delivers a page event (R467, R468). -/
def State.pageDeliver (s : State) (chain hub page pend time cap : Nat) : State :=
  match (pageOwnerKind page).bind (fun k => s.ownerOf chain hub k.1 k.2) with
  | none => s.pfqPut chain hub page pend time
  | some (v, _) =>
    let st := s.vState v
    if st = vActive || st = vFreezing || st = vFrozen then
      s.eqEntry v [0x1000, 0, chain * 2 ^ 31 + hub * 2 ^ 24 + page, pend, time, cap, 0, 0]
    else s.pfqPut chain hub page pend time

/-- ER_CAP0 as a word. -/
def State.erCap0 (s : State) (p : Nat) : Nat :=
  s.rd p HDR.ER_CAP0_valid * 2 ^ 31 + s.rd p HDR.ER_CAP0_sev * 2 ^ 29 + s.rd p HDR.ER_CAP0_more * 2 ^ 28 + s.rd p HDR.ER_CAP0_code

/-- A page-event cell leaves for the home (R464). -/
def State.pageCell (s : State) (p : Nat) : State :=
  s.sendCore s.tuRole 0xB 8 0 0 ([0x44, 0] ++ leBytes 2 p ++ leBytes 4 (s.evPend p) ++ leBytes 4 (s.chain.time % 2 ^ 32) ++ leBytes 4 (s.erCap0 p))

/-- A part that has a home sends page events: not a head, not a standalone part (R464, R465). -/
def State.sendsEvents (s : State) : Bool := s.mode = .hub && s.homed && s.addr != 63

/-- A page of which a bit of EV_PEND has gone from 0 to 1 (R464, R465, R467). A companion page's event waits while the supervised link is lost: the dies talk by it alone (R13). -/
def State.pageEvent (s : State) (p : Nat) : State :=
  if !s.present p || s.route p / 2 % 2 = 0 then s
  else if isCompanion p && !s.hvLink then (if s.evt.due.contains p then s else { s with evt := { s.evt with due := s.evt.due ++ [p] } })
  else if s.mode = .head then s.pageDeliver 0 0 p (s.evPend p) (s.chain.time % 2 ^ 32) (s.erCap0 p)
  else if !s.sendsEvents then s
  else if s.evt.hold.contains p then (if s.evt.due.contains p then s else { s with evt := { s.evt with due := s.evt.due ++ [p] } })
  else
    let s := s.pageCell p
    if s.rd Pg.evt EVT.EVT_CFG_hold_us = 0 then s else { s with evt := { s.evt with hold := s.evt.hold ++ [p] } }

/-- One round of page events. -/
def State.settleRound (s : State) : State :=
  let ps := s.evt.fresh.eraseDups
  ({ s with evt := { s.evt with fresh := [] } }).each ps State.pageEvent

/-- Cells that waited for a buffer are taken up again and groups that were cut are dropped (R249); then page events of what a command raised, and of what their own delivery raised (three rounds; a page left over is served by the next command). -/
def State.settle (s : State) : State :=
  let s := if s.gran.waiting.isEmpty then s else s.retryWaiting
  let s := s.cutGroups
  if s.evt.fresh.isEmpty then s else s.settleRound.settleRound.settleRound

/-- What the running part does by itself after a command. -/
def State.settled (s : State) : State := if s.life = .running then s.settle else s

/-- Whether INT_N is driven low: by R463 while the main die runs with its pads released; held in P2 and P3 and until PAD_REL (R433), or clamped with COMPAT = 1 (R434); released in
a reset. -/
def State.intPad (s : State) : Bool := match s.life with
  | .running => if s.on Pg.glb GLB.GLB_STAT_pads_held then s.intN else s.intLow
  | .inReset => false
  | _ =>
    if !s.compat then s.intN
    else
      let k := bitsOf (s.rd Pg.glb GLB.PAD_CLAMP1_clamp1) 13 12
      k = 0 || (k = 3 && s.intN)

/-- INT_N follows. -/
def State.drivePad (s : State) : State :=
  let low := s.intPad
  if low = s.intN then s else { s with intN := low, outbox := s.outbox ++ [.pin "INT_N" (b2n !low)] }

/-- What follows the state `t` that a command's own effect leaves: what the part then does by itself, INT_N, and the queue, which is the sender's. -/
def State.after (s t : State) : State := { t.settled.drivePad with pending := s.pending }

/-- The outcome of every meaning. -/
def State.served (s t : State) : Host.Outcome State Fault Refusal := .next (s.after t)

/-- The outcome of a command that is served whatever the main die does. -/
def State.always (s : State) (f : State → State) : Host.Outcome State Fault Refusal := s.served (f s)

/-- The outcome of a command that the running main die serves; in reset, in P2 and in P3 (R424, R448) it serves none. -/
def State.run (s : State) (f : State → State) : Host.Outcome State Fault Refusal := s.served (if s.life = .running then f s else s)

/-- EV_EN of a page changes; bits of EV_PEND that go from 0 to 1 make a page event (R464). -/
def State.freshen (s : State) (p : Nat) : State := { s with evt := { s.evt with fresh := s.evt.fresh ++ [p] } }

end Sys2Proof.Machine
end

