-- ==== Sys2Proof/Machine/Keys.lean ====
section
/-!
DEFINITION. Sys2Proof/Machine/Keys.lean: the Larder's slots (R404, R405), derivation (R407), invalidation and the sweep of orphans (R415),
masks (R416), and the hop keys (R418).
-/
namespace Sys2Proof.Machine

open Sys2Proof

/-- A slot. -/
def State.slot (s : State) (n : Nat) : KeySlot := (Tab.find n s.larder.slots).getD {}

def State.setSlot (s : State) (n : Nat) (k : KeySlot) : State := { s with larder := { s.larder with slots := Tab.put n k s.larder.slots } }

/-- A slot is valid: its bit, and at every step up to a root the captured incarnation is the parent's current one (R405; structural on the fuel). -/
def State.keyOkFuel (s : State) : Nat → Nat → Bool
  | 0, _ => false
  | k + 1, n =>
    let x := s.slot n
    x.valid && (x.kind = 1 || x.kind = 2 || ((s.slot x.parent).inc = x.pinc && s.keyOkFuel k x.parent))

def State.keyOk (s : State) (n : Nat) : Bool := s.keyOkFuel 10 n

/-- Steps below the root (SLOT_DATA.depth). -/
def State.keyDepthFuel (s : State) : Nat → Nat → Nat
  | 0, _ => 0
  | k + 1, n => if (s.slot n).kind = 1 ∨ (s.slot n).kind = 2 ∨ (s.slot n).kind = 0 then 0 else 1 + s.keyDepthFuel k (s.slot n).parent

def State.keyDepth (s : State) (n : Nat) : Nat := s.keyDepthFuel 10 n

/-- The root in force: K0, or K1 in a debug-enabled part (R408). -/
def State.rootSlot (s : State) : Nat := s.rd Pg.lrd LRD.LRD_STAT_root

/-- The public value of K1 (R408). -/
def testRoot (id : Nat) : List Byte := hmac (List.replicate 32 0) (ascii "PLINOS-TEST-ROOT" ++ leBytes 8 id)

/-- The key in a slot. -/
def State.keyValue (s : State) (n : Nat) : List Byte :=
  let x := s.slot n
  if x.kind = 1 then leBytes 32 Config.rootKey.toNat
  else if x.kind = 2 then testRoot s.devId
  else List.zipWith (· ^^^ ·) x.stored x.mask

/-- The KDF of R407. -/
def kdf (key label context : List Byte) : List Byte := hmac key (beBytes 4 1 ++ label ++ [0] ++ context ++ beBytes 4 256)

/-- A fresh 256-bit mask from the random source (R416). -/
def State.newMask (s : State) : List Byte × State :=
  let (a, s) := s.draw 64
  let (b, s) := s.draw 64
  let (c, s) := s.draw 64
  let (d, s) := s.draw 64
  (leBytes 8 a ++ leBytes 8 b ++ leBytes 8 c ++ leBytes 8 d, s)

/-- A key is written into a slot under a parent (R405). -/
def State.putKey (s : State) (n kind use parent : Nat) (key : List Byte) : State :=
  let (m, s) := s.newMask
  s.setSlot n { valid := true, kind := kind, use := use, parent := parent, pinc := (s.slot parent).inc, inc := (s.slot n).inc,
                stored := List.zipWith (· ^^^ ·) key m, mask := m }

/-- A key derived from a slot goes into another. -/
def State.deriveInto (s : State) (n parent use : Nat) (label context : List Byte) : State :=
  s.putKey n 4 use parent (kdf (s.keyValue parent) label context)

/-- The Gleaner zeroises every slot that is invalid or orphaned (R415). -/
def State.sweepKeys (s : State) : State :=
  ((s.larder.slots.map (·.1)).filter (fun n => !s.keyOk n && !(s.slot n).stored.isEmpty)).foldl (fun s n =>
    let s := s.setSlot n { inc := ((s.slot n).inc + 1) % 256 }
    (s.bump Pg.lrd LRD.LRD_CNT1_swept 1).raise Pg.lrd LRD.ev_swept) s

/-- A slot is invalidated: valid cleared and the incarnation advanced in one clock, the orphans swept (R415). -/
def State.killKey (s : State) (n : Nat) : State :=
  (s.setSlot n { s.slot n with valid := false, inc := ((s.slot n).inc + 1) % 256 }).sweepKeys

/-- The dbg byte (R404). -/
def State.dbgByte (s : State) : Byte := BitVec.ofNat 8 s.rootSlot

/-- K9 and K10 are derived whenever K8 becomes valid (R404). -/
def State.deriveSite (s : State) : State :=
  let s := s.deriveInto 9 8 0 (ascii "ATTS") (leBytes 8 s.devId ++ [s.dbgByte])
  s.deriveInto 10 8 0 (ascii "CHAN") (List.replicate 8 0 ++ [s.dbgByte])

/-- The root comes into force: K2 and K3 are derived (R404). -/
def State.deriveRoot (s : State) : State :=
  let s := s.deriveInto 2 s.rootSlot 0 (ascii "UPDT") (leBytes 8 s.devId)
  s.deriveInto 3 s.rootSlot 0 (ascii "PINR") (leBytes 8 s.devId)

/-- Write a key into slot 8, 11 or 16–63 (R404, R410); K8, a parent only, derives (DEDUCED, log entry 43). -/
def State.writeKey (s : State) (n use : Nat) (key : List Byte) : State :=
  let s := s.putKey n 3 (if n = 8 then 1 else if n < 16 then 0 else use % 4) s.rootSlot key
  if n = 8 then s.deriveSite else s

/-- The slot of a port's hop key (R404). -/
def hopSlot (p : Port) : Nat := 12 + Port.idx p

/-- The key identifier of KX_HELLO: none while K10 is invalid (R418). -/
def State.keyId (s : State) : List Byte := if s.keyOk 10 then (hmac (s.keyValue 10) (ascii "KIDS")).take 4 else []

end Sys2Proof.Machine
end

