-- ==== Sys2Proof/Machine/Larder.lean ====
section
/-!
DEFINITION. Sys2Proof/Machine/Larder.lean: the Larder's operations as E8 serves them (R408–R417). An operation answers a status of R387 and a payload.
-/
namespace Sys2Proof.Machine

open Sys2Proof

/-- Statuses of R387. -/
def mbOk : Nat := 0
def mbBadOp : Nat := 1
def mbBadArg : Nat := 2
def mbBusy : Nat := 3
def mbLocked : Nat := 4
def mbVerifyFail : Nat := 5
def mbProfile : Nat := 6
def mbNotFound : Nat := 7
def mbState : Nat := 8

/-- What an operation answers. -/
abbrev MbAns := Nat × List Byte × State

/-- A slot that operations write and invalidate: 8, 11, 16–63. -/
def keyTarget (n : Nat) : Bool := n = 8 || n = 11 || (16 ≤ n && n < 64)

/-! ### The gate and the rows (R409, R411) -/

def State.gateOpen (s : State) : Bool := s.on Pg.lrd LRD.LRD_STAT_gate

def State.gateClose (s : State) : State := if s.gateOpen then (s.wr Pg.lrd LRD.LRD_STAT_gate 0).raise Pg.lrd LRD.ev_gate_closed else s

def execLrdGateClose (s : State) : Host.Outcome State Fault Refusal := s.run State.gateClose

/-- The next free key row, the next free counter row. -/
def State.freeRow (s : State) : Option Nat := (List.range 8).find? (fun n => bitOf (s.rd Pg.fus FUS.ROWS_used) n = 0)
def State.freeCnt (s : State) : Option Nat := (List.range 32).find? (fun n => bitOf (s.rd Pg.fus FUS.CNT_ROWS_cnt_rows) n = 0)

/-- Burn a key into a row; the gate closes. -/
def State.burnRow (s : State) (r slot use : Nat) (key : List Byte) : State :=
  let s := s.wr Pg.fus FUS.ROWS_used (s.rd Pg.fus FUS.ROWS_used + 2 ^ r)
  let s := (s.wr Pg.fus (FUS.CR_TGT_slot r) slot).wr Pg.fus (FUS.CR_TGT_use r) use
  ({ s with larder := { s.larder with rows := Tab.put r key s.larder.rows } }).gateClose

/-- Burn a counter into a row. -/
def State.burnCnt (s : State) (r v : Nat) : State :=
  let s := s.wr Pg.fus FUS.CNT_ROWS_cnt_rows (s.rd Pg.fus FUS.CNT_ROWS_cnt_rows + 2 ^ r)
  { s with larder := { s.larder with cnts := Tab.put r v s.larder.cnts } }

/-- The fused floor of UPD_CNT: the value of the highest programmed counter row (R413). -/
def State.cntFloor (s : State) : Nat := match s.larder.cnts.getLast? with
  | some x => x.2
  | none => 0

/-- E8 loads every programmed, unretired row in ascending order (R411). -/
def State.loadRows (s : State) : State :=
  if !s.gateOpen || s.rootSlot = 1 then s
  else s.each (List.range 8) (fun s n =>
    if bitOf (s.rd Pg.fus FUS.ROWS_used) n = 1 && bitOf (s.rd Pg.fus FUS.ROWS_retired) n = 0 then
      s.writeKey (s.rd Pg.fus (FUS.CR_TGT_slot n)) (s.rd Pg.fus (FUS.CR_TGT_use n)) ((Tab.find n s.larder.rows).getD [])
    else s)

/-! ### Operations of R410 -/

def State.opKeyWrite (s : State) (slot use : Nat) (burn : Bool) (key : List Byte) : MbAns :=
  if !s.gateOpen then (mbLocked, [], s)
  else if !keyTarget slot || key.length != 32 then (mbBadArg, [], s)
  else if !burn then (mbOk, [], s.writeKey slot use key)
  else match s.freeRow with
    | none => (mbState, [], s)
    | some r => (mbOk, [], (s.writeKey slot use key).burnRow r slot (use % 4) key)

/-- The slots from one up to its root (structural on the fuel). -/
def State.keyChain (s : State) : Nat → Nat → List Nat
  | 0, _ => []
  | k + 1, n => n :: (if (s.slot n).kind = 1 ∨ (s.slot n).kind = 2 ∨ (s.slot n).kind = 0 then [] else s.keyChain k (s.slot n).parent)

def State.opKeyDerive (s : State) (slot parent use : Nat) (label context : List Byte) : MbAns :=
  if slot < 16 || 64 ≤ slot || 64 ≤ parent || label.length != 4 || 64 < context.length then (mbBadArg, [], s)
  else if !s.keyOk parent then (mbNotFound, [], s)
  else if (s.slot parent).use % 2 = 0 || 8 ≤ s.keyDepth parent || (s.keyChain 10 parent).contains slot then (mbBadArg, [], s)
  else (mbOk, [], s.deriveInto slot parent (use % 4) label context)

def State.opKeyInvalidate (s : State) (slot : Nat) : MbAns := if !keyTarget slot then (mbBadArg, [], s) else (mbOk, [], s.killKey slot)

def State.opKeyMac (s : State) (slot : Nat) (d : List Byte) : MbAns :=
  if slot < 16 || 64 ≤ slot || 448 < d.length then (mbBadArg, [], s)
  else if !s.keyOk slot then (mbNotFound, [], s)
  else if (s.slot slot).use / 2 % 2 = 0 then (mbBadArg, [], s)
  else (mbOk, hmac (s.keyValue slot) d, s)

/-! ### Update messages (R412–R414) and the debug unlock (R408) -/

/-- Debug is enabled: K1 is the root in force, K0 is invalid and with it every slot beneath it. -/
def State.debugOn (s : State) : State :=
  let s := s.killKey 0
  let s := s.setSlot 1 { valid := true, kind := 2, use := 1, inc := (s.slot 1).inc }
  let s := ({ (s.wr Pg.lrd LRD.LRD_STAT_root 1) with larder := { s.larder with jtag := true } } : State)
  s.deriveRoot.raise Pg.lrd LRD.ev_debug

/-- The slots of an update message that have an effect; byte 5 is an argument of action 0x06. -/
def State.updArgOk (s : State) (action slot : Nat) : Bool := match action with
  | 1 => keyTarget slot
  | 2 => keyTarget slot
  | 4 => true
  | 5 => true
  | 6 => slot ≤ 64 && s.rd Pg.fus FUS.SEC_sec_min ≤ slot
  | _ => false

/-- A failed message changes nothing but the record of its cause. -/
def State.updFail (s : State) (cause status : Nat) : MbAns :=
  (status, [], ((s.wr Pg.lrd LRD.UPD_FAIL_cause cause).bump Pg.lrd LRD.LRD_CNT0_upd_fail 1).raise Pg.lrd LRD.ev_upd_fail)

/-- The action of an accepted message (R414). -/
def State.updAct (s : State) (m key : List Byte) (burn : Bool) : State :=
  let slot := byteAt m 5
  let use := byteAt m 6 % 4
  match byteAt m 4 with
  | 1 =>
    let s := s.writeKey slot use key
    (match burn, s.freeRow with
      | true, some r => s.burnRow r slot use key
      | _, _ => s)
  | 2 =>
    let s := s.killKey slot
    if !burn then s
    else
      let hit := (List.range 8).filter (fun n => bitOf (s.rd Pg.fus FUS.ROWS_used) n = 1 && bitOf (s.rd Pg.fus FUS.ROWS_retired) n = 0 && s.rd Pg.fus (FUS.CR_TGT_slot n) = slot)
      s.wr Pg.fus FUS.ROWS_retired (s.rd Pg.fus FUS.ROWS_retired + sumNat (hit.map (fun n => 2 ^ n)))
  | 4 => s.debugOn
  | 6 => s.wr Pg.fus FUS.SEC_sec_min slot
  | _ => s

def State.opKeyUpdate (s : State) (m : List Byte) : MbAns :=
  let cnt := numAt m 16 4
  let action := byteAt m 4
  let burn := byteAt m 7 % 2 = 1 || action = 5
  let k2 := s.keyValue 2
  if m.length != 84 || numAt m 0 4 != 0x4B55504C then s.updFail 1 mbBadArg
  else if numAt m 8 8 != s.devId then s.updFail 2 mbBadArg
  else if !s.keyOk 2 || (m.drop 52).take 32 != hmac k2 (m.take 52) then s.updFail 3 mbVerifyFail
  else if cnt ≤ s.rd Pg.lrd LRD.UPD_CNT_counter then s.updFail 4 mbBadArg
  else if !s.updArgOk action (byteAt m 5) then s.updFail 5 mbBadArg
  else if burn && (s.freeCnt.isNone || (action = 1 && s.freeRow.isNone)) then s.updFail 6 mbState
  else
    let key := List.zipWith (· ^^^ ·) ((m.drop 20).take 32) (kdf k2 (ascii "UWRP") ((m.drop 8).take 12))
    let s := (s.wr Pg.lrd LRD.UPD_CNT_counter cnt).updAct m key burn
    let s := match burn, s.freeCnt with
      | true, some r => s.burnCnt r cnt
      | _, _ => s
    (mbOk, [], (s.bump Pg.lrd LRD.LRD_CNT0_upd_ok 1).raise Pg.lrd LRD.ev_upd_ok)

/-! ### Masks (R416) -/

/-- Every slot that holds a value is rewritten with a new mask. -/
def State.remask (s : State) : State :=
  s.each ((s.larder.slots.filter (fun k => !k.2.stored.isEmpty)).map (·.1)) (fun s n =>
    let x := s.slot n
    let v := s.keyValue n
    let (m, s) := s.newMask
    s.setSlot n { x with stored := List.zipWith (· ^^^ ·) v m, mask := m })

def execRemask (s : State) : Host.Outcome State Fault Refusal := s.run State.remask

end Sys2Proof.Machine
end

