-- ==== Sys2Proof/Machine/Images.lean ====
section
/-!
DEFINITION. Sys2Proof/Machine/Images.lean: firmware bundles (R390, R421), table images and their sections (R391–R396), and the profile in force (R399).
-/
namespace Sys2Proof.Machine

open Sys2Proof

/-! ### Firmware bundles (R390) -/

def fwVersion (l : List Byte) : Nat := numAt l 0x0C 4
def fwSecVer (l : List Byte) : Nat := numAt l 0x10 4
def fwDefault (l : List Byte) : Nat := numAt l 0x16 2

/-- The profiles that a bundle supports. -/
def fwProfiles (l : List Byte) : List Nat := ((List.range (min 16 (numAt l 0x14 2))).map (fun i => numAt l (0x20 + 2 * i) 2)).filter (· != 0)

/-- The firmware measurement: SHA-384 over bytes 0x000–0x43F. -/
def fwMeasure (l : List Byte) : List Byte := sha384 (l.take 0x440)

/-- An engine's image matches its digest. -/
def fwEngineOk (l : List Byte) (i : Nat) : Bool :=
  let e := 0x40 + 64 * i
  let len := numAt l (e + 8) 4
  len ≤ 96 * 1024 && sha384 ((l.drop (numAt l (e + 4) 4)).take len) = (l.drop (e + 16)).take 48

/-- The bytes of a fused key hash. -/
def State.keyHash (s : State) (f : Nat → Fld) : List Byte := (List.range 12).flatMap (fun m => leBytes 4 (s.rd Pg.fus (f m)))

/-- The public key of a bundle is one that the fuses name (R421). -/
def State.fwKeyOk (s : State) (l : List Byte) : Bool :=
  let h := sha384 ((l.drop 0x4A0).take 96)
  (!s.on Pg.fus FUS.SEC_key_revoke0 && h = s.keyHash FUS.FW_KEY_HASH0_hash0) || h = s.keyHash FUS.FW_KEY_HASH1_hash1

/-- The signature of a bundle verifies under the key that it carries (R421). -/
def fwSigned (l : List Byte) : Bool := ecdsaOk ((l.drop 0x4A0).take 96) ((l.drop 0x440).take 96) (fwMeasure l)

/-- E15 accepts a bundle, but for its profile. -/
def State.fwOk (s : State) (l : List Byte) : Bool :=
  numAt l 0 4 = 0x42464C50 && numAt l 4 2 = 1 && numAt l 6 2 = 16 && 1 ≤ numAt l 0x14 2 && numAt l 0x14 2 ≤ 16
    && s.rd Pg.fus FUS.SEC_sec_min ≤ fwSecVer l && s.fwKeyOk l && (List.range 16).all (fwEngineOk l) && fwSigned l

/-! ### The profile in force (R399) -/

/-- The profile in force under a bundle: fused, pinned, or the bundle's default; with its lock source: 1 fused, 2 pin, 0 none. -/
def State.profileOf (s : State) (pin : Option Nat) (fw : List Byte) : Nat × Nat :=
  let f := s.rd Pg.fus FUS.PROFILE_profile
  if f != 0 then (f, 1) else match pin with
    | some p => (p, 2)
    | none => (fwDefault fw, 0)

/-! ### Table images (R391–R393) -/

structure Section where
  type  : Nat
  scope : Nat
  size  : Nat
  count : Nat
  off   : Nat
deriving DecidableEq, Repr

/-- The section directory. -/
def tblSections (l : List Byte) : List Section :=
  (List.range (numAt l 6 2)).map (fun i =>
    let d := 0x20 + 16 * i
    { type := byteAt l d, scope := byteAt l (d + 1), size := numAt l (d + 2) 2, count := numAt l (d + 4) 4, off := numAt l (d + 8) 4 })

/-- The entries of a section. -/
def Section.entries (l : List Byte) (x : Section) : List (List Byte) := (List.range x.count).map (fun i => (l.drop (x.off + x.size * i)).take x.size)

/-- The entries of all sections of a type whose scope takes in `n`. -/
def tblEntries (l : List Byte) (type : Nat) (n : Option Nat) : List (List Byte) :=
  ((tblSections l).filter (fun x => x.type = type && (match n with
    | some b => bitOf x.scope b = 1
    | none => true))).flatMap (Section.entries l)

def tblTagged (l : List Byte) : Bool := byteAt l 0x12 % 2 = 1

/-- The image without its tag. -/
def tblBody (l : List Byte) : List Byte :=
  let n := numAt l 8 4
  l.take (if tblTagged l then n - 32 else n)

/-- The table measurement: SHA-384 over the whole image, tag excluded. -/
def tblMeasure (l : List Byte) : List Byte := sha384 (tblBody l)

def tblVersion (l : List Byte) : Nat := numAt l 0x0C 4
def tblProfile (l : List Byte) : Nat := numAt l 0x10 2

/-- Section types of R393. -/
def tblTypes : List Nat := [0x01, 0x02, 0x04, 0x10, 0x11, 0x12, 0x20, 0x21, 0x22, 0x23, 0x24]

/-- A watch program that boot accepts (R435): 1–32 rules of known sources. -/
def watchOk (l : List Byte) : Bool :=
  let n := byteAt l 4
  1 ≤ n && n ≤ 32 && (List.range n).all (fun r => 1 ≤ byteAt l (16 + 8 * r) && byteAt l (16 + 8 * r) ≤ 5)

/-- The watch program of an image, none without a section 0x04. -/
def tblWatch (l : List Byte) : Option (List Byte) :=
  ((tblSections l).find? (fun x => x.type = 4)).map (fun x => (l.drop x.off).take (16 + 8 * byteAt l (x.off + 4)))

/-- Boot accepts a table image for a profile (R392, R393). -/
def State.tblOk (s : State) (l : List Byte) (profile : Nat) : Bool :=
  let n := numAt l 8 4
  let c := numAt l 6 2
  numAt l 0 4 = 0x42545747 && numAt l 4 2 = 1 && 1 ≤ c && c ≤ 32 && n ≤ 512 * 1024 && n ≤ l.length && 0x20 ≤ n
    && numAt l 0x18 4 = crc32c ((tblBody l).drop 0x20) && tblProfile l = profile
    && (!s.keyOk 11 || (tblTagged l && (l.drop (n - 32)).take 32 = hmac (s.keyValue 11) (tblBody l)))
    && (tblSections l).all (fun x => tblTypes.contains x.type) && (match tblWatch l with
      | some w => watchOk w
      | none => true)

/-- A format entry by its ID, which is its last word. -/
def tblFormat (l : List Byte) (type : Nat) (n : Option Nat) (id : Nat) : Option (List Byte) :=
  (tblEntries l type n).find? (fun e => 4 ≤ e.length && numAt e (e.length - 4) 4 = id)

/-- The points of a curve section: x and y, 16 bits each (DESIGN CHOICE, log entry 44). -/
def tblCurve (l : List Byte) (type : Nat) : List (Nat × Nat) := (tblEntries l type none).map (fun e => (numAt e 0 2, numAt e 2 2))

end Sys2Proof.Machine
end

