-- ==== Sys2Proof/Machine/ChainOps.lean ====
section
/-!
DEFINITION. Sys2Proof/Machine/ChainOps.lean: the shared operations of chains: chain-control cells and their forwarding (R95, R100, R126),
becoming homed and homeless (R96, R105, R108), enumeration at a head (R96–R98), and link reports (R514).
-/
namespace Sys2Proof.Machine

open Sys2Proof

/-- The epoch length in ns (R104). -/
def State.epochLen (s : State) : Nat := 31250 * 2 ^ s.rd Pg.ctim CTIM.CTIM_CFG_epoch_code

/-! ### Chain-control cells (R95) -/

/-- The payload of a chain-control cell: code, sequence number, arguments from byte 4 padded to the cell's length. -/
def chainPayload (code seq len : Nat) (args : List Byte) : List Byte :=
  let l := leBytes 1 code ++ [0] ++ leBytes 2 seq ++ args
  l.take len ++ List.replicate (len - l.length) 0

/-- Send a chain-control cell of this part. -/
def State.chainSend (s : State) (p : Port) (tunnel dhub code seq len : Nat) (args : List Byte) : State :=
  s.sendCore p 0xA tunnel dhub 0 (chainPayload code seq len args)

/-- The next sequence number of this part's chain-control cells. -/
def State.chainSeq (s : State) : Nat × State :=
  (s.chain.seq, { s with chain := { s.chain with seq := (s.chain.seq + 1) % 65536 } })

/-- The code, sequence number and an argument of a chain-control cell. -/
def ccCode (c : Cell) : Nat := numAt c.payload 0 1
def ccSeq (c : Cell) : Nat := numAt c.payload 2 2
def ccArg (c : Cell) (i n : Nat) : Nat := numAt c.payload i n

/-- The home of this part, by device ID. -/
def State.homeId (s : State) : Nat := s.rd Pg.chn CHN.HOME_ID_LO_home_id_lo + 2 ^ 32 * s.rd Pg.chn CHN.HOME_ID_HI_home_id_hi

def State.setHomeId (s : State) (id : Nat) : State :=
  (s.wr Pg.chn CHN.HOME_ID_LO_home_id_lo (id % 2 ^ 32)).wr Pg.chn CHN.HOME_ID_HI_home_id_hi (id / 2 ^ 32)

/-- The hub is unaddressed or homeless (R93): home_state other than homed. -/
def State.homeless (s : State) : Bool := !s.homed

/-- The device ID of the home that the part follows on a port: a standby head's is its chain's. -/
def State.homeOn (s : State) (p : Port) : Nat := if s.mode = .head then (s.headChain (chainOf p)).homeId else s.homeId

/-- The part follows a home on a port: a homed hub, a standby head on its chain. -/
def State.follows (s : State) (p : Port) : Bool := if s.mode = .head then (s.headChain (chainOf p)).standby else s.homed

/-- A cell that claims to come from the home does (R100): by device ID where it carries one, else by shub 0 on the role-TU port. -/
def State.fromHome (s : State) (p : Port) (c : Cell) : Bool :=
  s.follows p &&
    (if c.tunnel = 3 then numAt c.payload 16 8 = s.homeOn p
     else if c.tunnel = 1 && ccCode c = 0x13 then ccArg c 8 8 = s.homeOn p
     else if c.tunnel = 1 && (ccCode c = 0x10 || ccCode c = 0x15) then ccArg c 4 8 = s.homeOn p
     else c.shub = 0 && (s.mode = .head || p = s.tuRole))

/-- Discard a foreign cell (R100). -/
def State.foreign (s : State) : State := s.bump Pg.chn CHN.CHN_STAT_foreign 1

/-- The forwarded copy of a broadcast that arrived on a port (R126): out of the other trunk port, when that has a route and the part is no head. -/
def State.forwardCopy (s : State) (p : Port) (c : Cell) (bid acct pool : Nat) : State :=
  let o := Port.other p
  if s.mode = .head || !s.routed o then s
  else s.takeCell ⟨Port.idx o, Port.idx p, 0, 15, ⟨bid, c, acct, pool, false, s.chain.time % 2 ^ 32, Port.idx p⟩⟩

/-- A message cell that the core consumes as it arrives is forwarded as the switch core forwards a broadcast (R126). -/
def State.forwardMsg (s : State) (p : Port) (c : Cell) : State :=
  let (n, s) := s.newBid
  s.forwardCopy p c n 15 6

/-! ### What a part says of itself (R95) -/

/-- The profile in force (R399). -/
def State.profileId (s : State) : Nat := if s.rd Pg.fus FUS.PROFILE_profile = 0 then s.prof else s.rd Pg.fus FUS.PROFILE_profile

/-- ENUM_REPLY bytes 16, 17: mode code, receive and transmit lanes of a port. -/
def State.portByte (s : State) (p : Port) : Nat :=
  s.rd (Pg.trk p) TRK.PORT_STAT_mode * 16 + s.rd (Pg.trk p) TRK.PORT_STAT_rx_lanes * 4 + s.rd (Pg.trk p) TRK.PORT_STAT_tx_lanes

/-- TD partner of ENUM_REPLY byte 18: 0 down, 1 up, 2 P1200, 3 standby head, 4 boundary. -/
def State.tdPartner (s : State) : Nat :=
  let p := s.tdRole
  if !s.routed p then 0
  else if s.chain.bounds.contains p then 4
  else if (s.trunk p).isP1200 then 2
  else match (s.trunk p).partner with
    | some g => if g.head then 3 else 1
    | none => 1

/-- Arguments of ENUM_REPLY and REHOME_ACK. -/
def State.replyArgs (s : State) : List Byte :=
  leBytes 8 s.devId ++ leBytes 1 (s.rd Pg.fus FUS.PART_part) ++ leBytes 1 (s.rd Pg.fus FUS.PART_stepping) ++ leBytes 2 s.profileId ++
  leBytes 1 (s.portByte .tu) ++ leBytes 1 (s.portByte .td) ++ leBytes 1 s.tdPartner ++ [0] ++ leBytes 4 (s.rd (Pg.lnk s.tuRole) LNK.RTT_rtt_ns)

/-- Arguments of ENUM and REHOME: this head's device ID, priority and chain. -/
def State.homeArgs (s : State) (ch : Nat) : List Byte :=
  leBytes 8 s.devId ++ leBytes 1 (s.rd Pg.chn CHN.CHN_CFG_prio) ++ leBytes 1 ch

/-! ### Link reports (R514) -/

/-- A link report for a port, sent by a hub that has a home. -/
def State.linkReport (s : State) (p : Port) (reason : Nat) : State :=
  if s.mode != .hub || s.homeless then s
  else s.sendCore s.tuRole 0xB 5 0 0
    (leBytes 1 0x45 ++ leBytes 1 reason ++ leBytes 1 (Port.idx p + (if p = s.tuRole then 128 else 0)) ++ leBytes 1 (s.portByte p) ++
      leBytes 4 (s.rd (Pg.lnk p) LNK.RTT_rtt_ns) ++ leBytes 4 (s.chain.time % 2 ^ 32) ++ [0, 0, 0, 0])

/-! ### Events that wait for a home (R465) -/

/-- Once it has sent ENUM_REPLY or REHOME_ACK a hub sends one cell for every pending page with route bit 1, in ascending order. -/
def State.sendPending (s : State) : State :=
  s.each (allPages.filter (fun p => s.present p && s.isPending p && s.route p / 2 % 2 = 1)) (fun s p =>
    if s.sendsEvents then
      let s := s.pageCell p
      if s.rd Pg.evt EVT.EVT_CFG_hold_us = 0 || s.evt.hold.contains p then s else { s with evt := { s.evt with hold := s.evt.hold ++ [p] } }
    else s)

/-! ### Homed and homeless -/

/-- The resequencers and counters of the management tunnels start again (DEDUCED, log entry 9). -/
def State.forgetMgmt (s : State) : State :=
  let gone := (s.gran.rsqs.filter (fun r => r.1 < 0x100000)).flatMap (fun r => r.2.held)
  let s : State := { s with gran := { s.gran with
    rsqs := s.gran.rsqs.filter (fun r => 0x100000 ≤ r.1), seqs := s.gran.seqs.filter (fun r => 0x100000 ≤ r.1), lastPosted := s.gran.lastPosted.filter (fun r => 0x100000 ≤ r.1) } }
  s.each gone State.release

/-- An incomplete allotment table is discarded (R168, R19). -/
def State.dropTable (s : State) : State :=
  if s.sched.tblIn.isSome then
    (({ s with sched := { s.sched with tblIn := none } }).bump Pg.sch SCH.SCH_CNT_discards 1).raise Pg.sch SCH.ev_tbl_drop
  else s

/-- Chain time runs free (R105). -/
def State.freeRun (s : State) : State :=
  if s.on Pg.ctim CTIM.CTIM_STAT_free then s else (s.wr Pg.ctim CTIM.CTIM_STAT_free 1).raise Pg.ctim CTIM.ev_free_run

/-- A hub becomes homeless (R108): its address stays for reporting, chain time runs free, an incomplete table is dropped (R19). -/
def State.becomeHomeless (s : State) : State :=
  let s := s.wr Pg.chn CHN.CHN_STAT_home_state 2
  let s := s.raise Pg.chn CHN.ev_home_lost
  let s : State := { s with chain := { s.chain with hbSeen := false, hbNow := false, replyDue := none, tdUpDue := false } }
  ((s.wr Pg.chn CHN.CHN_STAT_hb_missed 0).dropTable.freeRun).forgetMgmt

/-- HOME_LOST leaves by a port (R108): reporter, trigger, former address. -/
def State.sendHomeLost (s : State) (p : Port) (trigger : Nat) : State :=
  let (n, s) := s.chainSeq
  s.chainSend p 1 63 0x14 n 16 (leBytes 8 s.devId ++ leBytes 1 trigger ++ leBytes 1 s.addr)

/-- The home-loss trigger at a hub (R108): 1 the role-TU link is down, 2 heartbeats are missing. -/
def State.homeLoss (s : State) (trigger : Nat) : State :=
  let out := s.tdRole
  let s := s.becomeHomeless
  if s.routed out then s.sendHomeLost out trigger else s

/-- Give role TU to a port and TD to the other (R28). -/
def State.giveTu (s : State) (p : Port) : State :=
  (s.wr (Pg.trk p) TRK.PORT_STAT_role 0).wr (Pg.trk (Port.other p)) TRK.PORT_STAT_role 1

/-- A port's hop is a boundary hop no more (R108). -/
def State.unbound (s : State) (p : Port) : State :=
  if s.chain.bounds.contains p then
    let l := s.chain.bounds.filter (· != p)
    ({ s with chain := { s.chain with bounds := l } }).wr Pg.chn CHN.CHN_STAT_boundary (b2n (!l.isEmpty))
  else s

/-- A hub records a home and takes an address (R96 step 3, R108 steps 2 and 3): from homeless to homed in one step, so that home_state never shows 3, re-homing, of which the rules do not say
when it holds (DESIGN CHOICE, log entry 142). -/
def State.takeHome (s : State) (p : Port) (id prio ch addr : Nat) : State :=
  let s := s.giveTu p
  let s := s.setHomeId id
  let s := s.wr Pg.chn CHN.CHN_STAT_home_state 1
  let s := s.wr Pg.chn CHN.CHN_STAT_chain ch
  let s := s.wr Pg.chn CHN.CHN_STAT_addr addr
  let s := s.wr Pg.chn CHN.CHN_STAT_hb_missed 0
  let s := s.unbound p
  let s := s.each [Port.tu, Port.td] (fun s q => s.setTrunk q { s.trunk q with below := false, assigned := false })
  { s with chain := { s.chain with homePrio := prio, hbSeen := false, hbNow := false, standbyId := 0 } }

/-- ENUM_REPLY leaves for the home, then what waits for it: both ports' link reports and pending page events (R96 step 5, R514, R465). -/
def State.sendReply (s : State) (code seq : Nat) : State :=
  let s := s.chainSend s.tuRole 2 0 code seq 24 s.replyArgs
  let s := (s.linkReport .tu 6).linkReport .td 6
  ({ s with chain := { s.chain with replyDue := none } }).sendPending

/-! ### A head and its chains (R96, R107, R108) -/

/-- The part's role among heads: home of some chain, else standby head of some chain, else home to none (CHN_STAT.part_role). -/
def State.headRole (s : State) : State :=
  let home := s.chain.c0.home || s.chain.c1.home
  let stand := s.chain.c0.standby || s.chain.c1.standby
  let s := s.wr Pg.chn CHN.CHN_STAT_part_role (if home then 1 else if stand then 2 else 1)
  if home then ((s.wr Pg.chn CHN.CHN_STAT_home_state 1).wr Pg.chn CHN.CHN_STAT_addr 0).setHomeId s.devId
  else if stand then s.wr Pg.chn CHN.CHN_STAT_addr 63
  else ((s.wr Pg.chn CHN.CHN_STAT_home_state 0).wr Pg.chn CHN.CHN_STAT_addr 63)

/-- A head becomes home of a chain: it follows nobody's time then (R106). -/
def State.becomeHome (s : State) (ch : Nat) : State :=
  let s : State := { s with chain := { s.chain with freq := 0, slew := 0 } }
  (s.setHeadChain ch { s.headChain ch with home := true, standby := false }).headRole

/-- The device ID under which a P1200 is known (R114). -/
def p1200Id (serial : Nat) : Nat := 0x1200 * 2 ^ 48 + serial % 2 ^ 48

/-- An ENUM is due for a P1200 beyond a port that has no address yet (R114). -/
def State.p1200Due (s : State) (p : Port) : Bool := (s.trunk p).isP1200 && !(s.trunk p).assigned

/-- The forerunner address assignment leaves (R114). -/
def State.assignP1200 (s : State) (p : Port) (addr : Nat) : State :=
  (s.setTrunk p { s.trunk p with assigned := true }).emit (.training p 7 (leBytes 1 addr))

/-- The arguments of the ENUM_REPLY that a port gives on a P1200's behalf (R95, R114). -/
def State.p1200Args (s : State) (p : Port) : List Byte :=
  leBytes 8 (p1200Id (s.trunk p).serial) ++ [0x03, 0, 0, 0] ++ leBytes 1 (4 * 16 + 5) ++ [0] ++ leBytes 1 (s.trunk p).beyond ++ [0] ++ leBytes 4 (s.rd (Pg.lnk p) LNK.RTT_rtt_ns)

/-- ENUM leaves by a head's chain port (R96). -/
def State.enumCell (s : State) (ch : Nat) : State :=
  let (n, s) := s.chainSeq
  s.chainSend (portOfChain ch) 1 63 0x10 n 24 (s.homeArgs ch)

/-- A directory entry from the arguments of ENUM_REPLY or REHOME_ACK, from byte 4 on (R95, R121). -/
def dirEntOf (l : List Byte) : DirEnt :=
  { id := numAt l 0 8, ident := numAt l 8 1 * 2 ^ 24 + numAt l 9 1 * 2 ^ 16 + numAt l 10 2, tuB := numAt l 12 1, tdB := numAt l 13 1, part := numAt l 14 1, rtt := numAt l 16 4, valid := true }

/-- CHAINn_STAT from the directory: a hub that reports TD partner 3 shows a standby head (R107). -/
def State.dirStats (s : State) (ch : Nat) : State :=
  let d := (s.headChain ch).dir.filter (fun e => e.2.valid)
  let s := s.wr Pg.chn (CHN.CHAIN_STAT_hubs ch) d.length
  let s := s.wr Pg.chn (CHN.CHAIN_STAT_p1200s ch) (countWhere (fun e => e.2.ident / 2 ^ 24 = 3) d)
  s.wr Pg.chn (CHN.CHAIN_STAT_standby ch) (b2n ((s.headChain ch).standbyId != 0 || d.any (fun e => e.2.part = 3)))

/-- Enumeration of a chain ends (R96 step 7): state up, enum_done or enum_fail. -/
def State.enumStop (s : State) (ch : Nat) (e : Ev) : State :=
  let s := s.setHeadChain ch { s.headChain ch with waiting := false, resends := 0 }
  ((s.wr Pg.chn (CHN.CHAIN_STAT_state ch) 2).dirStats ch).raise Pg.chn e

/-- Enumeration of a chain ends (R96 step 7). -/
def State.enumEnd (s : State) (ch : Nat) : State := s.enumStop ch CHN.ev_enum_done

/-- Link reports of hubs of a chain from an address on are known no more (R160, R514). -/
def State.dropLinks (s : State) (ch addr : Nat) : State :=
  { s with sched := { s.sched with links := s.sched.links.filter (fun x => x.1 / 128 != ch || x.1 / 2 % 64 < addr) } }

/-- What a hub has just said of its ports replaces the link reports that came before (R160). -/
def State.forgetLinks (s : State) (ch addr : Nat) : State :=
  { s with sched := { s.sched with links := s.sched.links.filter (fun x => x.1 / 2 != 64 * ch + addr) } }

/-- A P1200. -/
def isP12 (e : DirEnt) : Bool := e.ident / 2 ^ 24 = 3

/-- A hub that is homed owes reports from then on; what an earlier one said stays (R164). -/
def State.expectReport (s : State) (ch addr : Nat) (e : DirEnt) : State :=
  let k := 64 * ch + addr
  if isP12 e || (Tab.find k s.sched.reports).isSome then s
  else { s with sched := { s.sched with reports := Tab.put k { epoch := 0, ver := 0, flags := 0, marksTu := 0, marksTd := 0, recs := [], came := s.chain.time / s.epochLen } s.sched.reports } }

/-- A directory entry is filled and hub_added raised (R96 step 5); the firmware gives the part's LNK pages the credit shares (R156). -/
def State.dirPut (s : State) (ch addr : Nat) (e : DirEnt) : State :=
  let h := s.headChain ch
  let s := s.setHeadChain ch { h with dir := Tab.put addr e h.dir, asleep := h.asleep.filter (· != addr), boundaryAt := if e.part = 4 then addr else h.boundaryAt }
  let s := (s.forgetLinks ch addr).expectReport ch addr e
  let s := s.emit (.note "crd_cfg" [ch, addr, s.rd Pg.alt ALT.ALT_CFG_m_share, s.rd Pg.alt ALT.ALT_CFG_g_share])
  (s.dirStats ch).raise Pg.chn CHN.ev_hub_added

/-- The head sends the next ENUM; no head may attach to a P1200: one at its own chain port ends enumeration (R113). -/
def State.enumNext (s : State) (ch : Nat) : State :=
  let s := s.setHeadChain ch { s.headChain ch with waiting := true, resends := 0 }
  if (s.trunk (portOfChain ch)).isP1200 then s.enumStop ch CHN.ev_enum_fail else s.enumCell ch

/-- A reply fills the directory entry of an address (R96 steps 5–7); a P1200 that breaks R113 ends enumeration with enum_fail. -/
def State.dirFill (s : State) (ch addr : Nat) (e : DirEnt) : State :=
  let wrong := isP12 e && ((match Tab.find (addr - 1) (s.headChain ch).dir with
    | some x => isP12 x
    | none => false) || e.part = 3)
  let s := s.dirPut ch addr e
  if wrong then s.enumStop ch CHN.ev_enum_fail
  else if e.part = 1 || e.part = 2 then s.enumNext ch
  else s.enumEnd ch

/-- The head gives its own LNK pages the credit shares (R156). -/
def State.ownShares (s : State) : State :=
  s.each [Port.tu, Port.td] (fun s p => s.crdCfg p (s.nrt p * 65536 + s.rd Pg.alt ALT.ALT_CFG_g_share * 256 + s.rd Pg.alt ALT.ALT_CFG_m_share))

/-- Enumeration of a chain starts (R96 step 1): the directory is empty, the state enumerating. -/
def State.enumStart (s : State) (ch : Nat) : State :=
  let s := (s.setHeadChain ch { s.headChain ch with dir := [], standbyId := 0, boundaryAt := 0 }).dropLinks ch 0
  let s := ((s.becomeHome ch).wr Pg.chn (CHN.CHAIN_STAT_state ch) 1).ownShares
  (s.dirStats ch).enumNext ch

/-- REHOME leaves by a head that takes over a chain (R108 step 1). -/
def State.sendRehome (s : State) (ch : Nat) : State :=
  let (n, s) := s.chainSeq
  s.chainSend (portOfChain ch) 1 63 0x15 n 24 (s.homeArgs ch)

/-- A standby head re-homes its chain (R108): it is home from now on, its directory fills with the acknowledgements. -/
def State.takeChain (s : State) (ch : Nat) : State :=
  let s := (s.setHeadChain ch { s.headChain ch with dir := [], standbyId := 0, boundaryAt := 0, waiting := false, hbSeen := false, hbNow := false, missed := 0 }).dropLinks ch 0
  let s := s.forgetMgmt
  let s := ((s.becomeHome ch).wr Pg.chn (CHN.CHAIN_STAT_state ch) 1).ownShares
  let s := if s.chain.reqChain = ch + 1 then
      (({ s with chain := { s.chain with reqChain := 0 } }).wr Pg.chn CHN.HANDOVER_status 2).raise Pg.chn CHN.ev_handover_won else s
  ((s.wr Pg.chn CHN.CHN_STAT_hb_missed 0).dirStats ch).sendRehome ch

/-- A head's own request is lost (R112). -/
def State.loseRequest (s : State) : State :=
  (({ s with chain := { s.chain with reqChain := 0 } }).wr Pg.chn CHN.HANDOVER_status 3).raise Pg.chn CHN.ev_handover_lost

/-- A head is home of a chain no more (R111): what it asked for is lost (R112). -/
def State.yieldChain (s : State) (ch : Nat) : State :=
  let s := s.setHeadChain ch { s.headChain ch with home := false, standby := false, waiting := false, dir := [], standbyId := 0, hbSeen := false, hbNow := false, missed := 0 }
  let s := if s.chain.reqChain = ch + 1 then s.loseRequest else s
  ((s.wr Pg.chn (CHN.CHAIN_STAT_state ch) 0).dirStats ch).headRole

/-- The 1 s within which a first heartbeat must come begins (R99). -/
def State.awaitFirst (s : State) (ch : Nat) : State :=
  { s with chain := { s.chain with firstWait := s.chain.firstWait.filter (fun k => k.val ≠ ch) ++ [if ch = 0 then 0 else 1] } }

/-- A head takes the standby role for a chain and sends STANDBY_HELLO (R107). -/
def State.takeStandby (s : State) (ch homeId prio : Nat) : State :=
  let s := s.yieldChain ch
  let s := ((s.setHeadChain ch { s.headChain ch with standby := true, homeId := homeId }).awaitFirst ch).headRole
  let s := if s.chain.c0.home || s.chain.c1.home then s else (s.setHomeId homeId).wr Pg.chn CHN.CHN_STAT_home_state 1
  let s : State := { s with chain := { s.chain with homePrio := prio } }
  let (n, s) := s.chainSeq
  s.chainSend (portOfChain ch) 2 0 0x1A n 16 (leBytes 8 s.devId ++ leBytes 1 (s.rd Pg.chn CHN.CHN_CFG_prio))

/-- A break just beyond an address, at a time, has the cause dying gasp: the hub on one side of it sent one at most 10 ms ago (R117). No register
has a code for this cause; the report is an output (DEDUCED, log entry 54). -/
def HeadChain.gasped (h : HeadChain) (now addr : Nat) : Option (Nat × Nat) :=
  h.gasps.find? (fun g => (g.1 = addr || g.1 = addr + 1) && now ≤ g.2 + 10000000)

/-- The entries of a head's directory beyond an address become invalid, and hub_lost is raised when there were any (R98). -/
def State.hubsLost (s : State) (ch addr : Nat) : State :=
  let h := s.headChain ch
  let s := match h.gasped s.chain.time addr with
    | some g => s.emit (.note "dying gasp" [ch, g.1])
    | none => s
  if h.dir.any (fun e => addr < e.1 && e.2.valid) then
    let s := s.setHeadChain ch { h with dir := h.dir.map (fun e => (e.1, if addr < e.1 then { e.2 with valid := false } else e.2)) }
    (s.dirStats ch).raise Pg.chn CHN.ev_hub_lost
  else s

/-- A boundary hop is found on a port (R110). -/
def State.boundary (s : State) (p : Port) : State :=
  if s.chain.bounds.contains p then s
  else
    let s : State := { s with chain := { s.chain with bounds := s.chain.bounds ++ [p], tdUpDue := s.mode = .hub && p = s.tdRole } }
    (s.wr Pg.chn CHN.CHN_STAT_boundary 1).raise Pg.chn CHN.ev_boundary_hop

/-- The home takes a boundary hop of a chain in again (R108): its flags clear at the port and in the directory. -/
def State.joinBoundary (s : State) (ch : Nat) : State :=
  let h := s.headChain ch
  let s := s.unbound (portOfChain ch)
  s.setHeadChain ch { h with boundaryAt := 0, dir := h.dir.map (fun e => (e.1, if e.2.part = 4 then { e.2 with part := 1 } else e.2)) }

/-- The round trip of a chain, the sum of RTT over its hops in ns (R111), as the head knows it. -/
def State.chainRtt (s : State) (ch : Nat) : Nat :=
  sumNat (((s.headChain ch).dir.filter (fun e => e.2.valid)).map (fun e => e.2.rtt))

end Sys2Proof.Machine
end

