-- ==== Sys2Proof/Machine/Wire.lean ====
section
/-!
DEFINITION. Sys2Proof/Machine/Wire.lean: cells on the balls of a trunk port: the modes (R31), the forms of a cell on native and P1 hops (R62, R87–R90),
striping over the lanes and their place on the connector (R30, R53, R84), sequenced cells out (R64, R66, R73).
-/
namespace Sys2Proof.Machine

open Sys2Proof

/-! ### Modes (R31, R37) -/

def mdG0 : Nat := 1
def mdG1 : Nat := 2
def mdG2 : Nat := 3
def mdP1 : Nat := 4

/-- The bit of a mode in a hop page and in the failed marks: bit 3 G2, bit 2 G1, bit 1 G0, bit 0 P1. -/
def modeBit (m : Nat) : Nat := if m = mdP1 then 0 else m

/-- Slots per 125 µs of a direction (R31, R155). -/
def slotsOf (mode lanes : Nat) : Nat :=
  if mode = mdG2 then (if lanes = 3 then 5580 else 2790)
  else if mode = mdG1 then (if lanes = 3 then 2790 else 1395)
  else if mode = mdG0 then (if lanes = 3 then 1116 else 558)
  else if mode = mdP1 then 406 else 0

/-- The slot time of a direction in tenths of a nanosecond (R31, R91). -/
def slotTenths (mode lanes : Nat) : Nat :=
  if mode = mdG2 then (if lanes = 3 then 224 else 448)
  else if mode = mdG1 then (if lanes = 3 then 448 else 896)
  else if mode = mdG0 then (if lanes = 3 then 1120 else 2240)
  else if mode = mdP1 then 3072 else 0

/-- The payload rate of a direction in tenths of Gb/s; P1 counts as 10.0 Gb/s (R31, R129). -/
def rateTenths (mode lanes : Nat) : Nat :=
  if mode = mdG2 then (if lanes = 3 then 1000 else 500)
  else if mode = mdG1 then (if lanes = 3 then 500 else 250)
  else if mode = mdG0 then (if lanes = 3 then 200 else 100)
  else if mode = mdP1 then 100 else 0

/-- The modes that a medium carries, as page bits (R33): 1 twinax, 2 two-lane optical, 3 Type-C, 4 single-lane optical. -/
def mediumModes (m : Nat) : Nat := if m = 1 then 15 else if m = 2 then 8 else if m = 3 then 8 else if m = 4 then 3 else 0

/-! ### Port registers -/

def State.trkF (s : State) (p : Port) (f : Fld) : Nat := s.rd (Pg.trk p) f

def State.setTrk (s : State) (p : Port) (f : Fld) (v : Nat) : State := s.wr (Pg.trk p) f v

/-! ### Lanes (R30, R53, R84) -/

/-- Bytes dealt in units of 8 to two lanes, the first unit to lane `k`; `n` units at most. -/
def dealUnits : Nat → Nat → List Byte → List Byte × List Byte
  | 0, _, _ => ([], [])
  | n + 1, k, l =>
    if l.isEmpty then ([], [])
    else
      let r := dealUnits n (1 - k) (l.drop 8)
      if k = 0 then (l.take 8 ++ r.1, r.2) else (r.1, l.take 8 ++ r.2)

/-- Two lanes' bytes put together again, `n` units of 8, the first from lane `k`. -/
def joinUnits : Nat → Nat → List Byte → List Byte → List Byte
  | 0, _, _, _ => []
  | n + 1, k, a, b => if k = 0 then a.take 8 ++ joinUnits n 1 (a.drop 8) b else b.take 8 ++ joinUnits n 0 a (b.drop 8)

/-- The pair of the connector that a lane stands on: LANE_CFG.swap first, then the orientation of a Type-C attach; the cable with CC1 keeps the order (DEDUCED, log entry 123). -/
def State.pairOf (s : State) (p : Port) (k : Nat) : Nat :=
  let x := if bitOf (s.trunk p).laneMap 4 = 1 then 1 - k else k
  if (s.trunk p).medium = 3 && s.on (Pg.trk p) TRK.TTC_STAT_orient then 1 - x else x

/-- A lane's bytes with the polarity of its pair: bit 2 × k of LANE_CFG for transmit, one more for receive. -/
def State.polar (s : State) (p : Port) (rx : Bool) (k : Nat) (l : List Byte) : List Byte :=
  if bitOf (s.trunk p).laneMap (2 * k + b2n rx) = 1 then l.map (· ^^^ 0xFF) else l

/-- The lane of a one-lane set. -/
def soleLane (set : Nat) : Nat := if set = 2 then 1 else 0

/-- What the connector's pairs carry of a piece of the cell stream, whose first unit goes to lane `k` on a two-lane direction. -/
def State.laneStreams (s : State) (p : Port) (set k : Nat) (l : List Byte) : List (Nat × List Byte) :=
  if set = 3 then
    let r := dealUnits (l.length / 8 + 1) k l
    [(s.pairOf p 0, s.polar p false 0 r.1), (s.pairOf p 1, s.polar p false 1 r.2)]
  else [(s.pairOf p (soleLane set), s.polar p false (soleLane set) l)]

/-- The lane that the next unit of a two-lane direction takes, `n` bytes on. -/
def nextUnit (set k n : Nat) : Nat := if set = 3 then (k + n / 8) % 2 else 0

/-- The calendar position of a port. -/
def State.calPos (s : State) (p : Port) : Nat := s.rd Pg.sch (SCH.CAL_STAT_pos (Port.idx p))

/-- One cell time of a port goes by: a slot on a native hop, a third of a slot on a P1 hop (R31, R91). -/
def State.cellTime (s : State) (p : Port) : State :=
  if s.trkF p TRK.PORT_STAT_mode = mdP1 && (s.link p).third < 2 then s.setLink p { s.link p with third := (s.link p).third + 1 }
  else (s.setLink p { s.link p with third := 0 }).wr Pg.sch (SCH.CAL_STAT_pos (Port.idx p)) ((s.calPos p + 1) % 4096)

/-- A cell leaves on the lanes in use, and its time goes by (R62, R84, R87). -/
def State.wireOut (s : State) (p : Port) (b : List Byte) : State :=
  let set := s.trkF p TRK.PORT_STAT_tx_lanes
  let k := (s.link p).txUnit
  ((s.setLink p { s.link p with txUnit := nextUnit set k b.length }).emit (.wire p b (s.laneStreams p set k b))).cellTime p

/-- The bytes of the cell stream that come in on the connector's pairs, `raw` by pair. -/
def State.laneBytes (s : State) (p : Port) (raw : List (List Byte)) : List Byte :=
  let set := s.trkF p TRK.PORT_STAT_rx_lanes
  let lane := fun k => s.polar p true k (raw.getD (s.pairOf p k) [])
  if set = 3 then joinUnits ((lane 0).length / 8 + (lane 1).length / 8) (s.link p).rxUnit (lane 0) (lane 1) else lane (soleLane set)

/-- The receiver's place in the stream, `n` bytes on. -/
def State.laneStep (s : State) (p : Port) (n : Nat) : State :=
  let k := nextUnit (s.trkF p TRK.PORT_STAT_rx_lanes) (s.link p).rxUnit n
  if k = (s.link p).rxUnit then s else s.setLink p { s.link p with rxUnit := k }

/-! ### Forms on the wire -/

/-- The hop runs in P1 (R87). -/
def State.p1 (s : State) (p : Port) : Bool := s.trkF p TRK.PORT_STAT_mode = mdP1

/-- The address of the part beyond a port. -/
def State.neighbour (s : State) (p : Port) : Nat := if s.mode = .head then 1 else if p = s.tdRole then s.addr + 1 else s.addr - 1

/-- A cell that a P1 port converts, because it goes to the P1200 beyond it (R90). -/
def State.forP1200 (s : State) (p : Port) (c : Cell) : Bool := (s.trunk p).isP1200 && c.dhub = s.neighbour p

/-- A native cell cut into forerunner cells for a P1200 (R90). -/
def convertedCells (c : Cell) : List FCell :=
  let ps := chunks 116 4 (c.payload.take c.len)
  let n := ps.length
  (List.range n).map (fun i =>
    { ptype := if c.ctype = 0xA then 0xA
               else if (c.ctype = 1 ∨ c.ctype = 4) ∧ i = 0 then (if n = 1 ∧ c.ctype = 4 then 4 else 1)
               else if (c.ctype = 3 ∨ c.ctype = 4) ∧ i + 1 = n then 3 else 2,
      pcls := c.cls, dhub := c.dhub, dport := c.dport, shub := c.shub, sport := c.sport, chan := c.tunnel, lseq := 0, cseq := c.tseq % 128,
      plen := (ps.getD i []).length, data := ps.getD i [] })

/-- The forerunner cells of a cell on a P1 hop (R87–R90): hop control cells and cells for a P1200 as they are, every other carried whole. -/
def State.fcells (s : State) (p : Port) (c : Cell) : List FCell := if c.tunnel = 0 || s.forP1200 p c then convertedCells c else c.carrier

/-- The cells that a sequenced cell takes on its hop. -/
def State.wireCost (s : State) (p : Port) (c : Cell) : Nat := if s.p1 p then (s.fcells p c).length else 1

/-- The cells that a cell in a replay store takes: all of them, or those that had left when it was aborted (R70). -/
def State.sentCost (s : State) (p : Port) (x : Sent) : Nat := min (s.wireCost p x.cell) (x.part.getD (s.wireCost p x.cell))

/-- The bytes of a sequenced cell on its hop from a link count on. -/
def State.wireForms (s : State) (p : Port) (c : Cell) (n : Nat) : List (List Byte) :=
  if s.p1 p then (s.fcells p c).mapIdx (fun i f => ({ f with lseq := (n + i) % 4096 } : FCell).bytes)
  else [({ c with lseq := n % 4096 } : Cell).bytes]

/-! ### Sequenced cells out (R64, R66, R73) -/

/-- A sequenced cell takes the next link count, waits for its acknowledgement, and leaves (R64, R73). `bid` is its buffer, 0 for a hop control cell. -/
def State.seqOut (s : State) (p : Port) (c : Cell) (bid : Nat) : State :=
  let l := s.link p
  let n := l.txCount
  let k := s.wireCost p c
  let forms := s.wireForms p c n
  let s := s.setLink p { l with txCount := n + k, store := l.store ++ [⟨n, c, bid, none⟩] }
  let s := s.bump (Pg.lnk p) LNK.LNK_CNT4_cells_tx k
  s.each forms (fun s b => s.wireOut p b)

/-- A hop control cell with a given payload (R66). -/
def ctlCell (payload : List Byte) : Cell := ({ ctype := 0xA, hops := 1, payload := payload } : Cell).seal

/-- A hop control cell with a given payload leaves (R66). -/
def State.ctlOut (s : State) (p : Port) (payload : List Byte) : State := s.seqOut p (ctlCell payload) 0

end Sys2Proof.Machine
end

