-- ==== Sys2Proof/Machine/TrunkOps.lean ====
section
/-!
DEFINITION. Sys2Proof/Machine/TrunkOps.lean: the shared operations of a trunk port: its states (R39, R61), hop pages and selection
(R37, R40), link up and link down (R39 step 11, R58, R59), RECOVER (R50, R51), lanes (R46–R49).
-/
namespace Sys2Proof.Machine

open Sys2Proof

/-! ### Port registers -/

/-- PORT_STAT.state of a port. -/
def State.setPst (s : State) (p : Port) (st : Nat) : State := s.setTrk p TRK.PORT_STAT_state st

/-- The port's link is up: UP, DEGRADED or RECOVER. -/
def State.isUp (s : State) (p : Port) : Bool := s.routed p

/-- Bring-up takes over the mode and lane fields of PORT_CFG and LANE_CFG (R61): where the port enters NEGOTIATE, or trains from its snapshot (DESIGN CHOICE, log entry 124). -/
def State.takeCfg (s : State) (p : Port) : State :=
  let f := s.trkF p
  s.setTrunk p { s.trunk p with
    allow := f TRK.PORT_CFG_allow_g2 * 8 + f TRK.PORT_CFG_allow_g1 * 4 + f TRK.PORT_CFG_allow_g0 * 2 + f TRK.PORT_CFG_allow_p1
    l1Dis := s.on (Pg.trk p) TRK.PORT_CFG_l1_dis
    laneMap := f TRK.LANE_CFG_swap * 16 + f TRK.LANE_CFG_pol_rx1 * 8 + f TRK.LANE_CFG_pol_tx1 * 4 + f TRK.LANE_CFG_pol_rx0 * 2 + f TRK.LANE_CFG_pol_tx0 }

/-- Modes that the port allows, that the medium carries and that are not marked failed (R37). -/
def State.pageModes (s : State) (p : Port) : Nat :=
  ((s.trunk p).allow &&& mediumModes (s.trunk p).medium) &&& (15 ^^^ s.trkF p TRK.PORT_STAT_failed)

/-- Usable lanes of the page, as bits of byte 3 (R37, R40). The rules do not say what makes a lane usable beside l1_dis and the medium: the model marks both lanes of both directions,
but L1 with l1_dis or on single-lane optical (DESIGN CHOICE, log entry 125). -/
def State.pageLanes (s : State) (p : Port) : Nat := if (s.trunk p).l1Dis || (s.trunk p).medium = 4 then 5 else 15

/-- The port's medium has a sideband (R33, R36). -/
def State.hasSideband (s : State) (p : Port) : Bool := ((s.trunk p).medium = 1 || (s.trunk p).medium = 3) && s.on (Pg.trk p) TRK.PORT_CFG_sb_en

/-- A frame of a type with its payload, in which unused bytes are 0, and its CRC-8 (R36, R37). -/
def sbFrameOf (type : Nat) (payload : List Nat) : SbFrame :=
  let b := (type :: payload ++ List.replicate (4 - payload.length) 0).flatMap (leBytes 1)
  { delims := true, bytes := b ++ leBytes 1 (crc8 b) }

/-- The line that carries SB_TX: its ball, or on Type-C SBU1 or, turned round, SBU2 (R53; DEDUCED, log entry 123). -/
def State.sbLine (s : State) (p : Port) : Nat := if (s.trunk p).medium = 3 then 1 + s.trkF p TRK.TTC_STAT_orient else 0

/-- A sideband frame leaves (R36). -/
def State.sbSend (s : State) (p : Port) (type : Nat) (payload : List Nat) : State := s.emit (.sideband p (s.sbLine p) (sbFrameOf type payload))

/-- The port may negotiate on its sideband: it has one, and inband_only is 0 (R36, R39 step 5a). -/
def State.sideband (s : State) (p : Port) : Bool := s.hasSideband p && !s.on (Pg.trk p) TRK.SB_CFG_inband_only

/-- A hop page without its number (R37). -/
def State.pageHead (s : State) (p : Port) : List Nat := [s.pageModes p, s.pageLanes p + (if s.mode = .head then 16 else 0), (s.trunk p).medium]

/-- A hop page that has changed takes the next number (R37). -/
def State.pageStep (s : State) (p : Port) : State :=
  if (s.trunk p).pageLast = s.pageHead p then s
  else s.setTrunk p { s.trunk p with pageLast := s.pageHead p, pageSeq := ((s.trunk p).pageSeq + 1) % 256 }

/-- The payload of a hop page (R37). -/
def State.pageBytes (s : State) (p : Port) : List Nat := s.pageHead p ++ [(s.trunk p).pageSeq]

/-- The payload of a HOP_ACK for a selection (R37). -/
def State.ackBytes (s : State) (p : Port) (g : HopSel) : List Nat :=
  [g.mode, g.txl + g.rxl * 4, (s.trunk p).pageSeq, match (s.trunk p).partner with
    | some q => q.seq
    | none => 0]

/-! ### Selection (R40) -/

/-- The highest common G mode of two pages. -/
def bestMode (a b : Nat) : Nat :=
  let c := a &&& b
  if bitOf c 3 = 1 then mdG2 else if bitOf c 2 = 1 then mdG1 else if bitOf c 1 = 1 then mdG0 else 0

/-- Mode and lane sets by R40 from the own and the partner's page; none while no mode is common or a direction has no lane. -/
def State.select (s : State) (p : Port) : Option HopSel := match (s.trunk p).partner with
  | none => none
  | some g =>
    let m := bestMode (s.pageModes p) g.modes
    let own := s.pageLanes p
    let tx := (own >>> 2) &&& (g.lanes % 4)
    let rx := (own % 4) &&& ((g.lanes >>> 2) % 4)
    if m = 0 || tx = 0 || rx = 0 then none else some ⟨m, tx, rx⟩

/-- No G mode is left: no page of the partner, or no mode common to both pages (R39 step 9b). -/
def State.noMode (s : State) (p : Port) : Bool := match (s.trunk p).partner with
  | none => true
  | some g => bestMode (s.pageModes p) g.modes = 0

/-- After a page: select and acknowledge on the sideband, or carry the selection in training frames (R39 steps 6 and 7). -/
def State.selectAck (s : State) (p : Port) : State := match s.select p with
  | none => s.setTrunk p { s.trunk p with sel := none }
  | some g =>
    let s := s.setTrunk p { s.trunk p with sel := some g }
    if s.on (Pg.trk p) TRK.PORT_STAT_inband then s.emit (.training p 2 ((s.ackBytes p g).flatMap (leBytes 1)))
    else s.sbSend p 2 (s.ackBytes p g)

/-! ### Equalisation (R43–R45) -/

/-- Set an EQ_PIN bit and raise eq_pinned (R44). -/
def State.eqPin (s : State) (p : Port) (f : Fld) : State := (s.setTrk p f 1).raise (Pg.trk p) TRK.ev_eq_pinned

/-- Hold a value in a loop's register, clamped to its envelope; a clamp pins the loop (R44). -/
def State.eqSet (s : State) (p : Port) (f pin : Fld) (lo hi v : Nat) : State :=
  let s := s.setTrk p f (min (max v lo) hi)
  if v < lo ∨ hi < v then s.eqPin p pin else s

def ctlePin (lane : Nat) : Fld := if lane = 0 then TRK.EQ_PIN_ctle_l0 else TRK.EQ_PIN_ctle_l1
def dfePin (lane : Nat) : Fld := if lane = 0 then TRK.EQ_PIN_dfe_l0 else TRK.EQ_PIN_dfe_l1
def ffePin (lane : Nat) : Fld := if lane = 0 then TRK.EQ_PIN_ffe_l0 else TRK.EQ_PIN_ffe_l1
def ffeHold (lane : Nat) : Fld := if lane = 0 then TRK.EQ_HOLD_ffe_l0 else TRK.EQ_HOLD_ffe_l1
def ffePre (lane : Nat) : Fld := if lane = 0 then TRK.FFE_L0_pre else TRK.FFE_L1_pre
def ffePost (lane : Nat) : Fld := if lane = 0 then TRK.FFE_L0_post else TRK.FFE_L1_post
def ffeMain (lane : Nat) : Fld := if lane = 0 then TRK.FFE_L0_main else TRK.FFE_L1_main

/-- A signed tap code with its magnitude bounded. -/
def clampTap (bound c : Nat) : Nat :=
  let i := signed 8 c
  unsigned 8 (if (bound : Int) < i then (bound : Int) else if i < -(bound : Int) then -(bound : Int) else i)

/-- A DFE word of four taps, tap 1 under its own bound (R44). -/
def State.dfeWord (s : State) (p : Port) (x v : Nat) : Nat :=
  let b := fun k => if x = 0 ∧ k = 0 then s.trkF p TRK.DFE_ENV_tap1_max else s.trkF p TRK.DFE_ENV_tapn_max
  sumNat ((List.range 4).map (fun k => clampTap (b k) (v / 256 ^ k % 256) * 256 ^ k))

def State.dfeSet (s : State) (p : Port) (lane x v : Nat) : State :=
  let f := if lane = 0 then TRK.DFE_L0_dfe_l0 x else TRK.DFE_L1_dfe_l1 x
  let w := s.dfeWord p x (v % 2 ^ 32)
  let s := s.setTrk p f w
  if w != v % 2 ^ 32 then s.eqPin p (dfePin lane) else s

/-- The main tap follows: 63 − pre − post (R43). -/
def State.ffeSet (s : State) (p : Port) (lane pre post : Nat) : State :=
  let mp := s.trkF p TRK.FFE_ENV_pre_max
  let mq := s.trkF p TRK.FFE_ENV_post_max
  let s := s.setTrk p (ffePre lane) (min pre mp)
  let s := s.setTrk p (ffePost lane) (min post mq)
  let s := s.setTrk p (ffeMain lane) (63 - min pre mp - min post mq)
  if mp < pre ∨ mq < post then s.eqPin p (ffePin lane) else s

/-- A write to CTLE_SET, DFE_Ln_x or FFE_Ln re-seeds the loop (R44). -/
def State.eqSetpoint (s : State) (p : Port) (off v : Nat) : State :=
  let lo := s.trkF p TRK.CTLE_ENV_ctle_min
  let hi := s.trkF p TRK.CTLE_ENV_ctle_max
  match off with
  | 0x94 => (s.eqSet p TRK.CTLE_SET_ctle_l0 (ctlePin 0) lo hi (bitsOf v 4 0)).eqSet p TRK.CTLE_SET_ctle_l1 (ctlePin 1) lo hi (bitsOf v 12 8)
  | 0x98 => s.dfeSet p 0 0 v
  | 0x9C => s.dfeSet p 0 1 v
  | 0xA0 => s.dfeSet p 0 2 v
  | 0xA4 => s.dfeSet p 1 0 v
  | 0xA8 => s.dfeSet p 1 1 v
  | 0xAC => s.dfeSet p 1 2 v
  | 0xB0 => s.ffeSet p 0 (bitsOf v 3 0) (bitsOf v 20 16)
  | 0xB4 => s.ffeSet p 1 (bitsOf v 3 0) (bitsOf v 20 16)
  | _ => s

/-- A write to an envelope (R44, R45): an inverted one is refused; a loop outside moves to the new bound and pins there. -/
def State.eqEnvelope (s : State) (p : Port) (off v : Nat) : State :=
  match off with
  | 0x88 =>
    let lo := bitsOf v 4 0
    let hi := bitsOf v 12 8
    if hi < lo then s.raise (Pg.trk p) TRK.ev_cfg_err
    else
      let s := (s.setTrk p TRK.CTLE_ENV_ctle_max hi).setTrk p TRK.CTLE_ENV_ctle_min lo
      let s := s.eqSet p TRK.CTLE_SET_ctle_l0 (ctlePin 0) lo hi (s.trkF p TRK.CTLE_SET_ctle_l0)
      s.eqSet p TRK.CTLE_SET_ctle_l1 (ctlePin 1) lo hi (s.trkF p TRK.CTLE_SET_ctle_l1)
  | 0x8C =>
    let s := (s.setTrk p TRK.DFE_ENV_tapn_max (bitsOf v 12 8)).setTrk p TRK.DFE_ENV_tap1_max (bitsOf v 5 0)
    s.each [0, 1, 2] (fun s x => (s.dfeSet p 0 x (s.trkF p (TRK.DFE_L0_dfe_l0 x))).dfeSet p 1 x (s.trkF p (TRK.DFE_L1_dfe_l1 x)))
  | 0x90 =>
    let s := (s.setTrk p TRK.FFE_ENV_post_max (bitsOf v 12 8)).setTrk p TRK.FFE_ENV_pre_max (bitsOf v 3 0)
    (s.ffeSet p 0 (s.trkF p (ffePre 0)) (s.trkF p (ffePost 0))).ffeSet p 1 (s.trkF p (ffePre 1)) (s.trkF p (ffePost 1))
  | _ => s

/-- The engine of a port writes the equaliser presets of its table for a mode and the port's medium, before TRAIN (R393): ctle, pre, post, the bounds of the CTLE, the bound of DFE tap 1. -/
def State.eqPreset (s : State) (p : Port) (mode : Nat) : State :=
  if s.rd (Pg.eng 0) (ENG.ENG_STAT_state (1 + Port.idx p)) != 2 then s
  else match (tblEntries s.eng.tbl 0x23 none).find? (fun e => byteAt e 0 = mode && byteAt e 1 = (s.trunk p).medium) with
    | none => s
    | some e =>
      let s := s.eqEnvelope p 0x88 (byteAt e 5 + 256 * byteAt e 6)
      let s := s.eqEnvelope p 0x8C (byteAt e 7 + 256 * s.trkF p TRK.DFE_ENV_tapn_max)
      let s := s.eqSetpoint p 0x94 (byteAt e 2 + 256 * byteAt e 2)
      (s.eqSetpoint p 0xB0 (byteAt e 3 + 65536 * byteAt e 4)).eqSetpoint p 0xB4 (byteAt e 3 + 65536 * byteAt e 4)

/-! ### Transmitters and beacons (R55, R56, R486) -/

/-- The port's medium is an optical module. -/
def State.optical (s : State) (p : Port) : Bool := (s.trunk p).medium = 2 || (s.trunk p).medium = 4

/-- The ball SB_TX of a port (R486). -/
def sbTxBall (p : Port) : String := if p = .tu then "TU_SBTX" else "TD_SBTX"

/-- The transmitters go on or off. With an optical module SB_TX drives transmit-disable: low while they are on, released (1) while they are off (R33, R55, R486). -/
def State.setTx (s : State) (p : Port) (on : Bool) : State :=
  if (s.trunk p).txOn = on then s
  else
    let s := s.setTrunk p { s.trunk p with txOn := on }
    if s.optical p then s.emit (.pin (sbTxBall p) (b2n (!on))) else s

/-- A beacon starts or stops (R56): a square wave of 161.13 MHz on L0 of a copper medium, continuous light of a module with its transmitter enabled. -/
def State.beaconOut (s : State) (p : Port) (on : Bool) : State :=
  if s.optical p then (if on then s.setTx p true else s).emit (.bay (Port.idx p) "trunk: continuous light" [b2n on])
  else s.emit (.bay (Port.idx p) "trunk: beacon on a pair" [b2n on, s.pairOf p 0])

/-! ### Walking through the states of R39 -/

/-- The port leaves its bring-up behind: no partner page, no selection, no training, no beacon; a snapshot serves the bring-up after a wake only (R42). -/
def State.clearBringUp (s : State) (p : Port) : State :=
  let s := if s.pst p = stBeacon then s.beaconOut p false else s
  let t := s.trunk p
  let s := s.setTrunk p { t with partner := none, sel := none, training := 0, trained := 0, p1Try := false, failWait := false, sbSeen := false, readyLanes := 0, isP1200 := false, serial := 0, beyond := 0, assigned := false, medium := 0, autoWin := false, snap := none }
  let s := s.setTrk p TRK.PORT_STAT_mode 0
  let s := s.setTrk p TRK.PORT_STAT_tx_lanes 0
  let s := s.setTrk p TRK.PORT_STAT_rx_lanes 0
  let s := (s.setTrk p TRK.LANE_STAT_flags_l0 0).setTrk p TRK.LANE_STAT_flags_l1 0
  s.setTrk p TRK.PORT_STAT_partner_allow 0

/-- The port is off: DISABLED, with its transmitters off. -/
def State.enterDisabled (s : State) (p : Port) : State := ((s.setTx p false).clearBringUp p).setPst p stDisabled

/-- Step 1 of R39: the port enters DETECT; a medium set outright is resolved at once, `auto` opens the window of R34. With media 5–7 it stays in
DISABLED and raises cfg_err (R61). -/
def State.enterDetect (s : State) (p : Port) : State :=
  let m := s.trkF p TRK.PORT_CFG_media
  let hold := s.on (Pg.trk p) TRK.PORT_CTL_hold_down
  if 5 ≤ m then (s.enterDisabled p).raise (Pg.trk p) TRK.ev_cfg_err
  else
    let s := if hold || m != (s.trunk p).medium then s.setTx p false else s
    let s := (s.clearBringUp p).setPst p stDetect
    if hold then s else (s.setTrunk p { s.trunk p with medium := m, autoWin := m = 0 }).setTx p true

/-- The port may leave DETECT: a medium is resolved and, on Type-C, attach and orientation are settled (R39 steps 2 and 3). -/
def State.mayNegotiate (s : State) (p : Port) : Bool :=
  s.pst p = stDetect && (s.trunk p).medium != 0 && !s.on (Pg.trk p) TRK.PORT_CTL_hold_down &&
    ((s.trunk p).medium != 3 || s.on (Pg.trk p) TRK.TTC_STAT_attached)

/-- The mode at which in-band negotiation trains (R39 step 5a): the lowest qualifying G mode of the medium set. -/
def State.inbandMode (s : State) (p : Port) : Nat :=
  let m := s.pageModes p
  if bitOf m 1 = 1 then mdG0 else if bitOf m 2 = 1 then mdG1 else if bitOf m 3 = 1 then mdG2 else 0

/-- Step 9c of R39: train_fail, the marks cleared, the 1 s wait. -/
def State.trainFail (s : State) (p : Port) : State :=
  let s := s.setPst p stNegotiate
  let s := s.setTrunk p { s.trunk p with failWait := true, p1Try := false, training := 0, sel := none }
  let s := s.setTrk p TRK.PORT_STAT_failed 0
  let s := s.bump (Pg.trk p) TRK.LINK_CNT_train_fails 1
  s.raise (Pg.trk p) TRK.ev_train_fail

/-- Step 9b of R39: the P1 attempt, where P1 is allowed and not marked failed, else step 9c. -/
def State.p1Start (s : State) (p : Port) : State :=
  if bitOf (s.pageModes p) 0 = 1 then
    let s := s.setPst p stNegotiate
    (s.setTrunk p { s.trunk p with p1Try := true, training := mdP1, sel := none }).emit (.training p 4 [])
  else s.trainFail p

/-- Step 5a of R39: in-band negotiation at the lowest qualifying mode, carrying the hop page in training frames. -/
def State.goInband (s : State) (p : Port) : State :=
  let s := s.setTrk p TRK.PORT_STAT_inband 1
  let s := s.setTrunk p { s.trunk p with inbandDue := false }
  let m := s.inbandMode p
  if m = 0 then s.p1Start p
  else ((s.setTrunk p { s.trunk p with training := m }).eqPreset p m).emit (.training p 1 ((s.pageBytes p).flatMap (leBytes 1)))

/-- Step 4 of R39: the port enters NEGOTIATE without a page of the partner, and goes in-band at once where it has no sideband (step 5a). -/
def State.enterNegotiate (s : State) (p : Port) : State :=
  let s := s.setPst p stNegotiate
  let s := s.setTrk p TRK.PORT_STAT_inband 0
  let s := (s.setTrk p TRK.PORT_STAT_fast 0).takeCfg p
  let t := s.trunk p
  let s := ((s.setTrunk p { t with failWait := false, p1Try := false, training := 0, trained := 0, sel := none, partner := none }).setTx p true).pageStep p
  if !s.sideband p || t.inbandDue then s.goInband p else s

/-- The port enters TRAIN at its selection (R39 step 8). -/
def State.enterTrain (s : State) (p : Port) (g : HopSel) : State :=
  let s := s.setPst p stTrain
  let s := (s.setTrunk p { s.trunk p with training := g.mode, sel := some g }).eqPreset p g.mode
  s.emit (.training p 3 (leBytes 1 g.mode))

/-- The port enters ALIGN (R39 step 10). -/
def State.enterAlign (s : State) (p : Port) : State := s.setPst p stAlign

/-- A mode is marked failed (R39). -/
def State.markFailed (s : State) (p : Port) (m : Nat) : State := s.setTrk p TRK.PORT_STAT_failed (s.trkF p TRK.PORT_STAT_failed ||| 2 ^ modeBit m)

/-- A mode that did not converge is marked failed; the port selects the next lower common mode, waits where a direction has no lane, or goes to step 9b where no G mode is
left (R39 step 9a, R40). A snapshot does not outlive its mode (R42). -/
def State.modeFailed (s : State) (p : Port) (m : Nat) : State :=
  let s := (s.markFailed p m).setPst p stNegotiate
  let s := (s.setTrunk p { s.trunk p with training := 0, sel := none, snap := none }).pageStep p
  if s.noMode p then s.p1Start p else s.selectAck p

/-! ### Lane sets -/

/-- The lane sets in use; fewer than the full set is DEGRADED (R47). -/
def State.setLanes (s : State) (p : Port) (tx rx : Nat) : State :=
  let s := (s.setTrk p TRK.PORT_STAT_tx_lanes tx).setTrk p TRK.PORT_STAT_rx_lanes rx
  let t := s.trunk p
  if s.pst p = stUp || s.pst p = stDegraded then s.setPst p (if tx = t.fullTx && rx = t.fullRx then stUp else stDegraded) else s

/-- Lane flags of LANE_STAT: bits 3 signal-detect, 2 lock, 1 align, 0 lost. -/
def laneFlags (lane : Nat) : Fld := if lane = 0 then TRK.LANE_STAT_flags_l0 else TRK.LANE_STAT_flags_l1

/-! ### Link up (R39 step 11, R67) -/

/-- The link layer is initialised: counts, credits and store start again, limits are granted (R67, R81, R128). -/
def State.linkInit (s : State) (p : Port) : State :=
  let carry := s.inUse (Port.idx p)
  let s := s.setLink p { up := true, carry := carry, startAt := s.now }
  let s := s.wr (Pg.lnk p) LNK.LNK_STAT_rtr_cause 0
  let s := s.wr (Pg.lnk p) LNK.RTT_rtt_ns 0
  let s := s.wr Pg.sch (SCH.CAL_STAT_pos (Port.idx p)) 0
  s.fitCredits

/-- HOP_STAT of a port (R422). -/
def hopStat (p : Port) : Fld := if p = .tu then LRD.HOP_STAT_tu else LRD.HOP_STAT_td

/-- The hop key exchange starts with KX_HELLO as the first sequenced cell (R418); a P1 hop and a hop with en = 0 are unprotected (R420). -/
def State.kxStart (s : State) (p : Port) : State :=
  if !s.on Pg.lrd LRD.HOP_CFG_en || s.trkF p TRK.PORT_STAT_mode = mdP1 then
    (s.setLink p { s.link p with kx := 3 }).wr Pg.lrd (hopStat p) 3
  else
    let (a, s) := s.draw 64
    let (b, s) := s.draw 64
    let kid := s.keyId
    let hello : List Byte := leBytes 1 (1 + (if kid.isEmpty then 0 else 2)) ++ [0, 0] ++ leBytes 8 s.devId ++ leBytes 8 a ++ leBytes 8 b ++ (if kid.isEmpty then [0, 0, 0, 0] else kid.take 4)
    let s := s.wr Pg.lrd (hopStat p) 1
    s.setLink p { s.link p with kx := 1, hello := hello, hopCtl := (s.link p).hopCtl ++ [leBytes 1 0x05 ++ hello] }

/-- A head's chain port reaches UP: enumeration starts unless the head takes the standby role by R107; after a sleep that it commanded the home sends REHOME (R120). A hub's TD port reaches UP after enumeration: TD_UP is owed (R98). -/
def State.chainUp (s : State) (p : Port) : State :=
  if s.mode = .head then
    let h := s.headChain (chainOf p)
    (if h.standby then s else if h.home && !h.asleep.isEmpty then s.takeChain (chainOf p) else s.enumStart (chainOf p))
  else if s.mode = .hub && s.homed && p = s.tdRole then { s with chain := { s.chain with tdUpDue := true } }
  else s

/-- Step 11 of R39, in the port's registers: UP with a selection, its lanes with signal, lock and alignment, link_up. The times of past RECOVERs stay over a link down, so that one in the
new mode within 60 s of two before the fall-back is a third (DESIGN CHOICE, log entry 126). -/
def State.linkRise (s : State) (p : Port) (g : HopSel) : State :=
  let s := s.setPst p stUp
  let s := s.setTrk p TRK.PORT_STAT_mode g.mode
  let s := s.setTrunk p { s.trunk p with fullTx := g.txl, fullRx := g.rxl, training := 0, p1Try := false, readyLanes := 0, snap := none, partnerSleep := 0, recTimes := (s.trunk p).recTimes }
  let s := s.setLanes p g.txl g.rxl
  let s := s.each [0, 1] (fun s k => s.setTrk p (laneFlags k) (if bitOf g.rxl k = 1 then 14 else 0))
  (s.setPst p stUp).raise (Pg.trk p) TRK.ev_link_up

/-- What a link up starts: E0 is informed, the link layer, the hop's key exchange, the link report, the chain. -/
def State.linkStart (s : State) (p : Port) : State :=
  let s := s.emit (.note "link_up to E0" [Port.idx p])
  let s := (s.linkInit p).kxStart p
  (s.linkReport p 1).chainUp p

def State.linkUp (s : State) (p : Port) (g : HopSel) : State := (s.linkRise p g).linkStart p

/-! ### Link down (R58, R59) -/

/-- PORT_CAUSE codes (R61). -/
def dnLos : Nat := 0x01
def dnLock : Nat := 0x02
def dnCcDetach : Nat := 0x03
def dnModuleLos : Nat := 0x04
def dnForced : Nat := 0x05
def dnPartner : Nat := 0x06
def dnRecover : Nat := 0x07
def dnFallback : Nat := 0x08
def dnLinkLayer : Nat := 0x09
def dnSleep : Nat := 0x0A
def dnSer : Nat := 0x0B

/-- The link layer of a port ends (R58): its replay store's buffers go to the Gleaner (R145), cells still in the ingress account lose their credit session. -/
def State.linkLayerDown (s : State) (p : Port) : State :=
  let l := s.link p
  let a := 2 + Port.idx p
  let lost := (l.store.filter (fun x => x.bid != 0)).map (fun x => (a, x.bid))
  let k := 0x1FFE + Port.idx p
  let old := fun (b : Buf) => if b.acct = Port.idx p then { b with pool := 6 } else b
  let s : State := { s with gran := { s.gran with
    staleRpl := s.gran.staleRpl ++ lost,
    incs := Tab.put k (((Tab.find k s.gran.incs).getD 0 + 1) % 16) s.gran.incs,
    queues := s.gran.queues.map (fun q => (q.1, q.2.map old)),
    rsqs := s.gran.rsqs.map (fun r => (r.1, { r.2 with held := r.2.held.map old })),
    waiting := s.gran.waiting.map (fun w => { w with buf := old w.buf }),
    stale := s.gran.stale.map (fun x => (x.1, x.2.1, old x.2.2)) } }
  let s := s.each l.macHeld (fun s _ => s.dischargeAcct (Port.idx p))
  let s := s.setLink p { txCount := l.txCount, rxCount := l.rxCount }
  let s := s.wr (Pg.lnk p) LNK.RTT_rtt_ns 0
  let s := s.wr Pg.lrd (hopStat p) 0
  let s := if (s.slot (hopSlot p)).valid then s.killKey (hopSlot p) else s
  s.fitCredits

/-- What a link down means to the chain (R98, R108). -/
def State.chainDown (s : State) (p : Port) (wasTu : Bool) : State :=
  let s := s.unbound p
  let s := s.setTrunk p { s.trunk p with below := false }
  if s.mode = .head then
    let c := chainOf p
    let s := s.hubsLost c 0
    let s := s.setHeadChain c { s.headChain c with waiting := false, standby := false, standbyId := 0, hbSeen := false, hbNow := false, missed := 0 }
    let s := if s.chain.reqChain = c + 1 then s.loseRequest else s
    ((s.wr Pg.chn (CHN.CHAIN_STAT_state c) 0).dirStats c).headRole
  else if s.mode = .hub && s.homed && wasTu then s.homeLoss 1
  else { s with chain := { s.chain with tdUpDue := if wasTu then s.chain.tdUpDue else false } }

/-- A link goes down (R58, R59), in the port's registers: cause and state recorded, link_down, DOWN for 1 ms. -/
def State.linkFall (s : State) (p : Port) (cause : Nat) : State :=
  let s := s.setTrk p TRK.PORT_CAUSE_state_at_down (s.pst p)
  let s := s.setTrk p TRK.PORT_CAUSE_cause cause
  let s := s.bump (Pg.trk p) TRK.LINK_CNT_downs 1
  let s := s.setPst p stDown
  let s := s.setTrk p TRK.PORT_STAT_mode 0
  let left := if cause = dnLock then 8 else if cause = dnSer then 14 else 0
  let s := s.each [0, 1] (fun s k => s.setTrk p (laneFlags k) (if bitOf (s.trkF p TRK.PORT_STAT_rx_lanes) k = 1 then left else 0))
  let s := (s.setTrk p TRK.PORT_STAT_tx_lanes 0).setTrk p TRK.PORT_STAT_rx_lanes 0
  let s := (s.setTrunk p { s.trunk p with sel := none, training := 0, recLink := false, readyLanes := 0 }).setTx p false
  s.raise (Pg.trk p) TRK.ev_link_down

/-- What a link down ends: the link layer, the port's queues (R128), and what it means to the chain (R108). -/
def State.linkStop (s : State) (p : Port) (wasTu : Bool) : State := ((s.linkLayerDown p).flushPort p).chainDown p wasTu

def State.linkDown (s : State) (p : Port) (cause : Nat) : State :=
  if !s.isUp p then s else (s.linkFall p cause).linkStop p (p = s.tuRole)

/-- A deliberate link down (R59): DOWN_NOTICE three times, or one hop control cell on a hop without a sideband, then the down. -/
def State.deliberateDown (s : State) (p : Port) (cause : Nat) : State :=
  if !s.isUp p then s
  else
    let s := if s.on (Pg.trk p) TRK.PORT_STAT_sb_up then ((s.sbSend p 7 [cause]).sbSend p 7 [cause]).sbSend p 7 [cause]
      else s.ctlOut p (leBytes 1 3 ++ leBytes 1 cause ++ [0, 0, 0])
    s.linkDown p cause

/-! ### RECOVER (R50, R51) -/

/-- A mode fall-back is due: auto_down, and this is the third RECOVER within 60 s (R51). -/
def State.fallbackDue (s : State) (p : Port) : Bool :=
  s.on (Pg.trk p) TRK.PORT_CFG_auto_down && 2 ≤ countWhere (fun t => s.now < t + 60000000000) (s.trunk p).recTimes

/-- The port enters RECOVER, or falls back (R50, R51); `link` when a link-layer request started it. -/
def State.startRecover (s : State) (p : Port) (link : Bool) : State :=
  if !(s.pst p = stUp || s.pst p = stDegraded) then s
  else
    let fall := s.fallbackDue p
    let t := s.trunk p
    let s := s.setTrunk p { t with recTimes := (s.now :: t.recTimes).take 3, recLink := link }
    let s := s.bump (Pg.trk p) TRK.LINK_CNT_recovers 1
    if fall then
      (s.markFailed p (s.trkF p TRK.PORT_STAT_mode)).deliberateDown p dnFallback
    else
      let s := s.setPst p stRecover
      let s := if s.on (Pg.trk p) TRK.PORT_STAT_sb_up then s.sbSend p 5 [1] else s
      s.emit (.training p 5 [])

/-- The link layer asks for a retrain (R75, R82): the request leaves in the next slot, its cause is recorded, RECOVER starts as soon as it has been sent. -/
def State.retrainReq (s : State) (p : Port) (cause : Nat) : State :=
  let s := s.wr (Pg.lnk p) LNK.LNK_STAT_rtr_cause cause
  s.setLink p { s.link p with owedRetrain := some cause, owedRs := none, replayAt := none }

end Sys2Proof.Machine
end

