-- ==== Sys2Proof/Machine/Link.lean ====
section
/-!
DEFINITION. Sys2Proof/Machine/Link.lean: the link layer of a trunk hop (R62–R78), its credits (R81–R83), P1 hops (R87–R90), hop keys and
hop MACs (R418–R420), forwarding (R126) with cut-through (R70, R129), and the slots of a trunk egress (R131).
-/
namespace Sys2Proof.Machine

open Sys2Proof

/-! ### Hop-local cells (R67) -/

/-- Local time as a ts carries it. -/
def State.ts (s : State) : Nat := s.now % 2 ^ 32

/-- A status block (R67). -/
def State.statusBlock (s : State) (p : Port) (nak rs : Bool) : List Byte :=
  let l := s.link p
  leBytes 4 (b2n nak * 2 ^ 31 + b2n rs * 2 ^ 30 + (l.rxCount + 4095) % 4096 * 4096 + (if rs then l.ackCount % 4096 else 0)) ++
  leBytes 4 s.ts ++ leBytes 4 (if l.heard then l.echo else 0) ++ leBytes 4 (if l.heard then serialDist 32 l.echoAt s.now else 0)

/-- The unit of credits on a hop: three forerunner credits for each native credit (R88). -/
def State.creditUnit (s : State) (p : Port) : Nat := if s.p1 p then 3 else 1

/-- A credit block (R67). -/
def State.creditBlock (s : State) (p : Port) : List Byte :=
  let r := (s.link p).returned
  let u := s.creditUnit p
  let lim := fun f => leBytes 2 (min 65535 (u * s.rd (Pg.lnk p) f))
  leBytes 2 r.m ++ leBytes 2 r.g ++ leBytes 2 r.t ++ leBytes 2 r.e ++ leBytes 2 r.ts ++ leBytes 2 r.es ++
  lim LNK.CRD_LIM0_m_lim ++ lim LNK.CRD_LIM0_g_lim ++ lim LNK.CRD_LIM1_t_lim ++ lim LNK.CRD_LIM1_e_lim ++ lim LNK.CRD_LIM2_sh_lim ++ List.replicate 10 0

/-- A hop-local cell leaves (R64, R67). -/
def State.sendLocal (s : State) (p : Port) (ctype : Nat) (body : List Byte) : State :=
  s.wireOut p (if s.p1 p then
      ({ ptype := ctype, pcls := 0, dhub := 0, dport := 0, shub := 0, sport := 0, chan := 0, lseq := 0, cseq := 0, plen := body.length, data := body } : FCell).bytes
    else (({ ctype := ctype, payload := body } : Cell).seal).bytes)

/-- A fill cell leaves (R67). -/
def State.sendFill (s : State) (p : Port) : State := s.sendLocal p 0 (s.statusBlock p false false ++ s.creditBlock p)

/-- An ack/nak cell leaves; a nak is counted (R73). -/
def State.sendStatus (s : State) (p : Port) (rs : Bool) : State :=
  let nak := (s.link p).owedNak
  let s := s.sendLocal p 9 (s.statusBlock p nak rs)
  if nak then
    let s := s.setLink p { s.link p with owedNak := false }
    (s.bump (Pg.lnk p) LNK.LNK_CNT1_naks_tx 1).raise (Pg.lnk p) LNK.ev_nak_tx
  else s

/-! ### Credits (R81, R82, R88) -/

/-- Credits of a pool in use, from two cumulative counts. -/
def usedOf (sent back : Nat) : Nat := serialDist 16 back sent

/-- The charge of a cell of a class that costs `n` credits (R82): its private pool first; T and E the shared pool when that is empty. Every forerunner credit of a P1 hop is drawn
by itself (R88). -/
def pickPool (cls n : Nat) (sent back : Pools) (lim : Limits) : Option Nat :=
  let two := fun (own room : Nat) =>
    let a := min n (room - own)
    let sh := usedOf sent.ts back.ts + usedOf sent.es back.es
    if a = n || sh + (n - a) ≤ lim.sh then some (chargeCode cls a (n - a)) else none
  match cls with
  | 0 => if usedOf sent.m back.m + n ≤ lim.m then some (chargeCode 0 n 0) else none
  | 1 => if usedOf sent.g back.g + n ≤ lim.g then some (chargeCode 1 n 0) else none
  | 2 => two (usedOf sent.t back.t) lim.t
  | _ => two (usedOf sent.e back.e) lim.e

/-- The pool from which a port can send a cell now. -/
def State.txPool (s : State) (p : Port) (c : Cell) : Option Nat :=
  pickPool c.cls (s.wireCost p c) (s.link p).sent (s.link p).pReturned (s.link p).pLimits

/-- The pool to which a receiver charges an arriving cell, by the same rule from its own counts (R82). -/
def State.rxPool (s : State) (p : Port) (cls n : Nat) : Option Nat :=
  let l := s.link p
  let u := s.creditUnit p
  pickPool cls n l.rcvd l.returned { m := u * l.granted.m, g := u * l.granted.g, t := u * l.granted.t, e := u * l.granted.e, sh := u * l.granted.sh }

/-! ### Sequenced cells out (R73, R419) -/

/-- The direction byte d of R418 and R419: 0 for the end with the lower device ID. -/
def State.ownD (s : State) (p : Port) : Byte := if s.devId < numAt (s.link p).peerHello 3 8 then 0 else 1
def State.peerD (s : State) (p : Port) : Byte := if s.devId < numAt (s.link p).peerHello 3 8 then 1 else 0

/-- The tag of a covered cell (R419). -/
def hopTag (key : List Byte) (d : Byte) (count : Nat) (body : List Byte) : List Byte := (hmac key (d :: leBytes 4 count ++ body.take 276)).take 16

/-- The payload of a HOP_MAC (R419). -/
def State.macPayload (s : State) (p : Port) (n : Nat) (body : List Byte) (void : Bool) : List Byte :=
  leBytes 1 0x07 ++ leBytes 1 (b2n void) ++ [0, 0] ++ leBytes 4 n ++ hopTag (s.keyValue (hopSlot p)) (s.ownD p) n body

/-- A covered cell that has left owes its tag (R419). -/
def State.oweMac (s : State) (p : Port) (n : Nat) (c : Cell) : State :=
  if (s.link p).kx = 2 && c.cls = clsM && !c.hopCtl then
    s.setLink p { s.link p with macTx := (s.link p).macTx ++ [(n, ({ c with lseq := n % 4096 } : Cell).body, false)] }
  else s

/-! ### The slots of a trunk egress (R131, R157) -/

/-- The calendar of a port. -/
def State.calOf (s : State) (p : Port) : List CalEnt := match p with
  | .tu => s.sched.cal.tu
  | .td => s.sched.cal.td

/-- The tunnel that holds a position of a calendar (R157). -/
def calTunnel (l : List CalEnt) (pos : Nat) : Option Nat :=
  (l.find? (fun e => e.o ≤ pos && (pos - e.o) % 2 ^ e.p = 0)).map (·.tunnel)

/-- The weight of T (0) or E (1) (R131). -/
def State.drrWeight (s : State) (k : Nat) : Nat := s.rd1 Pg.swc (if k = 0 then SWC.SWC_CFG_t_wt else SWC.SWC_CFG_e_wt)

/-- The deficit counter of T (0) or E (1) at an egress, in cells; T has the first turn. -/
def State.drrLeft (s : State) (code k : Nat) : Int := (Tab.find (2 * code + k) s.gran.deficit).getD (if k = 0 then s.drrWeight 0 else 0)

/-- Turns pass until the class whose turn it is has cells and a deficit above 0; a class gets its weight as its turn comes, and loses its deficit when it has no cell (structural on
the turns). The counters are those of T and of E, `k` has the turn. -/
def drrTurn (w : Nat → Nat) (t e : Bool) : Nat → Nat → Int → Int → Nat × Int × Int
  | 0, k, a, b => (k, a, b)
  | n + 1, k, a, b =>
    if k = 0 then (if t && 0 < a then (0, a, b) else drrTurn w t e n 1 (if t then a else 0) ((if e then b else 0) + w 1))
    else (if e && 0 < b then (1, a, b) else drrTurn w t e n 0 ((if t then a else 0) + w 0) (if e then b else 0))

/-- Deficit round robin between T and E in cells (R131): which is served next, when one of them has cells, and the counters then. -/
def State.drrPick (s : State) (code : Nat) (t e : Bool) : Option (Nat × State) :=
  if !t && !e then none
  else
    let a := s.drrLeft code 0
    let b := s.drrLeft code 1
    let r := drrTurn s.drrWeight t e (2 * (a.natAbs + b.natAbs) + 3) ((Tab.find code s.gran.turn).getD 0) a b
    some (r.1, { s with gran := { s.gran with deficit := Tab.put (2 * code + 1) r.2.2 (Tab.put (2 * code) r.2.1 s.gran.deficit), turn := Tab.put code r.1 s.gran.turn } })

/-- T (0) or E (1) is served `n` cells: its deficit falls, below 0 where a packet is longer than what was left. -/
def State.drrTake (s : State) (code k n : Nat) : State :=
  { s with gran := { s.gran with deficit := Tab.put (2 * code + k) (s.drrLeft code k - n) s.gran.deficit } }

/-- The head of a queue can leave by a port: the queue runs and a credit is there. -/
def State.canSend (s : State) (p : Port) (q : Nat) : Bool :=
  !s.gran.stopped.contains q && (match (s.queue q).head? with
    | some b => (s.txPool p b.cell).isSome
    | none => false)

/-- The G queue that the current slot of a port belongs to, when it can send. -/
def State.slotTunnel (s : State) (p : Port) : Option Nat :=
  match calTunnel (s.calOf p) (s.calPos p) with
  | some t => if s.canSend p t then some t else none
  | none => none

/-- A dying gasp of this part stands at the front of a port's M queue and can leave: it goes ahead of every queued cell (R116). -/
def State.gaspWaits (s : State) (p : Port) : Bool :=
  let q := classQ (Port.idx p) clsM
  s.canSend p q && (match (s.queue q).head? with
    | some b => ownGasp b.cell
    | none => false)

/-- The queue that the current slot of a port serves (R131), with the state of the round robin. -/
def State.pickQueue (s : State) (p : Port) : Option (Nat × State) :=
  let code := Port.idx p
  match s.slotTunnel p with
  | some t => some (if s.gaspWaits p then classQ code clsM else t, s)
  | none =>
    if s.canSend p (classQ code clsM) then some (classQ code clsM, s)
    else if s.canSend p (classQ code clsG) then some (classQ code clsG, s)
    else match s.drrPick code (s.canSend p (classQ code clsT)) (s.canSend p (classQ code clsE)) with
      | some (k, s) => some (classQ code (2 + k), s.drrTake code k 1)
      | none => none

/-- The bin of a queue wait in µs (R176). -/
def waitBin (us : Nat) : Nat :=
  if us < 1 then 0 else if us < 2 then 1 else if us < 4 then 2 else if us < 8 then 3 else if us < 16 then 4 else if us < 32 then 5 else if us < 64 then 6 else 7

/-- A T or E cell leaves its queue at an egress: its wait is counted (R176). -/
def State.countWait (s : State) (code : Nat) (b : Buf) : State :=
  if b.cell.cls = clsT || b.cell.cls = clsE then
    s.bump (Pg.wait code (b.cell.cls - 2)) (WAITX.bin (waitBin (serialDist 32 b.arrival s.chain.time / 1000))) 1
  else s

/-- What SECDED finds as a cell is read (R144). -/
def State.readEcc (s : State) (e : Ecc) (c : Cell) : Cell × State := match e with
  | .good => (c, s)
  | .corrected => (c, (s.bump Pg.grn GRN.ECC_CNT_corr 1).raise Pg.grn GRN.ev_ecc_corr c.ctx)
  | .bad => ({ c with psn := true }, (s.bump Pg.grn GRN.ECC_CNT_unc 1).raise Pg.grn GRN.ev_ecc_unc c.ctx)

/-- A header error at a port (R65, R90, R94, R95). -/
def State.hdrErr (s : State) (p : Port) (c : Cell) : State := (s.bump (Pg.lnk p) LNK.LNK_CNT3_hdr_err 1).raise (Pg.lnk p) LNK.ev_hdr_err c.ctx

/-- A time cell of this part takes the chain time at which it leaves (R101). -/
def State.stamped (s : State) (c : Cell) : Cell :=
  if c.ctype = 0xC && c.tunnel = 3 && c.hops = 1 then ({ c with payload := leBytes 8 s.chain.time ++ c.payload.drop 8 } : Cell).seal else c

/-- A cell has a form on the hop of a port: to a P1200 a poisoned cell and the types 0xB, 0xC and 0xF have none (R90). -/
def State.hasForm (s : State) (p : Port) (c : Cell) : Bool :=
  !(s.p1 p && s.forP1200 p c && (c.psn || c.ctype = 0xB || c.ctype = 0xC || c.ctype = 0xF))

/-- The head of a queue leaves by a port (R70 steps 3 and 4, R133): its credit is spent, its buffer becomes the replay store. `mac` says that its
tag is owed at once. -/
def State.sendHead (s : State) (p : Port) (q : Nat) (e : Ecc) (mac : Bool) : State :=
  match s.queue q with
  | [] => s
  | b :: rest =>
    let s := s.setQueue q rest
    let (c, s) := s.readEcc e b.cell
    let c := s.stamped { c with hops := (c.hops + 1) % 64 }
    if !s.hasForm p c then (s.release b).hdrErr p c
    else
      match s.txPool p c with
      | none => s.setQueue q (b :: rest)
      | some k =>
        let n := (s.link p).txCount
        let s := s.setLink p { s.link p with sent := (s.link p).sent.charge k }
        let s := (s.count (Port.idx p) 1).countWait (Port.idx p) b
        let s := s.moveRef b (some (2 + Port.idx p))
        let s := s.seqOut p c b.bid
        if mac then s.oweMac p n c else s

/-- An owed HOP_MAC leaves (R419). -/
def State.macOut (s : State) (p : Port) (n : Nat) (body : List Byte) (void : Bool) : State := s.ctlOut p (s.macPayload p n body void)

/-- A cell from a queue, a hop control cell or a fill cell fills the slot (R131, R419). The rules say when a fill cell leaves, which carries a credit block, and not when a credit cell
does: the port sends none here (DESIGN CHOICE, log entry 129). -/
def State.fillSlot (s : State) (p : Port) (e : Ecc) : State :=
  match (if s.gaspWaits p then some (classQ (Port.idx p) clsM) else s.slotTunnel p) with
  | some q => s.sendHead p q e true
  | none =>
    let l := s.link p
    match l.macTx, l.hopCtl with
    | (n, body, void) :: rest, _ => (s.setLink p { l with macTx := rest }).macOut p n body void
    | [], x :: rest => (s.setLink p { l with hopCtl := rest }).ctlOut p x
    | [], [] => match s.pickQueue p with
      | some (q, s) => s.sendHead p q e true
      | none => s.sendFill p

/-- A stored cell goes out again changed (a new t_tx, poison): so it stands in the replay store from then on, and on a keyed hop its tag follows it (R101, R144, R419). -/
def State.storeAgain (s : State) (p : Port) (x : Sent) (c : Cell) : State :=
  if c = x.cell then s
  else
    let l := s.link p
    let body := ({ c with lseq := x.count % 4096 } : Cell).body
    let isTag := fun (y : Sent) => y.cell.hopCtl && numAt y.cell.payload 0 1 = 0x07 && numAt y.cell.payload 4 4 = x.count
    s.setLink p { l with
      store := l.store.map (fun y => if y.count = x.count then { y with cell := c }
        else if isTag y then { y with cell := ctlCell (s.macPayload p x.count body (bitOf (numAt y.cell.payload 1 1) 0 = 1)) } else y)
      macTx := l.macTx.map (fun m => if m.1 = x.count then (m.1, body, m.2.2) else m) }

/-- The next cell of a running replay leaves, from the count on that is not acknowledged (R75): read from its buffer (R144), with its time anew (R101). -/
def State.replayOne (s : State) (p : Port) (n : Nat) (e : Ecc) : State :=
  let l := s.link p
  match l.store.find? (fun x => n < x.count + s.sentCost p x) with
  | none => (s.setLink p { l with replayAt := none }).fillSlot p e
  | some x =>
    let (c, s) := if x.bid = 0 then (x.cell, s) else s.readEcc e x.cell
    let c := s.stamped c
    let s := s.storeAgain p x c
    let next := x.count + s.sentCost p x
    let forms := ((s.wireForms p c x.count).take (s.sentCost p x)).drop (n - x.count)
    let s := s.setLink p { s.link p with replayAt := if next < l.txCount then some next else none }
    s.each forms (fun s b => s.wireOut p b)

/-- The forerunner cell times that are left of a slot of a P1 hop (R91), at most `k`: E cells that fit into them, while no replay is due, or else idle cells. Such an E cell takes no
turn of the round robin (DESIGN CHOICE, log entry 130). -/
def State.slotRest (p : Port) (e : Ecc) : Nat → State → State
  | 0, s => s
  | k + 1, s =>
    let l := s.link p
    if l.third = 0 then s
    else
      let q := classQ (Port.idx p) clsE
      let fits := match (s.queue q).head? with
        | some b => decide (s.wireCost p b.cell + l.third ≤ 3) && s.hasForm p b.cell
        | none => false
      let due := l.owedRs.isSome || l.owedNak || l.owedRetrain.isSome || l.replayAt.isSome
      State.slotRest p e k (if fits && !due && s.canSend p q then s.sendHead p q e true else s.sendFill p)

/-- The port sends in its slots (R131): the link is up and not in RECOVER. -/
def State.hopRuns (s : State) (p : Port) : Bool := (s.pst p = stUp || s.pst p = stDegraded) && (s.link p).up

/-- One slot of a trunk egress (R75, R131): a retrain request first, then a replay's status block, a nak, the replay, and new cells. A slot in which a cell was discarded at its start
carries a fill cell. -/
def State.slot1 (s : State) (p : Port) (e : Ecc) : State :=
  if !s.hopRuns p then s
  else
    let l := s.link p
    let t := match l.owedRetrain, l.owedRs, l.owedNak, l.replayAt with
      | some cause, _, _, _ =>
        let s := s.setLink p { l with owedRetrain := none, owedRs := none, replayAt := none }
        (s.ctlOut p (leBytes 1 0x04 ++ leBytes 1 cause ++ [0, 0, 0])).startRecover p true
      | none, some _, _, _ =>
        let s := s.setLink p { l with owedRs := none, replayAt := if l.store.isEmpty then none else some l.ackCount }
        s.sendStatus p true
      | none, none, true, _ => s.sendStatus p false
      | none, none, false, some n => s.replayOne p n e
      | none, none, false, none => s.fillSlot p e
    let t := if t.hopRuns p && t.calPos p = s.calPos p && (t.link p).third = l.third then t.sendFill p else t
    if t.hopRuns p then State.slotRest p e 2 t else t

def execSlotTransmit (p : Port) (e : Ecc) (s : State) : Host.Outcome State Fault Refusal := s.run (fun s => s.slot1 p e)

/-! ### Forwarding (R126, R129) -/

/-- What a cell on a standby or boundary hop may be (R94). -/
def standbyAdmits (c : Cell) : Bool :=
  c.cls = clsM && ((c.dhub = 63 && (c.tunnel = 1 || c.tunnel = 3)) ||
  (c.tunnel = 2 && c.ctype = 0xA && ((ccCode c = 0x1A && c.dhub = 0) || (c.dhub = 63 && (ccCode c = 0x17 || ccCode c = 0x18 || ccCode c = 0x19)))))

/-- A cell is a chain-control cell of a code (R95). -/
def isChain (c : Cell) (code : Nat) : Bool := c.ctype = 0xA && (c.tunnel = 1 || c.tunnel = 2) && ccCode c = code

/-- The part holds a cell's destination address on the chain of a port. -/
def State.isMine (s : State) (p : Port) (c : Cell) : Bool :=
  if s.mode = .head then c.dhub = 0 && (s.headChain (chainOf p)).home else c.dhub = s.addr && s.addr != 63

/-- A cell toward the part's own home came from beyond a port: a hub of that home lies there (R110, log entry 146). -/
def State.noteBelow (s : State) (p : Port) (c : Cell) : State :=
  if s.mode = .hub && s.homed && p = s.tdRole && c.dhub = 0 && !(s.trunk p).below then s.setTrunk p { s.trunk p with below := true } else s

/-- The trunk port to which the decision of R126 sends a cell that arrived on a port, if it names one. -/
def State.transitPort (s : State) (p : Port) (c : Cell) : Option Port :=
  if s.standbyHop p && !standbyAdmits c then none
  else if s.mode != .head && s.addr = 63 && !(isChain c 0x10 || isChain c 0x15) then none
  else if s.isMine p c then none
  else if c.dhub = 63 then
    (if s.mode = .head || !s.routed (Port.other p) || (isChain c 0x10 && s.homeless) then none else some (Port.other p))
  else if s.mode = .head then none
  else some (if s.addr < c.dhub then s.tdRole else s.tuRole)

/-- A cell that is discarded as it enters: its buffer is freed and its credit returns. -/
def State.dropRx (s : State) (b : Buf) : State := s.release b

/-- A cell that the link layer hands over goes where R126 sends it. `cut` says that it starts on the trunk egress at once (R129). -/
def State.forward (s : State) (p : Port) (b : Buf) (cut mac : Bool) : State :=
  let c := b.cell
  let half := s.halfOfPort p
  let src := Port.idx p
  let s := s.noteBelow p c
  if s.standbyHop p && !standbyAdmits c then (s.dropRx b).hdrErr p c
  else if s.mode != .head && s.addr = 63 && !(isChain c 0x10 || isChain c 0x15) then s.dropRx b
  else if s.isMine p c then
    if s.badPort c then (s.dropRx b).hdrErr p c
    else if !s.entryOk half c then (s.dropRx b).noEntry
    else match s.localCode half c with
      | none => (s.dropRx b).hdrErr p c
      | some code => s.takeCell ⟨code, src, half, code + 2, b⟩
  else if s.mode = .head && c.dhub != 63 then (s.dropRx b).hdrErr p c
  else
    let s := match s.transitPort p c with
      | none => s
      | some o =>
        let s := if s.on (Pg.lnk .tu) LNK.RSQ_CFG_transit_chk && c.e2e != c.e2eCalc then
            (s.bump (Pg.lnk p) LNK.LNK_CNT3_e2e_transit 1).raise (Pg.lnk p) LNK.ev_e2e_transit c.ctx else s
        if !s.routed o then s
        else if cut then (s.setQueue (s.trunkQueue o c) [b]).count (Port.idx o) 2
        else
          let (c, s) := s.poisonBroken c
          s.takeCell ⟨Port.idx o, src, half, 15, { b with cell := c }⟩
    let s := if c.dhub = 63 then s.takeCell ⟨6, src, half, 8, b⟩ else s
    if cut then match s.transitPort p c with
      | some o => State.slotRest o .good 2 (s.sendHead o (s.trunkQueue o c) .good mac)
      | none => s
    else if c.dhub = 63 then s
    else match s.transitPort p c with
      | some o => if s.routed o then s else ((s.dropRx b).count src 6).raise Pg.swc SWC.ev_no_route c.ctx
      | none => s.dropRx b

/-- The egress by which an arriving cell cuts through (R129): the queue it would join is empty, the slot may carry it, a credit is there. -/
def State.cutThrough (s : State) (p : Port) (c : Cell) : Option Port :=
  match s.transitPort p c with
  | none => none
  | some o =>
    let l := s.link o
    let q := s.trunkQueue o c
    let lanes := fun (f : Fld) (x : Port) => rateTenths (s.trkF x TRK.PORT_STAT_mode) (s.trkF x f)
    if o = p || !s.on Pg.swc (if o = .tu then SWC.SWC_CFG_cut_tu else SWC.SWC_CFG_cut_td) then none
    else if lanes TRK.PORT_STAT_rx_lanes p < lanes TRK.PORT_STAT_tx_lanes o then none
    else if !s.hopRuns o || !(s.queue q).isEmpty || s.gran.stopped.contains q || !s.hasForm o c then none
    else if l.owedRetrain.isSome || l.owedRs.isSome || l.owedNak || l.replayAt.isSome || !l.macTx.isEmpty || !l.hopCtl.isEmpty || l.third != 0 then none
    else if s.gran.waiting.any (fun w => w.code = Port.idx o) || s.brokenStream c || s.eDropped (Port.idx o) q c then none
    else match (s.setQueue q [⟨0, { c with hops := c.hops + 1 }, 15, 6, false, 0, Port.idx p⟩]).pickQueue o with
      | some (r, _) => if r = q then some o else none
      | none => none

/-- A cell that started on an egress before its incoming check failed ends with the abort marker (R70 step 6b, R78): it takes no link count. On a P1 hop, which has no marker, the
forerunner cells before the last have left and stand in the replay store, and the last ends with its CRC inverted (DESIGN CHOICE, log entry 131). -/
def State.abortOut (s : State) (o : Port) (c : Cell) : State :=
  let c : Cell := { c with hops := (c.hops + 1) % 64 }
  let l := s.link o
  let n := l.txCount
  let s := s.count (Port.idx o) 2
  if s.p1 o then
    let forms := s.wireForms o c n
    let k := forms.length - 1
    let s := match (if k = 0 then none else pickPool c.cls k l.sent l.pReturned l.pLimits) with
      | some x => (s.setLink o { l with txCount := n + k, sent := l.sent.charge x, store := l.store ++ [({ count := n, cell := c, bid := 0, part := some k } : Sent)] }).bump (Pg.lnk o) LNK.LNK_CNT4_cells_tx k
      | none => s
    let spoil := fun (b : List Byte) => b.take 124 ++ (b.drop 124).map (· ^^^ 0xFF)
    let s := s.each (forms.take k) (fun s b => s.wireOut o b)
    State.slotRest o .good 2 (s.each ((forms.drop k).map spoil) (fun s b => s.wireOut o b))
  else s.wireOut o (({ c with lseq := n % 4096 } : Cell).abortBytes)

/-! ### Hop control cells in (R47, R55, R59, R66, R75, R418, R419) -/

/-- The exchange of a port ends: keyed (2) or unprotected (3); an ENUM_REPLY that waited for it leaves (R96 step 5, R418). -/
def State.kxEnd (s : State) (p : Port) (how : Nat) : State :=
  let s := s.setLink p { s.link p with kx := how }
  let s := s.wr Pg.lrd (hopStat p) how
  let s := if how = 3 then s.raise Pg.lrd LRD.ev_hop_unprot else s
  match s.chain.replyDue with
  | some n => if p = s.tuRole && s.homed then s.sendReply 0x11 n else s
  | none => s

/-- The two hellos of a port, the lower device ID's first (R418). -/
def State.hellos (s : State) (p : Port) : List Byte × List Byte :=
  let l := s.link p
  if s.ownD p = 0 then (l.hello, l.peerHello) else (l.peerHello, l.hello)

/-- The 16 bytes of a KX_CONFIRM (R418). -/
def State.confirmTag (s : State) (p : Port) (d : Byte) : List Byte :=
  let h := s.hellos p
  (hmac (s.keyValue (hopSlot p)) (ascii "CONF" ++ [d] ++ (h.1.drop 3).take 28 ++ (h.2.drop 3).take 28)).take 16

/-- A partner's KX_HELLO, its payload from byte 0 (R418). -/
def State.kxHello (s : State) (p : Port) (l : List Byte) : State :=
  if (s.link p).kx != 1 then s
  else
    let s := s.setLink p { s.link p with peerHello := (l.drop 1).take 31 }
    let x := s.link p
    let flags := numAt x.peerHello 0 1
    if flags % 4 = 3 && s.keyOk 10 && (x.peerHello.drop 27).take 4 = s.keyId then
      let h := s.hellos p
      let s := s.deriveInto (hopSlot p) 10 0 (ascii "HOPK") ((h.1.drop 3).take 8 ++ (h.2.drop 3).take 8 ++ (h.1.drop 11).take 16 ++ (h.2.drop 11).take 16)
      s.setLink p { s.link p with hopCtl := (s.link p).hopCtl ++ [[0x06, 0, 0, 0] ++ s.confirmTag p (s.ownD p)] }
    else s.kxEnd p 3

/-- A partner's KX_CONFIRM (R418). -/
def State.kxConfirm (s : State) (p : Port) (l : List Byte) : State :=
  if (s.link p).kx != 1 || !s.keyOk (hopSlot p) then s
  else if (l.drop 4).take 16 = s.confirmTag p (s.peerD p) then s.kxEnd p 2
  else s.kxEnd p 3

def State.kxTimeout (s : State) (p : Port) : State := if (s.link p).kx = 1 then s.kxEnd p 3 else s

/-- A covered cell that is discarded for its tag (R419). -/
def State.macFail (s : State) (c : Cell) : State := (s.bump Pg.lrd LRD.LRD_CNT1_mac_fail 1).raise Pg.lrd LRD.ev_mac_fail c.ctx

/-- The buffer of a covered cell that leaves its hold. -/
def State.heldBuf (s : State) (p : Port) (body : List Byte) (pool : Nat) : Buf × State :=
  let (n, s) := s.newBid
  (⟨n, cellOf body, Port.idx p, pool, false, s.chain.time % 2 ^ 32, Port.idx p⟩, s)

/-- The tag of a covered cell is settled, good or bad (R419): a held cell is delivered or discarded, a cell cut through owes its own tag or a void one. -/
def State.macSettle (s : State) (p : Port) (n : Nat) (good : Bool) : State :=
  let l := s.link p
  let cut := l.macCut.filter (fun x => x.1 = n)
  let held := l.macHeld.filter (fun x => x.1 = n)
  let s := s.setLink p { l with macCut := l.macCut.filter (fun x => x.1 != n), macHeld := l.macHeld.filter (fun x => x.1 != n) }
  let o := Port.other p
  let s := s.each cut (fun s x => if (s.link o).kx = 2 then s.setLink o { s.link o with macTx := (s.link o).macTx ++ [(x.2.1, x.2.2, !good)] } else s)
  s.each held (fun s x =>
    let (b, s) := s.heldBuf p x.2.1 x.2.2
    if good then s.forward p b false true else (s.dropRx b).macFail b.cell)

/-- A HOP_MAC arrives, its payload from byte 0 (R419). -/
def State.hopMac (s : State) (p : Port) (l : List Byte) : State :=
  let n := numAt l 4 4
  let x := s.link p
  let body := match x.macHeld.find? (fun y => y.1 = n) with
    | some y => some y.2.1
    | none => (x.macCut.find? (fun y => y.1 = n)).map (fun y => y.2.2)
  match body with
  | none => s
  | some b =>
    let void := bitOf (numAt l 1 1) 0 = 1
    let held := (x.macHeld.any (fun y => y.1 = n))
    let good := !void && (l.drop 8).take 16 = hopTag (s.keyValue (hopSlot p)) (s.peerD p) n b
    let s := s.macSettle p n good
    if !good && !held then s.macFail (cellOf b) else s

/-- No tag came in time for the oldest covered cell (R419). -/
def State.hopMacTimeout (s : State) (p : Port) : State :=
  let l := s.link p
  match (l.macHeld.map (·.1) ++ l.macCut.map (·.1)).min? with
  | some n => s.macSettle p n false
  | none => s

/-- A RETRAIN_REQ arrives with its cause (R75): recorded, and acted on unless a RECOVER has just been. -/
def State.retrainRx (s : State) (p : Port) (cause : Nat) : State :=
  let s := s.wr (Pg.lnk p) LNK.LNK_STAT_rtr_cause cause
  if (s.link p).sinceRecover then s else s.startRecover p true

/-- The lane sets that a LANE_NOTICE reports (R47). -/
def State.laneNoticeIn (s : State) (p : Port) (inUse lost : Nat) : State :=
  if !s.isUp p then s
  else
    let tx := inUse &&& (s.trunk p).fullTx
    if tx = 0 || tx = s.trkF p TRK.PORT_STAT_tx_lanes then s
    else (s.setLanes p tx (s.trkF p TRK.PORT_STAT_rx_lanes)).linkReport p (if lost = 0xFF then 4 else 2)

/-- A hop control cell is consumed by its code (R66, R418). -/
def State.hopControl (s : State) (p : Port) (l : List Byte) : State :=
  match numAt l 0 1 with
  | 0x01 => s.laneNoticeIn p (numAt l 1 1) (numAt l 2 1)
  | 0x02 => s.setTrunk p { s.trunk p with partnerSleep := numAt l 1 1 }
  | 0x03 => s.linkDown p dnPartner
  | 0x04 => s.retrainRx p (numAt l 1 1)
  | 0x05 => s.kxHello p l
  | 0x06 => s.kxConfirm p l
  | 0x07 => s.hopMac p l
  | _ => s

/-! ### Status and credit blocks in (R67, R73–R75, R82) -/

/-- The consecutive replays from one count, with the one that starts now (R75). -/
def Link.replayNext (l : Link) : Nat := if l.replayN != 0 && l.replayBase = l.ackCount then l.replayN + 1 else 1

/-- A replay starts: it is counted and its status block owed (R75). -/
def State.countReplay (s : State) (p : Port) : State :=
  let l := s.link p
  let s := s.setLink p { l with replayN := l.replayNext, replayBase := l.ackCount, owedRs := some l.ackCount, replayAt := none }
  (s.bump (Pg.lnk p) LNK.LNK_CNT2_replays 1).raise (Pg.lnk p) LNK.ev_replay

/-- A replay starts, or a retrain request in its place after replay_max replays from one count (R75). -/
def State.startReplay (s : State) (p : Port) : State :=
  if s.rd1 (Pg.lnk p) LNK.LNK_CFG_replay_max < (s.link p).replayNext then (s.raise (Pg.lnk p) LNK.ev_replay_limit).retrainReq p 1
  else s.countReplay p

/-- An acknowledgement up to a count releases the buffers behind it (R74, R133). -/
def State.ackTo (s : State) (p : Port) (n : Nat) : State :=
  let l := s.link p
  let done := l.store.filter (fun x => x.count + s.sentCost p x ≤ n)
  let at' := match l.replayAt with
    | some k => if n < l.txCount then some (max k n) else none
    | none => none
  let kept := l.store.filter (fun x => n < x.count + s.sentCost p x)
  let s := s.setLink p { l with ackCount := n, sinceRecover := if l.ackCount < n then false else l.sinceRecover, store := kept, replayAt := at' }
  s.each (done.filter (fun x => x.bid != 0)) (fun s x => s.release ⟨x.bid, x.cell, 2 + Port.idx p, 6, false, 0, 15⟩)

/-- The replay start that a status block names (R73). -/
def State.replayStart (s : State) (p : Port) (rs : Nat) : State :=
  let l := s.link p
  if !l.replayWait then s
  else
    let d := serialDist 12 l.rxCount rs
    if d = 0 then s.setLink p { l with replayWait := false, replayRx := none }
    else if 2048 < d then s.setLink p { l with replayWait := false, replayRx := some (l.rxCount - (4096 - d)) }
    else s.retrainReq p 0

/-- A first measurement of the round trip, or one that differs by more than 2 %, makes hub firmware size the credits (R81) and is reported (R514). -/
def State.newRtt (s : State) (p : Port) (t : Nat) : State :=
  let s := s.wr (Pg.lnk p) LNK.RTT_rtt_ns t
  let old := (s.link p).rttFw
  if old = 0 || old < 50 * (if t < old then old - t else t - old) then
    let s := s.setLink p { s.link p with rttFw := max 1 t }
    let slot := max 1 (slotTenths (s.trkF p TRK.PORT_STAT_mode) (s.trunk p).fullRx)
    let s := s.wr (Pg.lnk p) LNK.CRD_CFG_rt_cells (min 65535 (ceilDiv ((t + 2000) * 10) slot))
    s.fitCredits.linkReport p 5
  else s

/-- A status block arrives (R67, R73–R75). -/
def State.statusRx (s : State) (p : Port) (w0 ts echo hold : Nat) : State :=
  if !(s.link p).up then s
  else
    let s := if bitOf w0 30 = 1 then s.replayStart p (bitsOf w0 11 0) else s
    let l := s.link p
    let d := (bitsOf w0 23 12 + 1 + 4096 - l.ackCount % 4096) % 4096
    let age := serialDist 32 echo s.now
    let s := s.setLink p { s.link p with echo := ts % 2 ^ 32, echoAt := s.now % 2 ^ 32, heard := true }
    let s := if l.startAt ≤ s.now && age ≤ s.now - l.startAt && hold ≤ age && 0 < age then s.newRtt p (age - hold) else s
    if 2048 ≤ d || l.txCount < l.ackCount + d then
      ((s.bump (Pg.lnk p) LNK.LNK_CNT2_ack_err 1).raise (Pg.lnk p) LNK.ev_ack_err).retrainReq p 3
    else
      let s := s.ackTo p (l.ackCount + d)
      if bitOf w0 31 = 1 then
        ((s.bump (Pg.lnk p) LNK.LNK_CNT1_naks_rx 1).raise (Pg.lnk p) LNK.ev_nak_rx).startReplay p
      else s

/-- A credit block arrives: returned counts M, G, T, E, shared T, shared E, then the limits (R67, R82). -/
def State.creditRx (s : State) (p : Port) (l : List Nat) : State :=
  let x := s.link p
  if !x.up then s
  else
    let g := fun i => l.getD i 0 % 65536
    let exceeds := fun (i back sent : Nat) => usedOf sent back < usedOf (g i) back
    if exceeds 0 x.pReturned.m x.sent.m || exceeds 1 x.pReturned.g x.sent.g || exceeds 2 x.pReturned.t x.sent.t || exceeds 3 x.pReturned.e x.sent.e ||
        exceeds 4 x.pReturned.ts x.sent.ts || exceeds 5 x.pReturned.es x.sent.es then
      ((s.bump (Pg.lnk p) LNK.LNK_CNT2_ack_err 1).raise (Pg.lnk p) LNK.ev_credit_err).retrainReq p 4
    else
      let lim : Limits := { m := g 6, g := g 7, t := g 8, e := g 9, sh := g 10 }
      let s := s.setLink p { x with pReturned := { m := g 0, g := g 1, t := g 2, e := g 3, ts := g 4, es := g 5 }, pLimits := lim }
      if lim = x.pLimits then s else s.fitCredits

/-- Words of a status block, and the fields of a credit block, in a payload. -/
def State.statusBytes (s : State) (p : Port) (l : List Byte) : State := s.statusRx p (numAt l 0 4) (numAt l 4 4) (numAt l 8 4) (numAt l 12 4)
def creditFields (l : List Byte) : List Nat := (List.range 11).map (fun i => numAt l (2 * i) 2)

/-- A hop-local cell is consumed (R64, R67). -/
def State.hopLocal (s : State) (p : Port) (ctype : Nat) (l : List Byte) : State := match ctype with
  | 9 => s.statusBytes p l
  | 8 => s.creditRx p (creditFields l)
  | _ => (s.statusBytes p l).creditRx p (creditFields (l.drop 16))

/-! ### Cells in (R65, R73, R78, R82, R88–R90, R419, R420) -/

/-- A fault in the stream draws one nak, and the receiver enters replay-wait (R73). -/
def State.nak (s : State) (p : Port) : State :=
  let l := s.link p
  if l.replayWait then s else s.setLink p { l with replayWait := true, replayRx := none, owedNak := true }

/-- What a sequenced cell's lseq says (R73). -/
inductive Take where
  | accept | skip | fault
deriving DecidableEq, Repr

/-- A sequenced cell is accepted, discarded in silence, or out of order. -/
def Link.take (l : Link) (lseq : Nat) : Take :=
  if l.replayWait then .skip
  else match l.replayRx with
    | some n => if lseq = n % 4096 then (if n < l.rxCount then .skip else .accept) else .fault
    | none => if lseq = l.rxCount % 4096 then .accept else .fault

/-- The counts behind a sequenced cell move on. -/
def State.seqIn (s : State) (p : Port) (t : Take) : State :=
  let l := s.link p
  match t with
  | .accept => (s.setLink p { l with rxCount := l.rxCount + 1, replayRx := none }).bump (Pg.lnk p) LNK.LNK_CNT5_cells_rx 1
  | .skip => s.setLink p { l with replayRx := l.replayRx.map (· + 1) }
  | .fault => s.nak p

/-- A header that R65 discards before any decision. -/
def State.badHeader (s : State) (p : Port) (c : Cell) : Bool := !c.typeOk || 256 < c.len || 62 < c.hops || (s.isMine p c && s.badPort c)

/-- An arriving cell of a class is charged to a pool, or turned away without a credit (R82). -/
def State.chargeRx (s : State) (p : Port) (cls : Nat) : Option (Nat × State) :=
  (s.rxPool p cls 1).map (fun k => (k, s.setLink p { s.link p with rcvd := (s.link p).rcvd.charge k }))

/-- A cell arrives without a credit (R82). -/
def State.noCredit (s : State) (p : Port) (x : Ctx) : State := (s.bump (Pg.lnk p) LNK.LNK_CNT2_ack_err 1).raise (Pg.lnk p) LNK.ev_credit_err x

/-- An open packet at a local egress to which a discarded cell belonged is rewound (R141). -/
def State.rewindOf (s : State) (p : Port) (c : Cell) : State :=
  if s.isMine p c then match s.localCode (s.halfOfPort p) c with
    | some code => s.rewind code (classQ code c.cls) c
    | none => s
  else s

/-- An accepted sequenced cell whose credits are charged: discarded, held for its tag, or forwarded. `raw` is its 276 bytes as received, `n` its link count. -/
def State.acceptCell (s : State) (p : Port) (c : Cell) (raw : List Byte) (n pool : Nat) (cut : Option Port) : State :=
  let s := s.count (Port.idx p) 0
  if s.badHeader p c then ((s.creditBack p pool).hdrErr p c).rewindOf p c
  else if (s.link p).kx = 3 && s.on Pg.lrd LRD.HOP_CFG_require then (s.creditBack p pool).macFail c
  else if (s.link p).kx = 2 && c.cls = clsM then
    let s := s.chargeAcct (Port.idx p)
    match cut with
    | some o =>
      let out := (s.link o).txCount
      let (b, s) := s.heldBuf p raw pool
      let left := ({ c with hops := (c.hops + 1) % 64, lseq := out % 4096 } : Cell).body
      let s := s.setLink p { s.link p with macCut := (s.link p).macCut ++ [(n, out, left)] }
      s.forward p b true false
    | none =>
      let s := if 32 ≤ (s.link p).macHeld.length then s.hopMacTimeout p else s
      s.setLink p { s.link p with macHeld := (s.link p).macHeld ++ [(n, raw, pool)] }
  else
    let s := s.chargeAcct (Port.idx p)
    let (b, s) := s.newBid
    s.forward p ⟨b, c, Port.idx p, pool, false, s.chain.time % 2 ^ 32, Port.idx p⟩ cut.isSome true

/-- The egress on which an arriving cell starts before its check (R70, R129): the hop would take it, a credit holds it, and nothing turns it away. -/
def State.cutOf (s : State) (p : Port) (c : Cell) : Option Port :=
  if c.hopCtl || s.badHeader p c || ((s.link p).kx = 3 && s.on Pg.lrd LRD.HOP_CFG_require) then none else s.cutThrough p c

/-- 280 bytes arrive on a native hop (R62, R65, R70, R73, R78). -/
def State.nativeRx (s : State) (p : Port) (l : List Byte) : State :=
  let c := cellOf l
  let l0 := s.link p
  let t := l0.take c.lseq
  let cut := if !c.hopLocal && t = .accept && (s.rxPool p c.cls 1).isSome then s.cutOf p c else none
  let spoil := fun (s : State) => match cut with
    | some o => s.abortOut o c
    | none => s
  if hopAbort l then (spoil s).bump (Pg.lnk p) LNK.LNK_CNT0_aborts_rx 1
  else if !hopGood l then ((spoil s).bump (Pg.lnk p) LNK.LNK_CNT0_hop_crc 1 |>.raise (Pg.lnk p) LNK.ev_hop_crc).nak p
  else if c.hopLocal then (if 256 < c.len || 62 < c.hops then s.hdrErr p c else s.hopLocal p c.ctype (c.payload.take c.len))
  else
    let s := s.seqIn p t
    if t != .accept then s
    else if c.hopCtl then (if s.badHeader p c then s.hdrErr p c else s.hopControl p (c.payload.take c.len))
    else match s.chargeRx p c.cls with
      | none => s.noCredit p c.ctx
      | some (pool, s) => s.acceptCell p c (l.take 276) l0.rxCount pool cut

/-- The generation of a VHC in SWC.GEN_TBL (R142). -/
def State.genTbl (s : State) (v : Nat) : Nat := s.rd Pg.swc (SWC.GEN_TBL_gen (v / 4)) / 256 ^ (v % 4) % 256

/-- A VHC's bit of GEN_VALID (R142). -/
def State.genValid (s : State) (v : Nat) : Bool :=
  bitOf (if v < 32 then s.rd Pg.swc SWC.GEN_VALID0_valid_lo else s.rd Pg.swc SWC.GEN_VALID1_valid_hi) (v % 32) = 1

/-- The next tseq of a stream, once a forerunner cell has told its cseq (R90): the port's counter moves on by the forerunner cells that are missing. A repacked packet makes fewer native
cells than it had forerunner cells, and its native cells take consecutive numbers (DEDUCED, log entry 132). -/
def State.cseqIn (s : State) (p : Port) (f : FCell) : State :=
  let l := s.link p
  let n := match Tab.find f.stream l.cseq with
    | some v => (v / 128 + (f.cseq + 128 - v % 128) % 128) % 65536
    | none => f.cseq
  s.setLink p { l with cseq := Tab.put f.stream (n * 128 + (f.cseq + 1) % 128) l.cseq }

/-- A native cell made from forerunner cells of a P1200 (R90): vhc from the tunnel entry, gen from the table that the part holds for it, tseq from
the port's counter. A tunnel entry has no write-confirm of its own (R150, R151): wc is 0. -/
def State.unconvert (s : State) (p : Port) (f : FCell) (ctype : Nat) (data : List Byte) : Cell × State :=
  let l := s.link p
  let n := (Tab.find f.stream l.cseq).getD 0
  let w := s.half f.chan (s.halfOfPort p)
  let v := if Tun.v w then Tun.vhc w else 0
  let c : Cell := { ctype := ctype, cls := f.pcls, dhub := f.dhub, dport := f.dport, shub := f.shub, sport := f.sport, tunnel := f.chan, tseq := n / 128 % 65536, vhc := v, gen := if Tun.v w then s.genTbl v else 0, payload := data }
  (c.seal, s.setLink p { l with cseq := Tab.put f.stream ((n / 128 + 1) % 65536 * 128 + n % 128) l.cseq })

/-- A sequenced forerunner cell other than hop control takes its place (R89, R90): the native cells that it completes, each with the charge that it holds. `pool` is the cell's own
charge. Beyond a P1200 a carried cell has crossed one more hop (R114). A middle or last piece without a beginning, and a piece that a new beginning overtakes, is discarded. -/
def State.assemble (s : State) (p : Port) (f : FCell) (pool : Nat) : List (Cell × Nat) × State :=
  let carrier := f.ptype = 5 || f.ptype = 6 || f.ptype = 7 || f.ptype = 0xD
  let start := f.ptype = 1 || f.ptype = 4 || f.ptype = 0xA || f.ptype = 5 || f.ptype = 0xD
  let stop := f.ptype = 3 || f.ptype = 4 || f.ptype = 0xA || f.ptype = 7 || f.ptype = 0xD
  let key := 2 * f.stream + b2n carrier
  let put := fun (s : State) (a : Option Asm) => s.setLink p { s.link p with asm := match a with
    | some a => Tab.put key a (s.link p).asm
    | none => Tab.del key (s.link p).asm }
  let held := Tab.find key (s.link p).asm
  let s := if carrier then s else s.cseqIn p f
  let s := match (if start then held else none) with
    | some a => if a.priv + a.shared = 0 then s else s.creditBack p (chargeCode f.pcls a.priv a.shared)
    | none => s
  match (if start then some ({} : Asm) else held) with
  | none => ([], (s.creditBack p pool).hdrErr p {})
  | some a =>
    let x := chargeParts pool
    let b : Asm := { a with data := a.data ++ f.data, priv := a.priv + x.2.1, shared := a.shared + x.2.2 }
    let all := chargeCode f.pcls b.priv b.shared
    if carrier then
      if stop then
        let c := cellOfCarrier b.data
        ([(if (s.trunk p).isP1200 then { c with hops := (c.hops + 1) % 64 } else c, all)], put s none)
      else ([], put s (some b))
    else if stop then
      let s := put s none
      if b.data.length ≤ 256 then
        let (c, s) := s.unconvert p f (if f.ptype = 0xA then 0xA else if b.made then 3 else 4) b.data
        ([(c, all)], s)
      else
        let (c, s) := s.unconvert p f (if b.made then 2 else 1) (b.data.take 256)
        let (d, s) := s.unconvert p f 3 (b.data.drop 256)
        ([(c, chargeCode f.pcls a.priv a.shared), (d, pool)], s)
    else if 256 ≤ b.data.length then
      let (c, s) := s.unconvert p f (if b.made then 2 else 1) (b.data.take 256)
      ([(c, all)], put s (some { data := b.data.drop 256, made := true }))
    else ([], put s (some b))

/-- The first native cell that an arriving forerunner cell would complete, and the egress on which it starts before the forerunner CRC is checked (R89, R90). -/
def State.p1Cut (s : State) (p : Port) (f : FCell) : Option (Cell × Port) :=
  if !f.known || f.hopCtl || (s.link p).take f.lseq != .accept then none
  else match s.rxPool p f.pcls 1 with
    | none => none
    | some k => match (s.assemble p f k).1 with
      | [] => none
      | x :: _ => (s.cutOf p x.1).map (fun o => (x.1, o))

/-- A sequenced forerunner cell that was accepted (R82, R88–R90). -/
def State.p1Accept (s : State) (p : Port) (f : FCell) (n : Nat) (cut : Option Port) : State :=
  if f.hopCtl then s.hopControl p f.data
  else if !f.known then s.hdrErr p {}
  else match s.chargeRx p f.pcls with
    | none => s.noCredit p {}
    | some (pool, s) => match s.assemble p f pool with
      | ([], s) => s
      | (x :: rest, s) =>
        let s := s.acceptCell p x.1 x.1.body n x.2 cut
        s.each rest (fun s y => s.acceptCell p y.1 y.1.body n y.2 none)

/-- 128 bytes arrive on a P1 hop (R87, R88). -/
def State.p1Rx (s : State) (p : Port) (l : List Byte) : State :=
  let f := fcellOf l
  let cut := s.p1Cut p f
  if !fcellGood l then
    let s := match cut with
      | some (c, o) => s.abortOut o c
      | none => s
    ((s.bump (Pg.lnk p) LNK.LNK_CNT6_p1_crc 1).raise (Pg.lnk p) LNK.ev_p1_err).nak p
  else if f.ptype = 0 || f.ptype = 8 || f.ptype = 9 then s.hopLocal p f.ptype f.data
  else
    let t := (s.link p).take f.lseq
    let n := (s.link p).rxCount
    let s := s.seqIn p t
    if t = .accept then s.p1Accept p f n (cut.map (·.2)) else s

/-- A cell arrives on a trunk hop: what each pair of the connector carries of it (R30, R84). -/
def State.cellRx (s : State) (p : Port) (raw : List (List Byte)) : State :=
  if !s.hopRuns p then s
  else
    let l := s.laneBytes p raw
    let s := s.laneStep p l.length
    if s.p1 p then s.p1Rx p l else s.nativeRx p l

def execCellRx (p : Port) (raw : List (List Byte)) (s : State) : Host.Outcome State Fault Refusal := s.run (fun s => s.cellRx p raw)

/-! ### The other commands of the link layer -/

def execStatusBlockRx (p : Port) (w0 ts echo hold : Nat) (s : State) : Host.Outcome State Fault Refusal :=
  s.run (fun s => if s.hopRuns p then s.statusRx p w0 ts echo hold else s)

def execCreditBlockRx (p : Port) (l : List Nat) (s : State) : Host.Outcome State Fault Refusal :=
  s.run (fun s => if s.hopRuns p then s.creditRx p l else s)

/-- A status block by itself (R73). On a P1 hop a credit cell follows it in the slot (R88; DESIGN CHOICE, log entry 129). -/
def State.statusSend (s : State) (p : Port) : State :=
  let s := s.sendStatus p false
  if s.p1 p then State.slotRest p .good 2 (s.sendLocal p 8 (s.creditBlock p)) else s

def execStatusSend (p : Port) (s : State) : Host.Outcome State Fault Refusal :=
  s.run (fun s => if s.hopRuns p then s.statusSend p else s)

/-- The replay timer runs only while cells are outstanding and the round trip is known (R75). -/
def execReplayTimerExpiry (p : Port) (s : State) : Host.Outcome State Fault Refusal :=
  s.run (fun s => if s.hopRuns p && !(s.link p).store.isEmpty && s.rd (Pg.lnk p) LNK.RTT_rtt_ns != 0 then s.startReplay p else s)

def execStatusTimeout (p : Port) (s : State) : Host.Outcome State Fault Refusal :=
  s.run (fun s => if s.hopRuns p && !(s.link p).store.isEmpty then
      ((s.bump (Pg.lnk p) LNK.LNK_CNT2_stat_tmo 1).raise (Pg.lnk p) LNK.ev_status_tmo).retrainReq p 2 else s)

def execRetrainReqRx (r : RetrainReq) (s : State) : Host.Outcome State Fault Refusal :=
  s.run (fun s => if s.hopRuns r.port then s.retrainRx r.port r.cause else s)

def execCrdCfgWrite (p : Port) (v : Nat) (s : State) : Host.Outcome State Fault Refusal := s.run (fun s => s.crdCfg p v)

/-- The resequencer of a tunnel gives up its expected cell (R86): one declaration up to the oldest held cell. -/
def State.reseqTimeout (s : State) (k : Nat) : State := match s.rsq k with
  | none => s
  | some r =>
    let far := fun (b : Buf) => serialDist 16 r.exp b.cell.tseq
    match r.held.foldl (fun (m : Option Buf) b => match m with
        | none => some b
        | some x => if far b < far x then some b else m) none with
    | none => s
    | some b => State.releaseHeld k 64 ((s.setRsq k { r with exp := b.cell.tseq }).declareLoss r.code r.exp b.cell)

def execReseqTimeout (tunnel shub dhub half : Nat) (s : State) : Host.Outcome State Fault Refusal :=
  s.run (fun s => s.reseqTimeout (rsqKey { tunnel := tunnel, shub := shub, dhub := dhub } half))

def execKxHelloRx (p : Port) (l : List Byte) (s : State) : Host.Outcome State Fault Refusal := s.run (fun s => if s.hopRuns p then s.kxHello p l else s)
def execKxConfirmRx (p : Port) (l : List Byte) (s : State) : Host.Outcome State Fault Refusal := s.run (fun s => if s.hopRuns p then s.kxConfirm p l else s)
def execKxTimeout (p : Port) (s : State) : Host.Outcome State Fault Refusal := s.run (fun s => s.kxTimeout p)
def execHopMacRx (p : Port) (l : List Byte) (s : State) : Host.Outcome State Fault Refusal := s.run (fun s => if s.hopRuns p then s.hopMac p l else s)
def execHopMacTimeout (p : Port) (s : State) : Host.Outcome State Fault Refusal := s.run (fun s => s.hopMacTimeout p)

end Sys2Proof.Machine
end

