-- ==== Sys2Proof/Machine/Switch.lean ====
section
/-!
DEFINITION. Sys2Proof/Machine/Switch.lean: queue resets (R143), the Gleaner (R145), account limits and reserves (R135, R137), and
the packet that a local egress takes next (R130, R131, R140, R142).
-/
namespace Sys2Proof.Machine

open Sys2Proof

/-! ### Queue reset and the Gleaner -/

/-- A pointer mismatch (cause 1) or an uncorrectable descriptor (cause 2) resets a queue (R143, R144). ECC_CNT.unc counts uncorrectable errors, a descriptor's among them, with its event
(DESIGN CHOICE, log entry 135). -/
def State.mismatch (s : State) (q cause : Nat) : State :=
  if 4128 ≤ q then s
  else
    let s := if cause = 2 then (s.bump Pg.grn GRN.ECC_CNT_unc 1).raise Pg.grn GRN.ev_ecc_unc else s
    (s.resetQueue q cause).raise Pg.grn GRN.ev_q_reset

def execQueuePointerMismatch (q cause : Nat) (s : State) : Host.Outcome State Fault Refusal :=
  s.run (fun s => s.mismatch q (if cause = 2 then 2 else 1))

/-- The Gleaner reads the descriptor of a buffer: a buffer of an old incarnation is freed (R145). -/
def State.sweepAt (s : State) (n : Nat) : State :=
  match s.gran.stale.find? (fun x => x.2.2.bid = n + 1), s.gran.staleRpl.find? (fun x => x.2 = n + 1) with
  | some x, _ => (({ s with gran := { s.gran with stale := s.gran.stale.erase x } } : State).release x.2.2).bump Pg.grn GRN.GLN_RECL_reclaimed 1
  | none, some (a, m) =>
    (({ s with gran := { s.gran with staleRpl := s.gran.staleRpl.erase (a, m) } } : State).release ⟨m, {}, a, 6, false, 0, 15⟩).bump Pg.grn GRN.GLN_RECL_reclaimed 1
  | none, none => s

/-- The Gleaner reads the next descriptor (R145). -/
def State.sweepStep (s : State) : State :=
  { s.sweepAt s.gran.sweep with gran := { (s.sweepAt s.gran.sweep).gran with sweep := (s.gran.sweep + 1) % 32768 } }

def execGleanerSweepStep (s : State) : Host.Outcome State Fault Refusal := s.run State.sweepStep

/-- Every buffer in use, once. -/
def State.allBids (s : State) : List Nat := s.usedBids.eraseDups.filter (· != 0)

/-- The buffers found in use on an account: a buffer counts where it is charged, a covered cell in its hold on its port (R419), a request that waits for the PX bridge's posted queue on
CORE (R183). -/
def State.swept (s : State) (a : Nat) : Nat :=
  countWhere (fun n => chargeOf (s.refAccts n) = some a) s.allBids + (if a = 0 then s.lu.macHeld.length else if a = 1 then s.ld.macHeld.length else if a = 8 then s.xbr.pxHold.length else 0)

/-- The rest of a pass: the descriptors from the sweep pointer on, in ascending order, of which those of old incarnations matter (R145). -/
def State.sweepRest (s : State) : State :=
  s.each (((s.gran.stale.map (·.2.2.bid) ++ s.gran.staleRpl.map (·.2)).filter (fun m => s.gran.sweep < m)).mergeSort (· ≤ ·)) (fun s m => s.sweepAt (m - 1))

/-- A pass ends (R145): what is left of it is swept, what it found in use is compared with the accounts; stopped queues run again (R143). -/
def State.passEnd (s : State) : State :=
  let s := s.sweepRest
  let s := s.bump Pg.grn GRN.GLN_STAT_passes 1
  let s := s.wr Pg.grn GRN.GLN_STAT_busy 0
  let s : State := { s with gran := { s.gran with sweep := 0, stopped := [] } }
  s.each (List.range 10) (fun s a =>
    if s.swept a = s.inUse a then s
    else ((s.wr Pg.grn (GRN.RES_in_use a) (s.swept a)).bump Pg.grn GRN.GLN_RECL_acct_fix 1).raise Pg.grn GRN.ev_acct_err)

def execGleanerPassEnd (s : State) : Host.Outcome State Fault Refusal := s.run State.passEnd

def execGleanerFullPass (s : State) : Host.Outcome State Fault Refusal := s.run State.glean

/-! ### Accounts (R135–R137, R442) -/

/-- An account whose limits and reserve can be written: 4–8, and in a head 9 (R148). -/
def State.acctRw (s : State) (a : Nat) : Bool := 4 ≤ a && (a ≤ 8 || (a = 9 && s.mode = .head))

/-- A reserve is set, clamped to its envelope; a clamp pins (R137, R442). -/
def State.setReserve (s : State) (a v : Nat) : State :=
  let lo := s.rd Pg.grn (GRN.LIMITS_floor a)
  let hi := s.rd Pg.grn (GRN.LIMITS_ceiling a)
  let s := s.wr Pg.grn (GRN.RES_reserve a) (min (max v lo) hi)
  if v < lo ∨ hi < v then
    (s.wr Pg.grn GRN.PLC_PIN_pin (s.rd Pg.grn GRN.PLC_PIN_pin ||| 2 ^ (a - 4))).raise Pg.grn GRN.ev_plc_pinned
  else s

/-- A write of an account's limits (R135): refused when it breaks them. A reserve that a new envelope excludes moves to its bound (R442); a cut of R136
ends with the floors that made it. -/
def State.acctLimits (s : State) (a v : Nat) : State :=
  let f := bitsOf v 31 16
  let c := bitsOf v 15 0
  if !s.acctRw a then s
  else if c < f || 32768 < s.granSum - s.rd Pg.grn (GRN.LIMITS_floor a) + f then s.raise Pg.grn GRN.ev_cfg_err
  else
    let s := (s.wr Pg.grn (GRN.LIMITS_floor a) f).wr Pg.grn (GRN.LIMITS_ceiling a) c
    let s := s.setReserve a (s.rd Pg.grn (GRN.RES_reserve a))
    if s.on Pg.grn GRN.GRN_STAT_short then s.fitCredits else s

def execAccountLimitsWrite (a v : Nat) (s : State) : Host.Outcome State Fault Refusal := s.run (fun s => s.acctLimits a v)

def execReserveWrite (a v : Nat) (s : State) : Host.Outcome State Fault Refusal :=
  s.run (fun s => if s.acctRw a then s.setReserve a (bitsOf v 31 16) else s)

/-- A step of the placement loop is due: PLC_CFG.period epochs have passed since the last (R137). -/
def State.placeDue (s : State) : Bool := s.rd1 Pg.grn GRN.PLC_CFG_period ≤ s.gran.plcEpochs

/-- The placement loop steps when it is due; held, it changes no reserve (R137). -/
def State.placeStep (s : State) : State :=
  if !s.placeDue then s
  else
    let s : State := { s with gran := { s.gran with plcEpochs := 0 } }
    if s.on Pg.grn GRN.PLC_CFG_hold then s else s.place

def execPlacementLoop (s : State) : Host.Outcome State Fault Refusal := s.run State.placeStep

/-! ### Descriptors (R123) -/

/-- A descriptor in the descriptor RAM, which no register page shows (R123): the fields that the model's queues spell. -/
structure Descriptor where
  header  : List Byte
  used    : Bool
  refs    : Nat
  acct    : Nat
  queue   : Nat
  inc     : Nat
  next    : Nat
  pend    : Bool
  pstart  : Bool
  commit  : Bool
  arrival : Nat
  ecc     : BitVec 9
deriving DecidableEq, Repr

/-- The buffer behind one in a linked list; itself at the tail (DESIGN CHOICE, log entry 136: the rule gives the tail's next no value). -/
def nextOf (n : Nat) : List Buf → Nat
  | a :: b :: t => if a.bid = n + 1 then b.bid - 1 else nextOf n (b :: t)
  | _ => n

/-- The descriptor of a buffer that stands in a queue, of the current incarnation or an old one; none when it does not. -/
def State.descriptor (s : State) (n : Nat) : Option Descriptor :=
  let of := fun (q inc : Nat) (l : List Buf) (b : Buf) =>
    let head := leBytes 4 b.cell.w0 ++ leBytes 4 b.cell.w1 ++ leBytes 4 b.cell.w2 ++ leBytes 4 b.cell.w3
    let refs := 1 + b2n (decide (1 < (s.refAccts b.bid).length))
    ({ header := head, used := true, refs := refs, acct := b.acct, queue := q, inc := inc, next := nextOf n l, pend := b.cell.ends, pstart := b.cell.starts, commit := b.commit,
       arrival := b.arrival, ecc := Config.secded (head ++ leBytes 4 (b.acct + 16 * q + 2 ^ 17 * inc) ++ leBytes 4 (nextOf n l) ++ leBytes 4 b.arrival) } : Descriptor)
  match s.gran.queues.find? (fun q => q.2.any (fun b => b.bid = n + 1)) with
  | some (q, l) => (l.find? (fun b => b.bid = n + 1)).map (of q ((Tab.find q s.gran.incs).getD 0) l)
  | none => (s.gran.stale.find? (fun x => x.2.2.bid = n + 1)).map (fun x => of x.1 x.2.1 [] x.2.2)


/-! ### Local egresses (R130, R131, R140, R142) -/

/-- The committed packet nearest the front of a queue, in order. -/
def firstPacket : List Buf → List Buf
  | [] => []
  | b :: t =>
    if b.commit then
      b :: (if b.cell.ends then [] else
        let l := t.filter (fun x => x.commit && sameStream x.cell b.cell)
        (l.takeWhile (fun x => !x.cell.ends)) ++ ((l.dropWhile (fun x => !x.cell.ends)).take 1))
    else firstPacket t

/-- The packet that an egress serves next and the state of its round robin: M, G, then T and E (R131). -/
def State.localPick (s : State) (code : Nat) : Option (Nat × List Buf × State) :=
  let pk := fun k => if s.gran.stopped.contains (classQ code k) then [] else firstPacket (s.queue (classQ code k))
  if !(pk 0).isEmpty then some (classQ code 0, pk 0, s)
  else if !(pk 1).isEmpty then some (classQ code 1, pk 1, s)
  else match s.drrPick code (!(pk 2).isEmpty) (!(pk 3).isEmpty) with
    | some (k, s) => some (classQ code (2 + k), pk (2 + k), s.drrTake code k (pk (2 + k)).length)
    | none => none

/-- The generation that an egress holds for a VHC, when it is valid (R142). -/
def State.egressGen (s : State) (code v : Nat) : Option Nat :=
  if code = 7 then
    let st := s.vState v
    if st = vActive || st = vDraining || st = vFreezing || st = vFrozen || (st = vRestoring && (s.vhcCtx v).taken) then some (s.vGen v) else none
  else if s.genValid v then some (s.genTbl v) else none

/-- What a local egress hands over: nothing (no packet, or one that the generation filter discarded), or the cells of a packet, as they are after
the Granary's read. -/
def State.dequeue (s : State) (code : Nat) (e : Ecc) : List Buf × State :=
  match s.localPick code with
  | none => ([], s)
  | some (_, [], _) => ([], s)
  | some (q, b :: more, s) =>
    let pk := b :: more
    let s := s.setQueue q ((s.queue q).filter (fun x => !(pk.any (fun y => y.bid = x.bid && y.cell.tseq = x.cell.tseq && y.cell.tunnel = x.cell.tunnel))))
    let s := s.each pk (fun s x => (s.release x).countWait code x)
    if b.cell.cls != clsM && s.egressGen code b.cell.vhc != some b.cell.gen then
      ([], (s.count code 8).raise Pg.swc SWC.ev_stale_gen)
    else
      let (c, s) := s.readEcc e b.cell
      ({ b with cell := c } :: more, s.count code 1 pk.length)

/-- A packet is spoiled: poisoned, or a cell fails the E2E check, which is counted (R72, R80). -/
def State.checkPacket (s : State) (pk : List Buf) : Bool × State :=
  let bad := countWhere (fun b => b.cell.e2e != b.cell.e2eCalc) pk
  let s := if bad = 0 then s else (s.bump (Pg.lnk .tu) LNK.RSQ_CNT0_e2e_egress 1).raise (Pg.lnk .tu) LNK.ev_e2e_egress
  (bad != 0 || pk.any (fun b => b.cell.psn), s)

end Sys2Proof.Machine
end

