-- ==== Sys2Proof/Machine/Chain.lean ====
section
/-!
DEFINITION. Sys2Proof/Machine/Chain.lean: the commands of chains: enumeration (R96–R98, R114), heartbeats and foreign cells (R99,
R100), chain time (R101–R106, R122), dual homing (R107–R110), hand-over (R111, R112), dying gasps (R116, R117) and chain-wide commands
(R118, R119). A message cell is consumed by the core as its row says; the switch core's forwarded copy of R126 is made when the cell enters.
-/
namespace Sys2Proof.Machine

open Sys2Proof

/-- A message cell arrives verified: it is forwarded as R126 forwards it, and the core consumes it. The hop count of R65 and the standby filter of R94 come first. -/
def State.msgIn (s : State) (p : Port) (c : Cell) (f : State → State) : State :=
  let s := s.noteBelow p c
  if 62 < c.hops || (s.standbyHop p && !standbyAdmits c) then s.hdrErr p c
  else f (if (s.transitPort p c).isSome then s.forwardMsg p c else s)

/-! ### Time (R101–R106, R122) -/

/-- The first epoch boundary at or after a time. -/
def State.boundaryAfter (s : State) (t : Nat) : Nat := ceilDiv t s.epochLen * s.epochLen

/-- A part meets another home on a port (R110): the two ends of that hop mark it. A broadcast is forwarded whoever sent it (R126), so a hub with another of its own home beyond the port is
no end (DEDUCED, log entry 146). -/
def State.meetForeign (s : State) (p : Port) : State :=
  let s := s.foreign
  if s.mode = .head || (s.homed && p = s.tdRole && !(s.trunk p).below) then s.boundary p else s

/-- A head that meets another head on a chain port (R107): no hub has replied yet and standby_en is set: it takes the standby role; else a boundary hop. The chain has then a home elsewhere:
a request pending here is lost (R112). -/
def State.meetHead (s : State) (p : Port) (id prio : Nat) : State :=
  let ch := chainOf p
  let h := s.headChain ch
  let s := if s.chain.reqChain = ch + 1 && !h.standby then s.loseRequest else s
  if h.standby then s.foreign
  else if h.dir.isEmpty && s.on Pg.chn CHN.CHN_CFG_standby_en then s.takeStandby ch id prio
  else s.meetForeign p

/-- The one-way delay and offset of a time cell in ns (R102): asymmetries are in ps, and the delay is rounded down to whole ns (DESIGN CHOICE, log entry 138). -/
def State.timeOffset (s : State) (p : Port) (c : Cell) : Int :=
  let asym := signed 16 (s.rd Pg.ctim (if p = .tu then CTIM.ASYM_asym_tu else CTIM.ASYM_asym_td))
  let own : Int := (((s.rd (Pg.lnk p) LNK.RTT_rtt_ns : Nat) : Int) * 1000 + asym) / 2 / 1000
  let d := if (s.trunk p).isP1200 then own + 512 + (numAt c.payload 8 4 : Nat) else own
  (numAt c.payload 0 8 : Nat) + d - (s.chain.time : Nat)

/-- The lock detector of R102. -/
def State.lockStep (s : State) (off : Int) : State :=
  let a := off.natAbs
  let n := if a < 10 then s.chain.lockCnt + 1 else 0
  let s : State := { s with chain := { s.chain with lockCnt := min n 16 } }
  let locked := s.on Pg.ctim CTIM.CTIM_STAT_locked
  if 100 < a && locked then (s.wr Pg.ctim CTIM.CTIM_STAT_locked 0).raise Pg.ctim CTIM.ev_unlock
  else if 16 ≤ n && !locked then (s.wr Pg.ctim CTIM.CTIM_STAT_locked 1).raise Pg.ctim CTIM.ev_lock
  else s

/-- A time cell (R100, R102, R105, R106). A head that is home to a chain follows nobody; until the round trip has been measured no delay is known (R67). -/
def State.timeCell (s : State) (p : Port) (c : Cell) : State :=
  if s.mode = .head && (s.chain.c0.home || s.chain.c1.home) then s
  else if !s.fromHome p c then s.foreign
  else if s.rd (Pg.lnk p) LNK.RTT_rtt_ns = 0 then s
  else
    let off := s.timeOffset p c
    let s := s.wr Pg.ctim CTIM.CTIM_STAT_free 0
    let s := s.wr Pg.ctim CTIM.OFFSET_offset (unsigned 32 off)
    let flags := numAt c.payload 13 1
    let crossed := numAt c.payload 14 1 + b2n (s.trunk p).isP1200
    let s := s.wr Pg.ctim CTIM.CTIM_STAT_p1200_crossed crossed
    let s := s.wr Pg.ctim CTIM.CTIM_STAT_degraded (b2n (bitOf flags 2 = 1 || crossed != 0))
    let s := s.lockStep off
    if 100 * s.rd1 Pg.ctim CTIM.CTIM_CFG_step_thr < off.natAbs then { s with chain := { s.chain with pendStep := some off, slew := 0 } }
    else { s with chain := { s.chain with slew := off * 1000000000 } }

def execTimeCellRx (p : Port) (c : Cell) (s : State) : Host.Outcome State Fault Refusal := s.run (fun s => s.msgIn p c (fun s => s.timeCell p c))

def execCtimSetGo (s : State) : Host.Outcome State Fault Refusal :=
  s.run (fun s => if s.mode = .head then { s with chain := { s.chain with setDue := true } } else s)

/-- A time cell leaves by a port (R101). The one-way delay to a P1200 is half the round trip, without the asymmetry (DESIGN CHOICE, log entry 139). -/
def State.sendTime (s : State) (p : Port) : State :=
  let crossed := if s.mode = .head then 0 else s.rd Pg.ctim CTIM.CTIM_STAT_p1200_crossed
  let toHead := match (s.trunk p).partner with
    | some g => g.head
    | none => false
  let fwd := if (s.trunk p).isP1200 then s.rd (Pg.lnk p) LNK.RTT_rtt_ns / 2 else 0
  let dhub := if toHead then 63 else if s.mode = .head then (if (s.trunk p).isP1200 then 2 else 1) else if (s.trunk p).isP1200 then s.addr + 2 else s.addr + 1
  let flags := b2n (s.on Pg.ctim CTIM.CTIM_STAT_locked) + 2 * b2n (s.on Pg.ctim CTIM.CTIM_STAT_free) + 4 * b2n (s.on Pg.ctim CTIM.CTIM_STAT_degraded)
  s.sendCore p 0xC 3 dhub 0 (leBytes 8 s.chain.time ++ leBytes 4 fwd ++ leBytes 1 (s.rd Pg.ctim CTIM.CTIM_CFG_epoch_code) ++ leBytes 1 flags ++ leBytes 1 crossed ++ [0] ++
    leBytes 8 (if s.mode = .head then s.devId else s.homeId))

/-- Time cells of this epoch (R101): from the TD port of a hub that has a home, from each chain port at which a head is home; none on a boundary hop. -/
def State.sendTimes (s : State) : State :=
  let n := s.chain.tcEpochs + 1
  if n < 2 ^ s.rd Pg.ctim CTIM.CTIM_CFG_tc_div then { s with chain := { s.chain with tcEpochs := n } }
  else
    let s : State := { s with chain := { s.chain with tcEpochs := 0 } }
    let ok := fun (s : State) (p : Port) => s.routed p && !s.chain.bounds.contains p
    if s.mode = .head then
      let s := if s.chain.c0.home && ok s .td then s.sendTime .td else s
      if s.chain.c1.home && ok s .tu then s.sendTime .tu else s
    else if s.mode = .hub && s.homed && ok s s.tdRole then s.sendTime s.tdRole
    else s

/-- HEARTBEAT leaves on a chain in state up (R99). -/
def State.sendHeartbeat (s : State) (ch : Nat) : State :=
  let h := s.headChain ch
  if h.home && s.rd Pg.chn (CHN.CHAIN_STAT_state ch) = 2 then
    let (n, s) := s.chainSeq
    s.chainSend (portOfChain ch) 1 63 0x13 n 32
      (leBytes 4 (s.chain.time / s.epochLen) ++ leBytes 8 s.devId ++ leBytes 1 (s.rd Pg.chn CHN.CHN_CFG_prio) ++ leBytes 1 (b2n (h.standbyId != 0)) ++
        [0, 0, 0, 0, 0, 0] ++ leBytes 8 h.standbyId)
  else s

/-- The forerunner keep-alive goes to a P1200 beyond a port in place of heartbeats (R114): from a head's chain port at which it is home, from a homed hub's TD port. -/
def State.keepP1200 (s : State) (p : Port) : State :=
  let t := s.trunk p
  let ours := if s.mode = .head then (s.headChain (chainOf p)).home else s.mode = .hub && s.homed && p = s.tdRole
  if ours && s.routed p && t.isP1200 && t.assigned then s.emit (.training p 8 []) else s

/-- CHN_STAT.hb_missed of a head: the larger count of the chains it stands by for (DESIGN CHOICE, log entry 148). -/
def State.showMissed (s : State) : State :=
  s.wr Pg.chn CHN.CHN_STAT_hb_missed (max (if s.chain.c0.standby then s.chain.c0.missed else 0) (if s.chain.c1.standby then s.chain.c1.missed else 0))

/-- An epoch of a chain passes at its standby head without a heartbeat, or with one (R99). -/
def HeadChain.miss (h : HeadChain) : HeadChain :=
  if !h.standby || !h.hbSeen then h else if h.hbNow then { h with hbNow := false } else { h with missed := min 15 (h.missed + 1) }

/-- An epoch passes without a heartbeat, or with one (R99). -/
def State.countMiss (s : State) : State :=
  if s.mode = .head then ((s.setHeadChain 0 (s.headChain 0).miss).setHeadChain 1 (s.headChain 1).miss).showMissed
  else if !s.chain.hbSeen then s
  else if s.chain.hbNow then { s with chain := { s.chain with hbNow := false } }
  else s.wr Pg.chn CHN.CHN_STAT_hb_missed (min 15 (s.rd Pg.chn CHN.CHN_STAT_hb_missed + 1))

/-- Chain time moves by a signed amount in parts of 10^-9 ns; what is less than a ns is kept for the next time (R102, R122). -/
def State.trimTime (s : State) (d : Int) : State :=
  let t : Int := (s.chain.frac : Int) + d
  { s with chain := { s.chain with frac := (t % 1000000000).toNat, time := ((s.chain.time : Int) + t / 1000000000).toNat % 2 ^ 64 } }

/-- The slewing of an epoch of `len` ns: at most slew_ppm of it (R102). Its rate is the frequency correction, which a part that runs free keeps (R105; that the correction is this rate is
a DESIGN CHOICE, log entry 145). -/
def State.slewStep (s : State) (len : Nat) : State :=
  if s.on Pg.ctim CTIM.CTIM_STAT_free then s.trimTime (len * s.chain.freq)
  else
    let lim : Int := (len * s.rd1 Pg.ctim CTIM.CTIM_CFG_slew_ppm * 1000 : Nat)
    let d := max (-lim) (min lim s.chain.slew)
    ({ s with chain := { s.chain with slew := s.chain.slew - d, freq := d / len } } : State).trimTime d

/-- The chain's correction of this epoch boundary (R102, R105, R122): a pending step, a head's SET and ADJ, slewing up to slew_ppm. -/
def State.timeStep (s : State) : State :=
  let len := s.epochLen
  let s := match s.chain.pendStep with
    | some off =>
      let s : State := { s with chain := { s.chain with pendStep := none, slew := 0, time := ((s.chain.time : Int) + off).toNat % 2 ^ 64 } }
      (s.bump Pg.ctim CTIM.CTIM_STAT_steps 1).raise Pg.ctim CTIM.ev_step
    | none => s.slewStep len
  if s.mode = .head then
    let adj := signed 32 (s.rd Pg.ctim CTIM.ADJ_adj_ppb)
    let adj := if 100000 < adj then 100000 else if adj < -100000 then -100000 else adj
    let s := s.trimTime (len * adj)
    if s.chain.setDue then
      { s with chain := { s.chain with setDue := false, time := s.rd Pg.ctim CTIM.SET_LO_set_lo + 2 ^ 32 * s.rd Pg.ctim CTIM.SET_HI_set_hi } }
    else s
  else s

/-! ### Heartbeats and home loss (R99, R100, R108) -/

/-- A heartbeat is the home's: the miss count starts again (R99). -/
def State.heartbeat (s : State) (p : Port) (c : Cell) : State :=
  let id := ccArg c 8 8
  let prio := ccArg c 16 1 % 16
  let standby := if bitOf (ccArg c 17 1) 0 = 1 then ccArg c 24 8 else 0
  if s.fromHome p c then
    if s.mode = .head then
      let s := s.setHeadChain (chainOf p) { s.headChain (chainOf p) with hbSeen := true, hbNow := true, missed := 0 }
      ({ s with chain := { s.chain with homePrio := prio, standbyId := standby } } : State).showMissed
    else
      let s := s.wr Pg.chn CHN.CHN_STAT_hb_missed 0
      { s with chain := { s.chain with hbSeen := true, hbNow := true, homePrio := prio, standbyId := standby } }
  else if s.mode = .head then s.meetHead p id prio
  else s.meetForeign p

def execHeartbeatRx (p : Port) (c : Cell) (s : State) : Host.Outcome State Fault Refusal := s.run (fun s => s.msgIn p c (fun s => s.heartbeat p c))

/-- The home-loss trigger by missing heartbeats (R99, R108): a hub becomes homeless, a standby head re-homes the chain. -/
def State.missTrigger (s : State) (ch : Nat) : State :=
  let s := s.raise Pg.chn CHN.ev_hb_miss
  if s.mode = .head then s.takeChain ch else s.homeLoss 2

/-- The part counts heartbeats on a chain: a standby head of that chain; a homed hub, whose one chain stands here as 0. -/
def State.listens (s : State) (ch : Nat) : Bool := if s.mode = .head then (s.headChain ch).standby else ch = 0 && s.mode = .hub && s.homed

/-- Heartbeats have begun since the part was homed, and the count of R99. -/
def State.hbBegun (s : State) (ch : Nat) : Bool := if s.mode = .head then (s.headChain ch).hbSeen else s.chain.hbSeen
def State.hbMissed (s : State) (ch : Nat) : Nat := if s.mode = .head then (s.headChain ch).missed else s.rd Pg.chn CHN.CHN_STAT_hb_missed

/-- The count of a chain has reached its limit (R99); a head counts each chain by itself. -/
def State.missDue (s : State) (ch : Nat) : Bool := s.listens ch && s.hbBegun ch && s.rd1 Pg.chn CHN.CHN_CFG_hb_miss_max ≤ s.hbMissed ch

def execHbMiss (s : State) : Host.Outcome State Fault Refusal := s.run (fun s => s.each ([0, 1].filter s.missDue) State.missTrigger)

/-- The chain whose wait for a first heartbeat is the oldest: the 1 s of R99 ends for it first. -/
def State.firstDue (s : State) : Option (Fin 2) := (s.chain.firstWait ++ [0, 1]).find? (fun ch => s.listens ch.val && !s.hbBegun ch.val)

def execHbFirstTimeout (s : State) : Host.Outcome State Fault Refusal :=
  s.run (fun s => match s.firstDue with
    | none => s
    | some ch => s.missTrigger ch.val)

/-- HOME_LOST (R108): a hub becomes homeless, unless it came across a standby or boundary hop; a standby head re-homes, a boundary home re-homes the lost. -/
def State.homeLost (s : State) (p : Port) : State :=
  if s.mode = .head then
    let ch := chainOf p
    let h := s.headChain ch
    if h.standby then s.takeChain ch
    else if h.home && s.rd Pg.chn (CHN.CHAIN_STAT_state ch) != 0 then (s.joinBoundary ch).sendRehome ch
    else s
  else if s.standbyHop p then s
  else if s.homed then s.becomeHomeless
  else s

def execHomeLostRx (p : Port) (c : Cell) (s : State) : Host.Outcome State Fault Refusal := s.run (fun s => s.msgIn p c (fun s => s.homeLost p))

/-- A hub gives a P1200 beyond its TD port that has no address yet one, and answers ENUM or REHOME on its behalf (R114, R115). -/
def State.replyForP1200 (s : State) (code seq : Nat) : State :=
  let p := s.tdRole
  if s.routed p && s.p1200Due p then
    let s := s.assignP1200 p (s.addr + 1)
    s.sendCore s.tuRole 0xA 2 0 0 (chainPayload code seq 24 (s.p1200Args p))
  else s

/-- REHOME (R108 steps 2–5, R100, R107): its home's own clears a boundary hop over which the hub sends it on; a hub that it re-homes gives a P1200 beyond it its new address (R115). -/
def State.rehome (s : State) (p : Port) (c : Cell) : State :=
  let id := ccArg c 4 8
  if s.mode = .head then
    let h := s.headChain (chainOf p)
    if h.standby then
      (if h.homeId = id then s else
        let s := (s.setHeadChain (chainOf p) { h with homeId := id, hbSeen := false, hbNow := false, missed := 0 }).awaitFirst (chainOf p)
        let s := if s.chain.c0.home || s.chain.c1.home then s else s.setHomeId id
        ({ s with chain := { s.chain with homePrio := ccArg c 12 1 % 16 } } : State).showMissed)
    else s.meetHead p id (ccArg c 12 1 % 16)
  else if s.homed then (if id = s.homeId then s.unbound (Port.other p) else s.meetForeign p)
  else
    let s := s.takeHome p id (ccArg c 12 1 % 16) (ccArg c 13 1 % 2) c.hops
    let s := (s.sendReply 0x16 (ccSeq c)).raise Pg.chn CHN.ev_rehomed
    s.replyForP1200 0x16 (ccSeq c)

def execRehomeRx (p : Port) (c : Cell) (s : State) : Host.Outcome State Fault Refusal := s.run (fun s => s.msgIn p c (fun s => s.rehome p c))

/-! ### Enumeration (R96–R98, R110, R114) -/

/-- ENUM at the core of a part (R96 steps 2–5, R100, R107). -/
def State.enum (s : State) (p : Port) (c : Cell) : State :=
  let id := ccArg c 4 8
  if s.mode = .head then s.meetHead p id (ccArg c 12 1 % 16)
  else if s.homed then (if id = s.homeId then s else s.meetForeign p)
  else
    let s := s.takeHome p id (ccArg c 12 1 % 16) (ccArg c 13 1 % 2) c.hops
    if (s.link p).kx = 1 then { s with chain := { s.chain with replyDue := some (ccSeq c) } }
    else s.sendReply 0x11 (ccSeq c)

/-- ENUM arrives (R96, R126): a hub that holds an address from this home forwards it, or answers for the P1200 beyond it. -/
def State.enumIn (s : State) (p : Port) (c : Cell) : State :=
  if 62 < c.hops || (s.standbyHop p && !standbyAdmits c) then s.hdrErr p c
  else if s.mode = .hub && s.homed && ccArg c 4 8 = s.homeId && s.routed s.tdRole && s.p1200Due s.tdRole then s.replyForP1200 0x11 (ccSeq c)
  else s.msgIn p c (fun s => s.enum p c)

def execEnumRx (p : Port) (c : Cell) (s : State) : Host.Outcome State Fault Refusal := s.run (fun s => s.enumIn p c)

/-- ENUM_REPLY at the head (R96 steps 5–7). -/
def State.enumReply (s : State) (p : Port) (c : Cell) : State :=
  let ch := chainOf p
  if s.mode = .head && (s.headChain ch).home && (s.headChain ch).waiting then
    let s := s.setHeadChain ch { s.headChain ch with waiting := false, resends := 0 }
    let addr := if numAt c.payload 12 1 = 3 then c.shub + 1 else c.shub
    s.dirFill ch addr (dirEntOf (c.payload.drop 4))
  else s

def execEnumReplyRx (p : Port) (c : Cell) (s : State) : Host.Outcome State Fault Refusal := s.run (fun s => s.msgIn p c (fun s => s.enumReply p c))

/-- No reply within enum_tmo, or 1 ms after a resend (R96 step 7a, R97). -/
def State.enumResend (s : State) (ch : Nat) : State :=
  let h := s.headChain ch
  if s.mode != .head || !h.waiting then s
  else if h.resends < 3 then (s.setHeadChain ch { h with resends := h.resends + 1 }).enumCell ch
  else
    let tooFar := match Tab.find 62 h.dir with
      | some e => e.part = 1 || e.part = 2
      | none => false
    let s := if tooFar then s.raise Pg.chn CHN.ev_chain_overlong else s
    s.enumStop ch CHN.ev_enum_fail

def execEnumResend (ch : Fin 2) (s : State) : Host.Outcome State Fault Refusal := s.run (fun s => s.enumResend ch.val)

/-- STANDBY_HELLO at the home (R107). -/
def State.standbyHello (s : State) (p : Port) (c : Cell) : State :=
  let ch := chainOf p
  if s.mode = .head && (s.headChain ch).home then
    (s.setHeadChain ch { s.headChain ch with standbyId := ccArg c 4 8 }).wr Pg.chn (CHN.CHAIN_STAT_standby ch) 1
  else s

def execStandbyHelloRx (p : Port) (c : Cell) (s : State) : Host.Outcome State Fault Refusal := s.run (fun s => s.msgIn p c (fun s => s.standbyHello p c))

/-- TD_UP leaves once the exchange of the TD hop has ended and the partner is known (R98). -/
def State.tdUpSend (s : State) : State :=
  let p := s.tdRole
  let known := (s.trunk p).isP1200 || (s.trunk p).partner.isSome || s.trkF p TRK.PORT_STAT_mode = mdP1
  if s.mode = .hub && s.homed && s.chain.tdUpDue && s.routed p && (s.link p).kx != 1 && known then
    let (n, s) := s.chainSeq
    ({ s with chain := { s.chain with tdUpDue := false } }).chainSend s.tuRole 2 0 0x12 n 8 (leBytes 1 s.tdPartner)
  else s

def execTdUpSend (s : State) : Host.Outcome State Fault Refusal := s.run State.tdUpSend

/-- TD_UP at the head (R98): partner 1 or 2 continues enumeration, 3 shows a standby head, 4 a boundary hop. -/
def State.tdUp (s : State) (p : Port) (c : Cell) : State :=
  let ch := chainOf p
  let part := ccArg c 4 1
  let h := s.headChain ch
  if s.mode != .head || !h.home then s
  else
    let dir := h.dir.map (fun e => (e.1, if e.1 = c.shub then { e.2 with part := part } else e.2))
    let s := (s.setHeadChain ch { h with dir := dir, boundaryAt := if part = 4 then c.shub else h.boundaryAt }).dirStats ch
    if part = 1 || part = 2 then s.enumNext ch else s

def execTdUpRx (p : Port) (c : Cell) (s : State) : Host.Outcome State Fault Refusal := s.run (fun s => s.msgIn p c (fun s => s.tdUp p c))

/-! ### Planned hand-over (R111, R112) -/

/-- A request of priority and ID is better than another (R112). -/
def better (pa ia pb ib : Nat) : Bool := pb < pa || (pa = pb && ia < ib)

/-- The arbitration window in ns (R111): the home sums the round trips of its directory; to a standby head and a hub no cell tells the sum (log entry 147). -/
def State.window (s : State) (ch : Nat) : Nat :=
  max (10000 * s.rd Pg.chn CHN.CHN_CFG_arb_us) (2 * (if s.mode = .head && (s.headChain ch).home then s.chainRtt ch else Config.chainTrip ch) + 100000)

/-- The tunnel of hand-over messages: 1 from the home, 2 from the standby head (R95). -/
def State.goTunnel (s : State) (ch : Nat) : Nat := if (s.headChain ch).home then 1 else 2

/-- HANDOVER is written with req = 1 (R111). -/
def State.handoverReq (s : State) (ch : Nat) : State :=
  if s.mode != .head then s
  else
    let s := s.wr Pg.chn CHN.HANDOVER_sel ch
    let h := s.headChain ch
    if (!h.home && !h.standby) || (h.home && s.rd Pg.chn (CHN.CHAIN_STAT_standby ch) = 0) then s.wr Pg.chn CHN.HANDOVER_status 4
    else
      let s : State := { s with chain := { s.chain with reqChain := ch + 1 } }
      let s := s.wr Pg.chn CHN.HANDOVER_status 1
      let (n, s) := s.chainSeq
      s.chainSend (portOfChain ch) (s.goTunnel ch) 63 0x17 n 16 (leBytes 8 s.devId ++ leBytes 1 (s.rd Pg.chn CHN.CHN_CFG_prio))

def execHandoverRequest (ch : Fin 2) (s : State) : Host.Outcome State Fault Refusal := s.run (fun s => s.handoverReq ch.val)

/-- The window closes with no better request seen (R111): HANDOVER_GO, armed here too. -/
def State.windowEnd (s : State) : State :=
  if s.chain.reqChain = 0 then s
  else
    let ch := s.chain.reqChain - 1
    let prio := s.rd Pg.chn CHN.CHN_CFG_prio
    let t := s.boundaryAfter (s.chain.time + s.window ch)
    let (n, s) := s.chainSeq
    let s := s.chainSend (portOfChain ch) (s.goTunnel ch) 63 0x18 n 24 (leBytes 8 s.devId ++ leBytes 1 prio ++ [0, 0, 0] ++ leBytes 8 t)
    { s with chain := { s.chain with go := some { chain := ch, winner := s.devId, prio := prio, tgo := t } } }

def execArbitrationWindowEnd (s : State) : Host.Outcome State Fault Refusal := s.run State.windowEnd

/-- A hub takes hand-over messages of its home and of the standby head that the home names (R100). -/
def State.knownHead (s : State) (id : Nat) : Bool := id != 0 && (id = s.homeId || id = s.chain.standbyId)

/-- HANDOVER_REQ (R112). -/
def State.handoverReqRx (s : State) (p : Port) (c : Cell) : State :=
  let id := ccArg c 4 8
  if s.mode = .head then
    if s.chain.reqChain = chainOf p + 1 && better (ccArg c 12 1 % 16) id (s.rd Pg.chn CHN.CHN_CFG_prio) s.devId then s.loseRequest else s
  else if !(s.homed && s.knownHead id) then s.foreign
  else match s.chain.goDone with
    | some g =>
      if s.chain.time ≤ g.tgo + s.window g.chain then s.chainSend p (if id = s.homeId then 2 else 1) 63 0x19 (ccSeq c) 16 (leBytes 8 g.winner)
      else s
    | none => s

def execHandoverReqRx (p : Port) (c : Cell) (s : State) : Host.Outcome State Fault Refusal := s.run (fun s => s.msgIn p c (fun s => s.handoverReqRx p c))

/-- HANDOVER_GO is armed (R111). -/
def State.handoverGoRx (s : State) (p : Port) (c : Cell) : State :=
  let id := ccArg c 4 8
  let g : ArmedGo := { chain := if s.mode = .head then chainOf p else s.rd Pg.chn CHN.CHN_STAT_chain, winner := id, prio := ccArg c 12 1 % 16, tgo := ccArg c 16 8 }
  if s.mode = .head then
    let h := s.headChain (chainOf p)
    if h.home || h.standby then { s with chain := { s.chain with go := some g } } else s
  else if !(s.homed && s.knownHead id) then s.foreign
  else { s with chain := { s.chain with go := some g } }

def execHandoverGoRx (p : Port) (c : Cell) (s : State) : Host.Outcome State Fault Refusal := s.run (fun s => s.msgIn p c (fun s => s.handoverGoRx p c))

/-- t_go of an armed hand-over (R111): a former home takes the standby role, unless standby_en = 0 forbids it (R107). -/
def State.handoverAtTgo (s : State) : State := match s.chain.go with
  | none => s
  | some g =>
    let s : State := { s with chain := { s.chain with go := none, goDone := some g } }
    if s.mode = .head then
      let h := s.headChain g.chain
      if g.winner = s.devId then
        (if h.home then
          (({ s with chain := { s.chain with reqChain := 0 } }).wr Pg.chn CHN.HANDOVER_status 2).raise Pg.chn CHN.ev_handover_won
         else if h.standby then s.takeChain g.chain
         else s)
      else if h.home then (if s.on Pg.chn CHN.CHN_CFG_standby_en then s.takeStandby g.chain g.winner g.prio else s.yieldChain g.chain)
      else if s.chain.reqChain = g.chain + 1 then s.loseRequest
      else s
    else if s.homed && g.winner != s.homeId then s.becomeHomeless
    else s

def execHandoverAtTGo (s : State) : Host.Outcome State Fault Refusal := s.run State.handoverAtTgo

/-- HANDOVER_NAK (R112). -/
def State.handoverNak (s : State) (p : Port) : State :=
  if s.mode = .head && s.chain.reqChain = chainOf p + 1 then s.loseRequest else s

def execHandoverNakRx (p : Port) (c : Cell) (s : State) : Host.Outcome State Fault Refusal := s.run (fun s => s.msgIn p c (fun s => s.handoverNak p))

/-! ### Dying gasp (R116, R117) -/

/-- DYING_GASP leaves (R116); it joins its queue ahead of every other cell and goes in the next slot. The code of VOR_S in byte 13 is FEED_MEAS.vor / 4, at most 255 (DESIGN CHOICE, log
entry 140). -/
def State.gaspSend (s : State) (cause : Nat) : State :=
  if s.mode = .hub && s.homed && s.routed s.tuRole then
    let (n, s) := s.chainSeq
    (s.chainSend s.tuRole 2 0 0x1B n 24 (leBytes 8 s.devId ++ leBytes 1 cause ++ leBytes 1 (min 255 (s.rd Pg.pwp PWP.FEED_MEAS_vor / 4)) ++ [0, 0] ++ leBytes 8 s.chain.time)).raise
      Pg.chn CHN.ev_gasp_tx
  else s

/-- FEED_WARN_N falls (R116). -/
def State.gasp (s : State) (cause : Nat) : State :=
  if s.on Pg.chn CHN.CHN_CFG_gasp_en then
    { s.gaspSend cause with chain := { (s.gaspSend cause).chain with gaspLeft := s.rd1 Pg.chn CHN.CHN_CFG_gasp_rep, gaspCause := cause } }
  else s

def execDyingGaspRepeat (s : State) : Host.Outcome State Fault Refusal :=
  s.run (fun s =>
    if s.chain.gaspLeft = 0 then s
    else ({ s with chain := { s.chain with gaspLeft := s.chain.gaspLeft - 1 } }).gaspSend s.chain.gaspCause)

/-- DYING_GASP at the home (R117). -/
def State.dyingGasp (s : State) (p : Port) (c : Cell) : State :=
  let ch := chainOf p
  if s.mode = .head && (s.headChain ch).home then
    let s := s.wr Pg.chn CHN.GASP_LOG0_gasp_id_lo (ccArg c 4 4)
    let s := s.wr Pg.chn CHN.GASP_LOG1_gasp_addr c.shub
    let s := s.wr Pg.chn CHN.GASP_LOG1_gasp_cause (ccArg c 12 1)
    let s := s.wr Pg.chn CHN.GASP_LOG2_gasp_time (ccArg c 16 4)
    let h := s.headChain ch
    let s := s.setHeadChain ch { h with gasps := h.gasps.filter (fun g => s.chain.time ≤ g.2 + 10000000) ++ [(c.shub, s.chain.time)] }
    s.raise Pg.chn CHN.ev_gasp_rx
  else s

def execDyingGaspRx (p : Port) (c : Cell) (s : State) : Host.Outcome State Fault Refusal := s.run (fun s => s.msgIn p c (fun s => s.dyingGasp p c))

/-! ### Chain-wide commands (R118, R119, R427) -/

/-- CMD_STAT ends as failed (R119). -/
def State.cmdFail (s : State) (bad cause : Nat) : State :=
  let s := s.wr Pg.chn CHN.CMD_STAT_first_bad bad
  let s := s.wr Pg.chn CHN.CMD_STAT_cause cause
  (s.wr Pg.chn CHN.CMD_STAT_st 3).raise Pg.chn CHN.ev_cmd_fail

/-- The addresses that a command reaches. REENUM concerns its target and every hub beyond (R118): it is sent to each of them, but for a P1200, which answers UNSUPPORTED (R115; DESIGN
CHOICE, log entry 94). -/
def State.cmdTargets (s : State) (ch target cmd : Nat) : List Nat :=
  let dir := (s.headChain ch).dir
  if target = 63 then (dir.filter (fun e => e.2.valid)).map (·.1)
  else if cmd = 6 then (if dir.any (fun e => e.1 = target) then [] else [target]) ++ (dir.filter (fun e => target ≤ e.1 && e.2.valid && !isP12 e.2)).map (·.1)
  else [target]

/-- CMD_CTL is written with go = 1 (R118, R119): `v` is the word written, `cmd` its command. SET_EPOCH is armed at the head too, whichever its target (DESIGN CHOICE, log entry 141). -/
def State.cmdSend (s : State) (v cmd : Nat) : State :=
  if s.mode != .head then s
  else
    let ch := bitOf v 30
    let target := bitsOf v 29 24
    let s := s.wr Pg.chn CHN.CMD_CTL_sel ch
    let s := s.wr Pg.chn CHN.CMD_CTL_target target
    let s := s.wr Pg.chn CHN.CMD_CTL_cmd cmd
    let s := s.wr Pg.chn CHN.CMD_CTL_arg (bitsOf v 15 0)
    let arg := bitsOf v 15 0
    let tgo := s.rd Pg.chn CHN.CMD_TIME_LO_t_go_lo + 2 ^ 32 * s.rd Pg.chn CHN.CMD_TIME_HI_t_go_hi
    let h := s.headChain ch
    let ts := s.cmdTargets ch target cmd
    let s := s.wr Pg.chn CHN.CMD_STAT_expected ts.length
    let s := s.wr Pg.chn CHN.CMD_STAT_acked 0
    let s := s.wr Pg.chn CHN.CMD_STAT_first_bad 0
    let s := s.wr Pg.chn CHN.CMD_STAT_cause 0
    if tgo < s.chain.time + 2000 * s.rd Pg.chn CHN.CMD_TMO_cmd_tmo_us then s.cmdFail 0 0x11
    else if (cmd = 2 || cmd = 3) && target != 63 && h.dir.any (fun e => target < e.1 && e.2.valid && !h.asleep.contains e.1) then s.cmdFail target 0x10
    else
      let (n, s) := s.chainSeq
      let s := s.each (if cmd = 6 && target != 63 then ts else [target]) (fun s a =>
        s.chainSend (portOfChain ch) 1 a 0x20 n 24 (leBytes 1 cmd ++ [0] ++ leBytes 2 arg ++ leBytes 8 tgo))
      let s := s.wr Pg.chn CHN.CMD_STAT_st 1
      let own : List Armed := if (cmd = 4 && arg ≤ 5 && tgo % 1000000 = 0) || cmd = 6 then [{ seq := n, cmd := cmd, arg := if cmd = 6 then 64 * ch + target else arg, tgo := tgo }] else []
      { s with chain := { s.chain with cmdChain := ch + 1, cmdWait := ts, cmdSeq := n, cmdCode := cmd, armed := s.chain.armed ++ own } }

def execCmdPing (v : Nat) (s : State) : Host.Outcome State Fault Refusal := s.run (fun s => s.cmdSend v 1)
def execCmdSleepP2 (v : Nat) (s : State) : Host.Outcome State Fault Refusal := s.run (fun s => s.cmdSend v 2)
def execCmdSleepP3 (v : Nat) (s : State) : Host.Outcome State Fault Refusal := s.run (fun s => s.cmdSend v 3)
def execCmdSetEpoch (v : Nat) (s : State) : Host.Outcome State Fault Refusal := s.run (fun s => s.cmdSend v 4)
def execCmdHubReset (v : Nat) (s : State) : Host.Outcome State Fault Refusal := s.run (fun s => s.cmdSend v 5)
def execCmdReenum (v : Nat) (s : State) : Host.Outcome State Fault Refusal := s.run (fun s => s.cmdSend v 6)

/-- A bay sources VBUS with keep = 0 (R427). -/
def State.vbusUnkept (s : State) : Bool :=
  [0, 1, 2, 3].any (fun n => !s.fused n && (s.rd (Pg.vbs n) VBS.VBS_STAT_state = 1 || s.rd (Pg.vbs n) VBS.VBS_STAT_state = 2) &&
    !s.on (Pg.vbs n) VBS.VBS_STAT_sink && !s.on (Pg.vbs n) VBS.VBS_CFG_keep)

/-- Why the part refuses to sleep, 0 when it does not (R427). -/
def State.sleepRefusal (s : State) : Nat :=
  if s.mode = .head then 4
  else if s.vbusUnkept then 1
  else if s.update.kind != 0 then 2
  else if !s.on Pg.glb GLB.GLB_STAT_boot_done then 3
  else 0

/-- A refusal to sleep is recorded (R427). -/
def State.refuseSleep (s : State) (cause : Nat) : State :=
  ((s.wr Pg.pws PWS.PWS_STAT_refuse cause).bump Pg.pws PWS.SLEEP_CNT_refusals 1).raise Pg.pws PWS.ev_refused

/-- CMD_ACK leaves (R95). -/
def State.cmdAck (s : State) (seq status cmd : Nat) : State := s.chainSend s.tuRole 2 0 0x21 seq 8 (leBytes 1 status ++ leBytes 1 cmd)

/-- CMD at its target (R118): armed and acknowledged, or refused. -/
def State.cmdRx (s : State) (p : Port) (c : Cell) : State :=
  let cmd := ccArg c 4 1
  let arg := ccArg c 6 2
  let tgo := ccArg c 8 8
  if s.mode = .head then s
  else if !s.fromHome p c then s.foreign
  else if cmd = 0 || 6 < cmd then s.cmdAck (ccSeq c) 3 cmd
  else if cmd = 1 then s.cmdAck (ccSeq c) (if tgo < s.chain.time then 2 else 0) cmd
  else if tgo < s.chain.time || (cmd = 4 && (5 < arg || tgo % 1000000 != 0)) then s.cmdAck (ccSeq c) 2 cmd
  else if (cmd = 2 || cmd = 3) && s.sleepRefusal != 0 then (s.refuseSleep s.sleepRefusal).cmdAck (ccSeq c) 1 cmd
  else
    let s : State := { s with chain := { s.chain with armed := s.chain.armed ++ [{ seq := ccSeq c, cmd := cmd, arg := arg, tgo := tgo }] } }
    let s := if cmd = 2 || cmd = 3 then s.raise Pg.pws PWS.ev_armed else s
    s.cmdAck (ccSeq c) 0 cmd

def execCmdRx (p : Port) (c : Cell) (s : State) : Host.Outcome State Fault Refusal := s.run (fun s => s.msgIn p c (fun s => s.cmdRx p c))

/-- CANCEL leaves for a command (R119); what the head itself armed for it is disarmed. -/
def State.cancelSend (s : State) : State :=
  let n := s.chain.cmdSeq
  let s := s.chainSend (portOfChain (s.chain.cmdChain - 1)) 1 63 0x22 n 8 []
  { s with chain := { s.chain with armed := s.chain.armed.filter (fun a => a.seq != n) } }

/-- A command of the head fails at a target (R119): a sleep is cancelled. -/
def State.cmdBad (s : State) (addr cause : Nat) : State :=
  let s := s.cmdFail addr cause
  if s.chain.cmdCode = 2 || s.chain.cmdCode = 3 then s.cancelSend else s

/-- CMD_ACK at the home (R118, R119, R427). -/
def State.cmdAckRx (s : State) (p : Port) (c : Cell) : State :=
  let status := ccArg c 4 1
  let st := s.rd Pg.chn CHN.CMD_STAT_st
  if s.mode != .head || s.chain.cmdChain != chainOf p + 1 || ccSeq c != s.chain.cmdSeq then s
  else if st = 1 && s.chain.cmdWait.contains c.shub then
    let left := s.chain.cmdWait.filter (· != c.shub)
    let s : State := { s with chain := { s.chain with cmdWait := left } }
    if status != 0 then s.cmdBad c.shub status
    else
      let s := s.wr Pg.chn CHN.CMD_STAT_acked (s.rd Pg.chn CHN.CMD_STAT_acked + 1)
      if !left.isEmpty then s
      else
        let h := s.headChain (chainOf p)
        let s := if s.chain.cmdCode = 2 || s.chain.cmdCode = 3 then
            s.setHeadChain (chainOf p) { h with asleep := h.asleep ++ s.cmdTargets (chainOf p) (s.rd Pg.chn CHN.CMD_CTL_target) s.chain.cmdCode } else s
        (s.wr Pg.chn CHN.CMD_STAT_st 2).raise Pg.chn CHN.ev_cmd_done
  else if st = 2 && status = 1 then s.cmdFail c.shub 1
  else s

def execCmdAckRx (p : Port) (c : Cell) (s : State) : Host.Outcome State Fault Refusal := s.run (fun s => s.msgIn p c (fun s => s.cmdAckRx p c))

def execCmdTimeout (s : State) : Host.Outcome State Fault Refusal :=
  s.run (fun s => match s.chain.cmdWait.min? with
    | some a => if s.mode = .head && s.rd Pg.chn CHN.CMD_STAT_st = 1 then s.cmdBad a 0x12 else s
    | none => s)

/-- CANCEL at a hub (R119). -/
def State.cancelRx (s : State) (p : Port) (c : Cell) : State :=
  if s.mode = .head then s
  else if !s.fromHome p c then s.foreign
  else { s with chain := { s.chain with armed := s.chain.armed.filter (fun a => a.seq != ccSeq c) } }

def execCancelRx (p : Port) (c : Cell) (s : State) : Host.Outcome State Fault Refusal := s.run (fun s => s.msgIn p c (fun s => s.cancelRx p c))

/-- The oldest armed command of a code leaves the list. -/
def State.takeArmed (s : State) (cmd : Nat) : Option Armed × State :=
  match s.chain.armed.find? (fun a => a.cmd = cmd) with
  | some a => (some a, { s with chain := { s.chain with armed := s.chain.armed.erase a } })
  | none => (none, s)

/-- A pending table is dropped (R105, R168): the current bank runs on. -/
def State.dropNext (s : State) : State :=
  if s.sched.nxt.isSome || s.sched.tblIn.isSome then
    let s : State := { s with sched := { s.sched with nxt := none, calNext := {}, tblIn := none } }
    ((s.wr Pg.sch SCH.BANK_NEXT_pending 0).bump Pg.sch SCH.SCH_CNT_discards 1).raise Pg.sch SCH.ev_tbl_drop
  else s

/-- t_go of SET_EPOCH (R104): the code changes and a pending table is dropped. -/
def State.setEpoch (s : State) : State := match s.takeArmed 4 with
  | (some a, s) => ((s.wr Pg.ctim CTIM.CTIM_CFG_epoch_code a.arg).dropNext).raise Pg.ctim CTIM.ev_epoch_change
  | (none, s) => s

def execSetEpochApply (s : State) : Host.Outcome State Fault Refusal := s.run State.setEpoch

/-- t_go of REENUM (R118): a hub becomes homeless; the home drops the target and what lies beyond, and enumerates from it; after a broadcast from address 1 (DEDUCED, log entry 94). -/
def State.reenum (s : State) : State := match s.takeArmed 6 with
  | (none, s) => s
  | (some a, s) =>
    if s.mode = .head then
      let ch := a.arg / 64
      let t := if a.arg % 64 = 63 then 1 else a.arg % 64
      let h := s.headChain ch
      let s := (s.setHeadChain ch { h with dir := h.dir.filter (fun e => e.1 < t), standbyId := 0 }).dropLinks ch t
      ((s.wr Pg.chn (CHN.CHAIN_STAT_state ch) 1).dirStats ch).enumNext ch
    else if s.homed then s.becomeHomeless
    else s

def execReenumApply (s : State) : Host.Outcome State Fault Refusal := s.run State.reenum

end Sys2Proof.Machine
end

