-- ==== Sys2Proof/Machine/TunnelOps.lean ====
section
/-!
DEFINITION. Sys2Proof/Machine/TunnelOps.lean: tunnel entries at a part (R150, R153, R154), the head's admission and its tunnel jobs (R153,
R160, R161), capacity of hops (R155, R158, R514), the calendar builder (R157, R159) and elastic sources (R172).
-/
namespace Sys2Proof.Machine

open Sys2Proof

/-! ### Entries at a part (R150, R154) -/

def State.setTun (s : State) (n : Nat) (e : TunEnt) : State := { s with sched := { s.sched with tun := Tab.put n e s.sched.tun } }

/-- A bit of a bitmap of TUN1. -/
def State.setBit (s : State) (f : Nat → Fld) (n : Nat) (b : Bool) : State :=
  let w := s.rd Pg.tun1 (f (n / 32))
  let w := w - bitOf w (n % 32) * 2 ^ (n % 32)
  s.wr Pg.tun1 (f (n / 32)) (w + b2n b * 2 ^ (n % 32))

def State.bit1 (s : State) (f : Nat → Fld) (n : Nat) : Bool := bitOf (s.rd Pg.tun1 (f (n / 32))) (n % 32) = 1

/-- The bitmap of a half's valid bits. -/
def validMap (h : Nat) : Nat → Fld := if h = 0 then TUN1.VALID0_valid0 else TUN1.VALID1_valid1

/-- A routing word without its read-only act bit. -/
def Tun.bare (w : Nat) : Nat := w - bitOf w 28 * 2 ^ 28

/-- What a write of a half leaves as it is (R154): the tunnel was and stays valid between the same functions. -/
def Tun.same (a b : Nat) : Bool :=
  Tun.v a && Tun.v b && Tun.shub a = Tun.shub b && Tun.sport a = Tun.sport b && Tun.dhub a = Tun.dhub b && Tun.dport a = Tun.dport b

/-- A part writes a routing half: its counter and its resequencers start at 0 when the half becomes valid or moves (R154, R85). -/
def State.putHalf (s : State) (n h w : Nat) : State :=
  let e := s.tunEnt n
  let old := if h = 0 then e.w0 else e.w1
  let s := (s.setTun n (if h = 0 then { e with w0 := Tun.bare w } else { e with w1 := Tun.bare w })).regroup s
  if !Tun.v w || Tun.same old w then s
  else
    let k := 0x100000 + n * 2 + h
    let g := s.gran
    { s with gran := { g with seqs := Tab.put k 0 g.seqs, lastPosted := Tab.del k g.lastPosted, rsqs := g.rsqs.map (fun r => if r.1 = k then (r.1, { r.2 with exp := 0 }) else r) } }

/-- A part deletes a routing half; cells in its own queue move to the G class queue (R125). -/
def State.dropHalf (s : State) (n h : Nat) : State :=
  let e := s.tunEnt n
  let e : TunEnt := if h = 0 then { e with w0 := 0 } else { e with w1 := 0 }
  (if e.w0 = 0 && e.w1 = 0 then { s with sched := { s.sched with tun := Tab.del n s.sched.tun } } else s.setTun n e : State).regroup s

/-- A port code that a hub does not have (R153, R16): a fused bay, the host port, a reserved code. -/
def State.lacksPort (s : State) (code : Nat) : Bool := 8 ≤ code || (1 ≤ code && code ≤ 4 && s.fused (code - 1))

/-- A hub refuses an entry that names a port or a bay that it does not have (R153). -/
def State.refusesEntry (s : State) (w : Nat) : Bool :=
  (Tun.shub w = s.addr && s.lacksPort (Tun.sport w)) ||
    (Tun.dhub w = s.addr && (s.lacksPort (Tun.dport w) || (Tun.dport w = 5 && s.fused (Tun.dbay w))))

/-- A routing word names, at the part itself, a fused bay or a reserved port (R16, R153, R513); `src` and `dst` say which of its ends are this part's. -/
def State.lacksOwn (s : State) (w : Nat) (src dst : Bool) : Bool :=
  let bad := fun code => code != 8 && s.lacksPort code
  (src && bad (Tun.sport w)) || (dst && (bad (Tun.dport w) || (Tun.dport w = 5 && s.fused (Tun.dbay w))))

/-- A tunnel-entry message at a hub (R153). -/
def State.tunMsg (s : State) (c : Cell) : State :=
  if s.mode != .hub || !s.homed then s
  else
    let op := numAt c.payload 0 1
    let seq := numAt c.payload 2 2
    let n := numAt c.payload 4 2 % 4096
    let w := numAt c.payload 8 4
    let answer := fun (s : State) (code status : Nat) => s.sendCore s.tuRole 0xA 5 0 0 (leBytes 1 code ++ [0] ++ leBytes 2 seq ++ leBytes 1 status ++ [0, 0, 0])
    if op = 1 then
      (if s.refusesEntry w then answer s 0x81 1
       else answer (((s.putHalf n 0 w).setBit TUN1.VALID0_valid0 n (Tun.v w)).raise Pg.tun0 TUN.ev_tun_set) 0x81 0)
    else if op = 2 then answer (((s.dropHalf n 0).setBit TUN1.VALID0_valid0 n false).raise Pg.tun0 TUN.ev_tun_set) 0x82 0
    else s

/-- A cell of tunnel 4, 6 or 7 at a hub does not come from its home (R100). -/
def State.notHomes (s : State) (p : Port) (c : Cell) : Bool := s.mode = .hub && !s.fromHome p c

/-! ### Elastic sources (R172) -/

/-- e_min and e_max of parameter words (R151). -/
def eMin (w2 : Nat) : Nat := max 1 (bitsOf w2 28 16)
def eMax (w2 : Nat) : Nat := bitsOf w2 12 0

/-- The rate of an elastic tunnel sourced here: the bank's; standalone TUN_W3.rate in its envelope (R152); before the first table that of R172, for which a head has its parameter words and
a hub, to which no message carries them, `Config.startRate` (log entry 82). -/
def State.eRateOf (s : State) (n : Nat) : Nat :=
  let e := s.tunEnt n
  if s.mode = .standalone || s.mode = .reserved then
    let r := bitsOf e.w3 12 0
    if r = 0 then max (eMin e.w2) (eMax e.w2) else max (eMin e.w2) (min r (eMax e.w2))
  else (Tab.find n s.sched.cur.rate).getD (if s.mode = .head then max (eMin e.w2) (ceilDiv (eMax e.w2) 16) else max 1 (Config.startRate n % 8192))

/-- The shaper's unit: tokens are counted in parts of a cell, so that a rate per 125 µs accrues exactly each ns. -/
def tokenUnit : Int := 125000

def State.tokensOf (s : State) (n : Nat) : Int := (Tab.find n s.sched.tokens).getD 0

def State.setTokens (s : State) (n : Nat) (v : Int) : State := { s with sched := { s.sched with tokens := Tab.put n v s.sched.tokens } }

/-- An elastic packet leaves whole when a token is there, else it waits in its turn (R172). -/
def State.shapeOne (s : State) (x : Shaped) : State :=
  let n := x.cell.tunnel
  if s.sched.shaped.any (fun y => y.cell.tunnel = n) || s.tokensOf n < tokenUnit then { s with sched := { s.sched with shaped := s.sched.shaped ++ [x] } }
  else (s.setTokens n (s.tokensOf n - (max 1 (ceilDiv x.bytes.length 256) : Nat) * tokenUnit)).sendPacket x.src x.port x.cell x.bytes

/-- A packet of a tunnel sourced here: an elastic one through its shaper, every other at once. -/
def State.source (s : State) (src : Nat) (p : Port) (c : Cell) (bytes : List Byte) : State :=
  if c.cls = clsE && 16 ≤ c.tunnel then s.shapeOne ⟨src, p, c, bytes⟩ else s.sendPacket src p c bytes

/-- The elastic tunnels that this part sources. -/
def State.eSourced (s : State) : List Nat :=
  (s.sched.tun.filter (fun e => [e.2.w0, e.2.w1].any (fun w => Tun.v w && Tun.cls w = clsE && Tun.shub w = (if s.mode = .head then 0 else s.addr)))).map (·.1)

/-- Tokens accrue for some ns, up to the bucket's size, and what waits for them leaves (R172). -/
def State.accrue (s : State) (ns : Nat) : State :=
  let s := s.each s.eSourced (fun s n =>
    let r := s.eRateOf n
    let cap : Int := (max 16 (ceilDiv r 8) : Nat) * tokenUnit
    let t := s.tokensOf n + (r * ns : Nat)
    s.setTokens n (if cap < t then cap else t))
  let l := s.sched.shaped
  ({ s with sched := { s.sched with shaped := [] } }).each l State.shapeOne

/-! ### Capacity of hops as the head knows it (R155, R160, R514) -/

/-- A hop in one direction: the address of its home-side end; away from the home 0, toward it 1 (HOP_SEL). -/
structure Hop where
  near : Nat
  dir  : Nat
deriving DecidableEq, Repr

def hopKey (ch : Nat) (h : Hop) : Nat := ch * 128 + h.dir * 64 + h.near

/-- What the head knows of the port of a hub that holds a role: its link state, else what ENUM_REPLY said. -/
def State.linkOf (s : State) (ch addr : Nat) (isTu : Bool) : Option LinkState :=
  match (s.sched.links.filter (fun x => x.1 / 2 = 64 * ch + addr && x.2.isTu = isTu)).getLast? with
  | some x => some x.2
  | none => match Tab.find addr (s.headChain ch).dir with
    | none => none
    | some e =>
      let b := if isTu || isP12 e then e.tuB else e.tdB
      some { mode := b / 16, rx := b / 4 % 4, tx := b % 4, rtt := e.rtt, isTu := isTu, time := 0 }

/-- Mode and lanes of a direction of a hop: the sender's transmit lanes or the receiver's receive lanes, whichever report is newer; the
head's own port as it stands (R514). -/
def State.hopLanes (s : State) (ch : Nat) (h : Hop) : Nat × Nat :=
  let p := portOfChain ch
  if h.near = 0 then (s.trkF p TRK.PORT_STAT_mode, if h.dir = 0 then s.trkF p TRK.PORT_STAT_tx_lanes else s.trkF p TRK.PORT_STAT_rx_lanes ||| (s.trunk p).readyLanes)
  else
    let a := s.linkOf ch h.near false
    let b := s.linkOf ch (h.near + 1) true
    let la := fun (x : LinkState) => (x.mode, if h.dir = 0 then x.tx else x.rx)
    let lb := fun (x : LinkState) => (x.mode, if h.dir = 0 then x.rx else x.tx)
    match a, b with
    | some x, some y => if serialDist 32 x.time y.time < 2 ^ 31 then lb y else la x
    | some x, none => la x
    | none, some y => lb y
    | none, none => (0, 0)

/-- S_h of a hop. -/
def State.hopS (s : State) (ch : Nat) (h : Hop) : Nat := let l := s.hopLanes ch h; slotsOf l.1 l.2

/-- t_slot of a hop in tenths of a ns. -/
def State.hopT (s : State) (ch : Nat) (h : Hop) : Nat := let l := s.hopLanes ch h; slotTenths l.1 l.2

/-- The last address of the chain's directory. -/
def State.lastHub (s : State) (ch : Nat) : Nat := (((s.headChain ch).dir.filter (fun e => e.2.valid)).map (·.1)).foldl max 0

/-- The hops of a chain, both directions. -/
def State.hops (s : State) (ch : Nat) : List Hop := (List.range (s.lastHub ch)).flatMap (fun n => [⟨n, 0⟩, ⟨n, 1⟩])

/-- The hops of a tunnel along its direction of travel. -/
def pathOf (shub dhub : Nat) : List Hop :=
  if shub ≤ dhub then (List.range (dhub - shub)).map (fun k => ⟨shub + k, 0⟩) else (List.range (shub - dhub)).map (fun k => ⟨shub - 1 - k, 1⟩)

def Tun.path (w : Nat) : List Hop := pathOf (Tun.shub w) (Tun.dhub w)

/-- log2 of the largest power of two at or below a number, none at 0 (R158). -/
def log2Floor (n : Nat) : Option Nat := ((List.range 40).filter (fun k => 2 ^ k ≤ n)).getLast?

/-- The periods of a G tunnel along its path, as log2, by R158; none where one is 0. `prev` is the period and slot time of the hop before. -/
def periodsFrom (f : Nat) : Option (Nat × Nat) → List (Nat × Nat) → Option (List Nat)
  | _, [] => some []
  | prev, (sh, t) :: rest =>
    let x := match prev with
      | none => if f = 0 then 0 else sh / f
      | some (p, tp) => if t = 0 then 0 else 2 ^ p * tp / t
    match log2Floor x with
    | none => none
    | some p => (periodsFrom f (some (min 12 p, t)) rest).map (fun l => min 12 p :: l)

def State.periods (s : State) (ch : Nat) (path : List Hop) (f : Nat) : Option (List Nat) :=
  periodsFrom f none (path.map (fun h => (s.hopS ch h, s.hopT ch h)))

/-- Costs of a tunnel on its hops (R158). -/
def State.costs (s : State) (ch : Nat) (path : List Hop) (ps : List Nat) : List (Nat × Nat) :=
  (path.zip ps).map (fun x => (hopKey ch x.1, ceilDiv (s.hopS ch x.1) (2 ^ x.2)))

/-- An entry as the head has admitted it. -/
def State.cfgEnt (s : State) (n : Nat) : TunEnt := (Tab.find n s.sched.cfg).getD {}

/-- The tunnels of a class that the head has admitted on a chain: tunnel ID, routing word, entry. -/
def State.admitted (s : State) (ch cls : Nat) : List (Nat × Nat × TunEnt) :=
  (s.sched.cfg.filter (fun e => let w := e.2.half ch; Tun.v w && Tun.cls w = cls)).map (fun e => (e.1, e.2.half ch, e.2))

/-- The G use of a chain's hops by admitted tunnels other than `not` (R161). -/
def State.gUse (s : State) (ch not : Nat) : Tab Nat :=
  (s.admitted ch clsG).foldl (fun t x =>
    if x.1 = not then t
    else match s.periods ch (Tun.path x.2.1) (bitsOf x.2.2.w2 28 16) with
      | none => t
      | some ps => (s.costs ch (Tun.path x.2.1) ps).foldl (fun t c => tabAdd t c.1 c.2) t) []

/-- gcap of a hop with a share in sixteenths (R161). -/
def State.gcap (s : State) (ch : Nat) (h : Hop) (share : Nat) : Nat := s.hopS ch h * share / 16

/-- What a hop keeps free for M and T (R155). -/
def State.kept (s : State) (ch : Nat) (h : Hop) : Nat :=
  ceilDiv (s.hopS ch h * s.rd Pg.alt ALT.ALT_CFG_m_share) 16 + ceilDiv (s.hopS ch h * s.rd Pg.alt ALT.ALT_CFG_t_share) 16

/-! ### Admission (R161) -/

/-- Result codes of R161 and R175. -/
def tunOk : Nat := 0x00
def tunBusy : Nat := 0x01
def tunReserved : Nat := 0x02
def tunNoHub : Nat := 0x03
def tunCapacity : Nat := 0x04
def tunRate : Nat := 0x05
def tunDupG : Nat := 0x06
def tunDupClass : Nat := 0x07
def tunP1200 : Nat := 0x08
def tunEnvelope : Nat := 0x0A
def tunNoAck : Nat := 0x0B
def tunNotHead : Nat := 0x0C
def tunBadOp : Nat := 0x0D

/-- An address is in a chain's directory; the head itself is 0. -/
def State.inDir (s : State) (ch a : Nat) : Bool := a = 0 || (match Tab.find a (s.headChain ch).dir with
  | some e => e.valid
  | none => false)

/-- A path's hop is a standby or a boundary hop (R94, R110). -/
def State.badHop (s : State) (ch : Nat) (h : Hop) : Bool := let x := s.headChain ch; x.boundaryAt != 0 && x.boundaryAt = h.near

/-- A path touches a P1200 (R115). -/
def State.crossesP12 (s : State) (ch : Nat) (w : Nat) : Bool :=
  (s.headChain ch).dir.any (fun e => isP12 e.2 && min (Tun.shub w) (Tun.dhub w) ≤ e.1 && e.1 ≤ max (Tun.shub w) (Tun.dhub w))

/-- The check of one G half: a `hold` that is not 0 (R151) is outside its envelope as a `ceil` is (log entry 143). -/
def State.admitG (s : State) (n ch w w2 w3 : Nat) : Nat :=
  let f := bitsOf w2 28 16
  let path := Tun.path w
  if s.crossesP12 ch w && !s.on Pg.chn CHN.CHN_CFG_g_via_p1200 then tunP1200
  else if f = 0 || bitsOf w2 12 0 != 0 || bitOf w3 22 = 1 then tunEnvelope
  else match s.periods ch path f with
    | none => tunRate
    | some ps =>
      let use := s.gUse ch n
      let share := s.rd Pg.alt ALT.ALT_CFG_g_share
      if (path.zip (s.costs ch path ps)).any (fun x => s.gcap ch x.1 share < (Tab.find x.2.1 use).getD 0 + x.2.2) then tunCapacity else tunOk

/-- The check of one E half: its envelope, and the sum of e_min on every hop against the budget at f = 256 (R161, R165), without what the entry itself has taken as a G tunnel. -/
def State.admitE (s : State) (n ch w w2 : Nat) : Nat :=
  let path := Tun.path w
  let use := s.gUse ch n
  let others := (s.admitted ch clsE).filter (fun x => x.1 != n)
  if eMax w2 < eMin w2 then tunEnvelope
  else if path.any (fun h =>
      s.hopS ch h - (Tab.find (hopKey ch h) use).getD 0 - s.kept ch h <
        eMin w2 + sumNat ((others.filter (fun x => (Tun.path x.2.1).contains h)).map (fun x => eMin x.2.2.w2))) then tunEnvelope
  else tunOk

/-- The parameter words say something beside `ph` and their read-only bits. -/
def paramsSet (w2 w3 : Nat) : Bool := w2 != 0 || bitsOf w3 31 24 != 0 || bitsOf w3 22 22 != 0 || bitsOf w3 12 0 != 0

/-- Admission of an entry at a head (R161): the first check in the order of the table that fails. A port or bay of its own that the head does not have (R513) is refused as an absent hub is
(log entry 144). -/
def State.admission (s : State) (n : Nat) (e : TunEnt) : Nat :=
  let ph := bitOf e.w3 23
  let hs := [0, 1].filter (fun h => Tun.v (e.half h))
  let ge := hs.filter (fun h => Tun.cls (e.half h) = clsG || Tun.cls (e.half h) = clsE)
  let gOrE := fun h => if Tun.cls (e.half h) = clsG then s.admitG n h (e.half h) (if ph = h then e.w2 else 0) (if ph = h then e.w3 else 0) else s.admitE n h (e.half h) (if ph = h then e.w2 else 0)
  if n < 16 then tunReserved
  else if hs.any (fun h => !s.inDir h (Tun.shub (e.half h)) || !s.inDir h (Tun.dhub (e.half h)) || (Tun.path (e.half h)).any (s.badHop h)) then tunNoHub
  else if hs.any (fun h => s.lacksOwn (e.half h) (Tun.shub (e.half h) = 0) (Tun.dhub (e.half h) = 0)) then tunNoHub
  else match ge with
    | [h] => gOrE h
    | [] => if paramsSet e.w2 e.w3 then tunEnvelope else tunOk
    | _ => if Tun.cls e.w0 = clsG && Tun.cls e.w1 = clsG then tunDupG else tunDupClass

/-! ### Jobs of the head's tunnel logic (R153, R154) -/

/-- The hubs that hold an entry for a half: G every hub on the path, else the destination (R153); a P1200 holds none (R115). -/
def State.holders (s : State) (ch w : Nat) : List Nat :=
  let lo := min (Tun.shub w) (Tun.dhub w)
  let all := if Tun.cls w = clsG then (List.range (max (Tun.shub w) (Tun.dhub w) + 1 - lo)).map (fun k => lo + k) else [Tun.dhub w]
  all.filter (fun a => match Tab.find a (s.headChain ch).dir with
    | some e => !isP12 e
    | none => true)

/-- A tunnel-entry message leaves (R153). -/
def State.tunSend (s : State) (x : TunStep) (addr seq : Nat) : State :=
  s.sendCore (portOfChain x.half) 0xA 6 addr 0
    (leBytes 1 (if x.del then 2 else 1) ++ [0] ++ leBytes 2 seq ++ leBytes 2 x.tunnel ++ [0, 0] ++ leBytes 4 (if x.del then 0 else Tun.bare x.word))

def State.setOp (s : State) (o : Option TunOp) : State := { s with sched := { s.sched with op := o } }

/-- The addresses that a phase of a step concerns: R153 steps 3 and 5, R154 steps 1 and 3. -/
def State.phaseAddrs (s : State) (x : TunStep) (phase : Nat) : List Nat :=
  if phase = 2 then [Tun.shub x.word] else (s.holders x.half x.word).filter (· != Tun.shub x.word)

/-- A phase starts: the head writes its own entry, messages go to the others. -/
def State.startPhase (s : State) (x : TunStep) (phase : Nat) (did : List Nat) : State :=
  let as := s.phaseAddrs x phase
  let s := if as.contains 0 then (if x.del then s.dropHalf x.tunnel x.half else s.putHalf x.tunnel x.half x.word) else s
  let out := as.filter (fun a => a != 0 && s.inDir x.half a)
  let n := s.sched.opSeq
  let w := (List.range out.length).map (fun i => (out.getD i 0, (n + i) % 65536))
  let s : State := { s with sched := { s.sched with opSeq := (n + out.length) % 65536 } }
  let s := s.setOp (some { step := x, phase := phase, wait := w, did := did ++ (as.filter (· = 0)) })
  s.each w (fun s a => s.tunSend x a.1 a.2)

/-- A step ends: the head's own view of the half follows (R153 step 6). A set that failed leaves the half invalid, whatever it was before (step 6a). -/
def State.finishStep (s : State) (x : TunStep) (ok : Bool) : State :=
  let s := s.setOp none
  if !x.del && ok then (s.putHalf x.tunnel x.half x.word).setBit (validMap x.half) x.tunnel true
  else (s.dropHalf x.tunnel x.half).setBit (validMap x.half) x.tunnel false

/-- The next phase of a step whose answers are all in; none when the step has ended. -/
def nextPhase (x : TunStep) (phase : Nat) : Option Nat :=
  if x.del then (match phase with
    | 2 => some 3
    | 3 => some 1
    | _ => none)
  else (match phase with
    | 1 => some 2
    | _ => none)

/-- Set a job's result, unless one is set. -/
def TunJob.fail (j : TunJob) (code : Nat) : TunJob := { j with result := if j.result = 0 then code else j.result }

/-- A job ends: TUN_CMD completes, or the VHC logic takes it up. -/
def State.endJob (s : State) (j : TunJob) : State :=
  if j.cmd then
    let s := s.wr Pg.tun0 TUN.TUN_STAT_result j.result
    if j.result = 0 then s.raise Pg.tun0 TUN.ev_tun_done else s
  else { s with sched := { s.sched with ended := s.sched.ended ++ [j] } }

/-- Go on with the jobs as far as nothing is awaited (structural on the fuel). -/
def State.runJobs : Nat → State → State
  | 0, s => s
  | k + 1, s => match s.sched.op with
    | some o =>
      if !o.wait.isEmpty then s
      else (match nextPhase o.step o.phase with
        | some 3 => s.setOp (some { o with phase := 3, wait := [(64, 0)] })
        | some p => State.runJobs k (s.startPhase o.step p o.did)
        | none => State.runJobs k (s.finishStep o.step true))
    | none => match s.sched.jobs with
      | [] => s.wr Pg.tun0 TUN.TUN_STAT_busy 0
      | j :: rest => match j.steps with
        | [] => State.runJobs k (({ s with sched := { s.sched with jobs := rest } }).endJob j)
        | x :: more =>
          let s : State := { s with sched := { s.sched with jobs := { j with steps := more } :: rest } }
          State.runJobs k (s.startPhase x (if x.del then 2 else 1) [])

/-- Fuel for `runJobs`: every job has at most a few steps of four phases. -/
def State.jobFuel (s : State) : Nat := 8 + 6 * sumNat (s.sched.jobs.map (fun j => j.steps.length + 1))

def State.goJobs (s : State) : State := State.runJobs s.jobFuel s

/-- The steps that lead from one entry to another: a half that changes its hubs or its class is deleted first (DEDUCED, log entry 21). -/
def stepsOf (n : Nat) (a b : TunEnt) : List TunStep :=
  [0, 1].flatMap (fun h =>
    let x := Tun.bare (a.half h)
    let y := Tun.bare (b.half h)
    let moved := Tun.shub x != Tun.shub y || Tun.dhub x != Tun.dhub y || Tun.cls x != Tun.cls y
    (if Tun.v x && (!Tun.v y || moved) then [(⟨true, h, n, x⟩ : TunStep)] else []) ++ (if Tun.v y && x != y then [(⟨false, h, n, y⟩ : TunStep)] else []))

/-- The loop of an E tunnel starts or is re-seeded by an entry's rate (R166, R172); a value outside the envelope is clamped and pinned. -/
def State.seedE (s : State) (n ch : Nat) (old new : TunEnt) : State :=
  let k := 4096 * ch + n
  let r := bitsOf new.w3 12 0
  let put := fun (s : State) (v : Nat) => ({ s with sched := { s.sched with eRate := Tab.put k v s.sched.eRate } } : State)
  let fresh := !(Tun.v (old.half ch) && Tun.cls (old.half ch) = clsE)
  if fresh && r = 0 then put s (max (eMin new.w2) (ceilDiv (eMax new.w2) 16))
  else
    let v := max (eMin new.w2) (min r (eMax new.w2))
    let s := put s v
    if v = r then s
    else
      let s := s.wr Pg.alt ALT.E_PIN_tunnel n
      let s := s.wr Pg.alt ALT.E_PIN_at_max (b2n (eMax new.w2 < r))
      (s.bump Pg.alt ALT.E_PIN_count 1).raise Pg.alt ALT.ev_e_pinned

/-- The head takes an admitted entry over; the parameter words of its own hardware entry follow. -/
def State.takeEntry (s : State) (n : Nat) (e : TunEnt) : State :=
  let old := s.cfgEnt n
  let cfg := if e = {} then Tab.del n s.sched.cfg else Tab.put n e s.sched.cfg
  let s : State := { s with sched := { s.sched with cfg := cfg } }
  let s := if e = {} then s else s.setTun n { s.tunEnt n with w2 := e.w2, w3 := e.w3 }
  match [0, 1].find? (fun h => Tun.v (e.half h) && Tun.cls (e.half h) = clsE) with
  | some h => s.seedE n h old e
  | none => s

/-- The head takes admitted entries over, and one job carries them out. -/
def State.commitEntries (s : State) (es : List (Nat × TunEnt)) (j : TunJob) : State :=
  let r := es.foldl (fun (r : State × List TunStep) x => (r.1.takeEntry x.1 x.2, r.2 ++ stepsOf x.1 (r.1.cfgEnt x.1) x.2)) (s, [])
  let s := r.1.wr Pg.tun0 TUN.TUN_STAT_busy 1
  let s : State := { s with sched := { s.sched with jobs := s.sched.jobs ++ [{ j with steps := r.2 }] } }
  if s.sched.op.isSome then s else s.goJobs

def State.commitEntry (s : State) (n : Nat) (e : TunEnt) (j : TunJob) : State := s.commitEntries [(n, e)] j

/-- TUN_CMD is refused (R161). -/
def State.tunRefuse (s : State) (code : Nat) : State :=
  ((s.wr Pg.tun0 TUN.TUN_STAT_result code).bump Pg.alt ALT.ALT_CNT_refusals 1).raise Pg.tun0 TUN.ev_refused

/-- TUN_DATA0–3 as an entry: act, nobound and the reserved bits are not written (R150, R151). -/
def State.tunData (s : State) : TunEnt :=
  let w2 := s.rd Pg.tun0 (TUN.TUN_DATA_data 2)
  let w3 := s.rd Pg.tun0 (TUN.TUN_DATA_data 3)
  { w0 := Tun.bare (s.rd Pg.tun0 (TUN.TUN_DATA_data 0)), w1 := Tun.bare (s.rd Pg.tun0 (TUN.TUN_DATA_data 1)),
    w2 := bitsOf w2 28 16 * 2 ^ 16 + bitsOf w2 12 0, w3 := bitsOf w3 31 22 * 2 ^ 22 + bitsOf w3 12 0 }

def State.setTunData (s : State) (e : TunEnt) : State :=
  (((s.wr Pg.tun0 (TUN.TUN_DATA_data 0) e.w0).wr Pg.tun0 (TUN.TUN_DATA_data 1) e.w1).wr Pg.tun0 (TUN.TUN_DATA_data 2) e.w2).wr Pg.tun0 (TUN.TUN_DATA_data 3) e.w3

/-- The act bit of a half at this part (R150, R152). -/
def State.actOf (s : State) (n h : Nat) : Bool :=
  let w := if s.mode = .head then (s.cfgEnt n).half h else s.half n h
  Tun.v w && (if Tun.cls w = clsG then (if s.mode = .head then s.sched.inForce.any (fun a => a.chain = h && a.tunnel = n && !a.susp)
                                        else (Tab.find (2 * n) s.sched.cur.per).isSome || (Tab.find (2 * n + 1) s.sched.cur.per).isSome)
    else if Tun.cls w = clsE then (if s.mode = .head then (Tab.find (4096 * h + n) s.sched.eRate).isSome
                                   else s.mode = .standalone || s.mode = .reserved || (Tab.find n s.sched.cur.rate).isSome)
    else false)

/-- An entry as TUN_DATA shows it (R150, R151). -/
def State.tunShown (s : State) (n : Nat) : TunEnt :=
  let e := if s.mode = .head then s.cfgEnt n else s.tunEnt n
  let act := fun h => b2n (s.actOf n h) * 2 ^ 28
  let ph := [0, 1].find? (fun h => Tun.v (e.half h) && (Tun.cls (e.half h) = clsG || Tun.cls (e.half h) = clsE))
  let fixed := e.w3 / 2 ^ 22 * 2 ^ 22
  let w3 := match ph with
    | none => e.w3
    | some h =>
      if s.mode != .head then e.w3
      else if Tun.cls (e.half h) = clsG then fixed + b2n (s.crossesP12 h (e.half h)) * 2 ^ 21 + bitsOf e.w2 28 16
      else fixed + (Tab.find (4096 * h + n) s.sched.eRate).getD 0
  { e with w0 := e.w0 + act 0, w1 := e.w1 + act 1, w3 := w3 }

/-- The part's own TUN_CMD serves writes: a head, or a standalone part (R152). -/
def State.alone (s : State) : Bool := s.mode = .standalone || s.mode = .reserved

/-- TUN_CMD completes with a result code. -/
def State.tunResult (s : State) (code : Nat) : State := s.wr Pg.tun0 TUN.TUN_STAT_result code

/-- A command on TUN_CMD at a head: BUSY while one runs (R153 step 1); a hub answers NOT_HEAD (R152). -/
def State.tunCmd (s : State) (head alone : State → State) : State :=
  if s.mode = .head then (if s.on Pg.tun0 TUN.TUN_STAT_busy then s.tunResult tunBusy else head s)
  else if s.alone then alone s
  else s.tunResult tunNotHead

/-- Read (R175). -/
def State.tunRead (s : State) : State :=
  let f := fun (s : State) => (s.setTunData (s.tunShown (s.rd Pg.tun0 TUN.TUN_SEL_tunnel))).tunResult tunOk
  s.tunCmd f f

/-- The checks of a standalone part (R152, R161). -/
def admitAlone (n w0 w2 w3 : Nat) : Nat :=
  if n < 16 then tunReserved
  else if Tun.v w0 && Tun.cls w0 = clsG then tunEnvelope
  else if Tun.v w0 && Tun.cls w0 = clsE then (if eMax w2 < eMin w2 || bitOf w3 23 = 1 then tunEnvelope else tunOk)
  else if paramsSet w2 w3 then tunEnvelope else tunOk

/-- A standalone part writes its own half 0 and parameters (R152). -/
def State.writeAlone (s : State) (w0 w2 w3 : Nat) : State :=
  let n := s.rd Pg.tun0 TUN.TUN_SEL_tunnel
  let code := admitAlone n w0 w2 w3
  if code != 0 then s.tunResult code
  else if Tun.v w0 && s.lacksOwn w0 true true then s.tunResult tunNoHub
  else
    let s := if Tun.v w0 then s.putHalf n 0 w0 else s.dropHalf n 0
    let s := if Tun.v w0 then s.setTun n { s.tunEnt n with w2 := w2, w3 := w3 } else s
    (s.setBit TUN1.VALID0_valid0 n (Tun.v w0)).tunResult tunOk

/-- The class that a valid function of some VHC gives tunnel `n` of a chain (R17, R213): its T pair, or the aux tunnels of its kind. -/
def State.fnClass (s : State) (ch n : Nat) : Option Nat :=
  ((List.range 64).flatMap (fun v => (List.range 16).map (fun f => (v, f)))).findSome? (fun x =>
    let w := s.rd (Pg.vhc x.1) (VHC.DIR_CFG_cfg x.2)
    let t := s.rd (Pg.vhc x.1) (VHC.DIR_TUN_tun x.2)
    let a := s.rd (Pg.vhc x.1) (VHC.DIR_AUX_aux x.2)
    if w = 0 || dirChain w != ch then none
    else if bitsOf t 27 16 = n || bitsOf t 11 0 = n then some clsT
    else if bitsOf a 27 16 = n || bitsOf a 11 0 = n then some (if dirKind w = 2 then clsE else clsG)
    else none)

/-- A write would move a function's traffic to another class (R17). -/
def State.movesClass (s : State) (n : Nat) (e : TunEnt) : Bool :=
  [0, 1].any (fun h => Tun.v (e.half h) && (match s.fnClass h n with
    | some c => c != Tun.cls (e.half h)
    | none => false))

/-- A change of the selected entry at a head: admission, then the job (R153, R161). Host software cannot move a kind of traffic to another class (R17); such a write is refused as DUP_CLASS
(log entry 144). -/
def State.tunChange (s : State) (e : TunEnt) : State :=
  let n := s.rd Pg.tun0 TUN.TUN_SEL_tunnel
  let code := if 16 ≤ n && s.movesClass n e then tunDupClass else s.admission n e
  if code != 0 then s.tunRefuse code else s.commitEntry n e { steps := [], cmd := true }

/-- Write (R153). -/
def State.tunWrite (s : State) : State :=
  s.tunCmd (fun s => s.tunChange s.tunData) (fun s => s.writeAlone s.tunData.w0 s.tunData.w2 s.tunData.w3)

/-- Delete both halves (R154). -/
def State.tunDelete (s : State) : State :=
  s.tunCmd (fun s => let n := s.rd Pg.tun0 TUN.TUN_SEL_tunnel
    if n < 16 then s.tunRefuse tunReserved else s.commitEntry n {} { steps := [], cmd := true }) (fun s => s.writeAlone 0 0 0)

/-- Write the parameter words only (R151). -/
def State.tunParams (s : State) : State :=
  s.tunCmd (fun s => s.tunChange { s.cfgEnt (s.rd Pg.tun0 TUN.TUN_SEL_tunnel) with w2 := s.tunData.w2, w3 := s.tunData.w3 })
    (fun s => s.writeAlone (s.tunEnt (s.rd Pg.tun0 TUN.TUN_SEL_tunnel)).w0 s.tunData.w2 s.tunData.w3)

/-- An undefined operation (R161). -/
def State.tunBad (s : State) : State := s.tunCmd (fun s => s.tunRefuse tunBadOp) (fun s => s.tunResult tunBadOp)

/-- A step fails (R153 step 6a): it is undone at every hub that answered, the first silent hub is recorded, tun_fail raised. A refusal by a
hub ends the step in the same way (DEDUCED, log entry 22). -/
def State.stepFail (s : State) (o : TunOp) (hub : Nat) : State :=
  let x := o.step
  let s := s.wr Pg.tun0 TUN.TUN_FAIL_chain x.half
  let s := s.wr Pg.tun0 TUN.TUN_FAIL_hub hub
  let s := s.raise Pg.tun0 TUN.ev_tun_fail
  let s := if x.del then s
    else
      let s := if o.did.contains 0 then s.dropHalf x.tunnel x.half else s
      let s := s.each (o.did.filter (· != 0)) (fun s a =>
        let n := s.sched.opSeq
        ({ s with sched := { s.sched with opSeq := (n + 1) % 65536 } }).tunSend { x with del := true } a n)
      let e := s.cfgEnt x.tunnel
      { s with sched := { s.sched with cfg := Tab.put x.tunnel (if x.half = 0 then { e with w0 := 0 } else { e with w1 := 0 }) s.sched.cfg } }
  let s := s.finishStep x false
  let s : State := { s with sched := { s.sched with jobs := match s.sched.jobs with
    | [] => []
    | j :: rest => j.fail tunNoAck :: rest } }
  s.goJobs

/-- An answer to a tunnel-entry message (R153). -/
def State.tunAnswer (s : State) (p : Port) (c : Cell) : State := match s.sched.op with
  | none => s
  | some o =>
    let code := numAt c.payload 0 1
    let status := numAt c.payload 4 1
    if s.mode != .head || chainOf p != o.step.half || code != (if o.step.del then 0x82 else 0x81) || !o.wait.contains (c.shub, numAt c.payload 2 2) then s
    else
      let o := { o with wait := o.wait.filter (fun a => a.1 != c.shub), did := o.did ++ [c.shub] }
      if status != 0 then s.stepFail { o with did := o.did.filter (· != c.shub) } c.shub
      else (s.setOp (some o)).goJobs

/-- Answers are missing 1 ms after their messages (R153 step 6a). -/
def State.tunResend (s : State) : State := match s.sched.op with
  | none => s
  | some o =>
    if o.phase = 3 then s
    else match o.wait.map (·.1) |>.min? with
      | none => s
      | some hub =>
        if o.resends < 3 then (s.setOp (some { o with resends := o.resends + 1 })).each o.wait (fun s a => s.tunSend o.step a.1 a.2)
        else s.stepFail o hub

/-- The wait of R154 is over. -/
def State.tunWaited (s : State) : State := match s.sched.op with
  | some o => if o.phase = 3 then (s.setOp (some { o with wait := [] })).goJobs else s
  | none => s

/-! ### Calendars (R157, R159) -/

/-- The low `p` bits reversed. -/
def bitrev : Nat → Nat → Nat
  | 0, _ => 0
  | p + 1, n => n % 2 * 2 ^ p + bitrev p (n / 2)

/-- Two residue classes share a position. -/
def CalEnt.meets (a b : CalEnt) : Bool := let m := 2 ^ min a.p b.p; a.o % m = b.o % m

/-- Place a tunnel at the first offset at which all its positions are free; none where there is none. -/
def calPlace (l : List CalEnt) (n p : Nat) : Option (List CalEnt) :=
  ((List.range (2 ^ p)).find? (fun k => !l.any (fun e => e.meets ⟨n, p, bitrev p k⟩))).map (fun k => l ++ [⟨n, p, bitrev p k⟩])

/-- Place several in order. -/
def calPlaceAll : List (Nat × Nat) → List CalEnt → Option (List CalEnt)
  | [], l => some l
  | (n, p) :: t, l => (calPlace l n p).bind (calPlaceAll t)

/-- Insert in the order of R159: ascending period, descending priority, ascending tunnel ID. -/
def calInsert (pri : Nat → Nat) (x : Nat × Nat) : List (Nat × Nat) → List (Nat × Nat)
  | [] => [x]
  | y :: t => if x.2 < y.2 || (x.2 = y.2 && (pri y.1 < pri x.1 || (pri y.1 = pri x.1 && x.1 < y.1))) then x :: y :: t else y :: calInsert pri x t

/-- The next array of an egress from the current one and the periods wanted; the flag says that it was rebuilt from empty (R159). -/
def calBuild (pri : Nat → Nat) (cur : List CalEnt) (want : List (Nat × Nat)) : List CalEnt × Bool :=
  let want := want.foldl (fun l x => calInsert pri x l) []
  let kept := cur.filter (fun e => want.contains (e.tunnel, e.p))
  let fresh := want.filter (fun x => !kept.any (fun e => e.tunnel = x.1))
  match calPlaceAll fresh kept with
  | some l => (l, false)
  | none => ((calPlaceAll want []).getD [], true)

/-- The periods that a bank gives tunnels on a ball group's egress. -/
def Bank.egress (b : Bank) (g : Nat) : List (Nat × Nat) := (b.per.filter (fun x => x.1 % 2 = g)).map (fun x => (x.1 / 2, x.2))

/-- A next bank stands (R168): calendars are built from it. -/
def State.fillBank (s : State) (b : Bank) (full : Bool) (epoch : Nat) : State :=
  let pri := fun n => bitsOf (s.tunEnt n).w3 31 24
  let (u, ru) := calBuild pri s.sched.cal.tu (b.egress 0)
  let (d, rd) := calBuild pri s.sched.cal.td (b.egress 1)
  let s : State := { s with sched := { s.sched with nxt := some b, nxtFull := full, calNext := { tu := u, td := d } } }
  let s := s.each [Port.tu, Port.td] (fun s p => s.setTrunk p { s.trunk p with counted := (s.trunk p).readyLanes })
  let s := if ru || rd then (s.bump Pg.sch SCH.SCH_CNT_rebuilds 1).raise Pg.sch SCH.ev_cal_rebuild else s
  let s := s.wr Pg.sch SCH.BANK_NEXT_pending 1
  let s := s.wr Pg.sch SCH.BANK_NEXT_next_ver b.ver
  s.wr Pg.sch SCH.SWAP_EPOCH_swap_epoch epoch

/-- A table's record applied to a bank (R167): the egress roles become ball groups. -/
def applyRec (tu : Nat) (b : Bank) (r : TblRec) : Bank := match r.kind with
  | 0 => { b with per := Tab.put (2 * r.tunnel + tu) (r.value % 16) b.per }
  | 1 => { b with per := Tab.put (2 * r.tunnel + (1 - tu)) (r.value % 16) b.per }
  | 2 => { b with rate := Tab.put r.tunnel r.value b.rate }
  | 3 => { b with per := Tab.del (2 * r.tunnel) (Tab.del (2 * r.tunnel + 1) b.per) }
  | 4 => { b with rate := Tab.del r.tunnel b.rate }
  | _ => b

/-- The number of the epoch that runs. -/
def State.epochNow (s : State) : Nat := s.chain.time / s.epochLen

/-- A table is discarded (R168). -/
def State.discardTable (s : State) (e : Ev) : State :=
  let s : State := { s with sched := { s.sched with tblIn := none } }
  (s.bump Pg.sch SCH.SCH_CNT_discards 1).raise Pg.sch e

/-- The last part of a table has come: the next bank is filled, or the table is discarded (R168). -/
def State.tableDone (s : State) (t : TblIn) : State :=
  let full := t.base = 0xFFFF
  let ahead := serialDist 32 (s.epochNow % 2 ^ 32) t.epoch
  let late := 2 ^ 31 ≤ ahead || ahead = 0 || (s.epochNow + ahead) * s.epochLen < s.chain.time + 50000
  if late then
    let s := (s.discardTable SCH.ev_tbl_late).wr Pg.sch SCH.BANK_NEXT_needs_full 1
    { s with sched := { s.sched with tblLate := true } }
  else if !full && t.base != s.sched.cur.ver then (s.discardTable SCH.ev_tbl_base).wr Pg.sch SCH.BANK_NEXT_needs_full 1
  else
    let b : Bank := if full then {} else s.sched.cur
    let b := t.recs.foldl (applyRec (Port.idx s.tuRole)) b
    let s : State := { s with sched := { s.sched with tblIn := none } }
    s.fillBank { b with ver := t.ver } full t.epoch

/-- Records of a table part (R167). -/
def tblRecs (l : List Byte) (n : Nat) : List TblRec :=
  (List.range n).map (fun i => let w := numAt l (16 + 4 * i) 4; { tunnel := bitsOf w 31 20, kind := bitsOf w 19 17, value := bitsOf w 12 0 })

/-- A part of an allotment table arrives (R167, R168). -/
def State.tablePart (s : State) (l : List Byte) : State :=
  if !s.homed || s.mode != .hub then s
  else
    let ver := numAt l 0 2
    let idx := numAt l 8 1 % 16
    let cnt := max 1 (numAt l 8 1 / 16)
    let t0 : TblIn := { ver := ver, base := if bitOf (numAt l 9 1) 0 = 1 then 0xFFFF else numAt l 2 2, epoch := numAt l 4 4, parts := cnt, got := [], recs := [] }
    let t := match s.sched.tblIn with
      | some t => if t.ver = ver then t else t0
      | none => t0
    if t.got.contains idx then s
    else
      let recs := tblRecs l (min 2044 (numAt l 10 2))
      let t := { t with got := t.got ++ [idx], recs := t.recs ++ recs }
      if t.got.length < t.parts then { s with sched := { s.sched with tblIn := some t } } else s.tableDone t

end Sys2Proof.Machine
end

