-- ==== Sys2Proof/Machine/Allot.lean ====
section
/-!
DEFINITION. Sys2Proof/Machine/Allot.lean: the allotter of a head (R155, R156, R164–R166, R170, R171), demand and link reports (R162, R163,
R514), allotment tables and bank swap (R167, R168).
-/
namespace Sys2Proof.Machine

open Sys2Proof

/-! ### Reports (R162–R164, R514) -/

/-- A demand report's records from byte 16 (R162). -/
def rptRecs (l : List Byte) (n : Nat) : List RptRec :=
  (List.range n).map (fun i =>
    let a := numAt l (16 + 8 * i) 4
    let b := numAt l (20 + 8 * i) 4
    { tunnel := bitsOf a 31 20, kind := bitsOf a 19 18, depth := bitsOf a 15 0, sent := bitsOf b 31 16, marks := bitsOf b 15 0 })

/-- The report that bytes spell. -/
def reportOf (l : List Byte) : Report :=
  { epoch := numAt l 0 4, ver := numAt l 4 2, flags := numAt l 6 1, marksTu := numAt l 8 2, marksTd := numAt l 10 2, recs := rptRecs l (min 1020 (numAt l 7 1)) }

/-- The allotter's cutoff within an epoch has passed (R164). -/
def State.pastCutoff (s : State) : Bool := s.rd1 Pg.alt ALT.ALT_CFG_cutoff * s.epochLen < 16 * (s.chain.time % s.epochLen)

/-- The reporting period of a part in epochs, as its last two reports show it; 1 before (log entry 149). -/
def State.rptGap (s : State) (k : Nat) (r : Report) : Nat := match Tab.find k s.sched.reports with
  | some x =>
    let d := serialDist 32 x.epoch r.epoch
    if x.epoch = 0 || d = 0 || 8 < d then x.gap else d
  | none => 1

/-- A head keeps a report as its part's newest (R164). -/
def State.keepReport (s : State) (ch addr : Nat) (r : Report) : State :=
  let k := 64 * ch + addr
  let s : State := { s with sched := { s.sched with
    reports := Tab.put k { r with came := s.epochNow, gap := s.rptGap k r } s.sched.reports,
    needFull := if bitOf r.flags 0 = 1 && !s.sched.needFull.contains k then s.sched.needFull ++ [k] else s.sched.needFull } }
  s

/-- A demand report arrives (R164). -/
def State.demandIn (s : State) (p : Port) (shub : Nat) (l : List Byte) : State :=
  let ch := chainOf p
  if s.mode != .head || !(s.headChain ch).home then s
  else
    let s := if s.pastCutoff then (s.bump Pg.alt ALT.RPT_STAT_rpt_late 1).raise Pg.alt ALT.ev_rpt_late else s
    s.keepReport ch shub (reportOf l)

def execDemandReportRx (p : Port) (shub : Fin 64) (l : List Byte) (s : State) : Host.Outcome State Fault Refusal :=
  s.run (fun s => s.demandIn p shub.val l)

/-- A link report arrives (R514): a ready lane is counted as capacity at once (R49, DEDUCED, log entry 23). The head's knowledge of the port and, for a role-TU port, of the hop's round trip. -/
def State.linkIn (s : State) (p : Port) (c : Cell) : State :=
  let ch := chainOf p
  if s.mode != .head || !(s.headChain ch).home || numAt c.payload 0 1 != 0x45 then s
  else
    let b := numAt c.payload 2 1
    let m := numAt c.payload 3 1
    let rtt := numAt c.payload 4 4
    let ready := numAt c.payload 1 1 = 3
    let rx := if ready then 3 else m / 4 % 4
    let x : LinkState := { mode := m / 16, rx := rx, tx := m % 4, rtt := rtt, isTu := bitOf b 7 = 1, time := numAt c.payload 8 4 }
    let h := s.headChain ch
    let s : State := { s with sched := { s.sched with links := Tab.put ((64 * ch + c.shub) * 2 + b % 2) x s.sched.links } }
    if bitOf b 7 = 1 && rtt != 0 then
      s.setHeadChain ch { h with dir := h.dir.map (fun e => (e.1, if e.1 = c.shub then { e.2 with rtt := rtt } else e.2)) }
    else s

def execLinkReportRx (p : Port) (c : Cell) (s : State) : Host.Outcome State Fault Refusal := s.run (fun s => s.msgIn p c (fun s => s.linkIn p c))

/-! ### The computation (R165) -/

/-- The G pass: what is allotted so far, what each hop uses, and whether a tunnel that was suspended has not fitted (R165, R170, R171). -/
structure GPass where
  list  : List AllotG := []
  used  : Tab Nat := []
  stuck : Bool := false
deriving DecidableEq, Repr

/-- G tunnels of a chain in the order of R165: priority descending, tunnel ID ascending. -/
def State.gOrder (s : State) (ch : Nat) : List (Nat × Nat × TunEnt) :=
  let l := (s.admitted ch clsG).filter (fun x => s.bit1 (validMap ch) x.1)
  let pri := fun n => match l.find? (fun x => x.1 = n) with
    | some x => bitsOf x.2.2.w3 31 24
    | none => 0
  let ord := (l.map (fun x => (x.1, 0))).foldl (fun a x => calInsert pri x a) []
  ord.filterMap (fun x => l.find? (fun y => y.1 = x.1))

/-- One G tunnel of the pass. -/
def State.gStep (s : State) (ch : Nat) (g : GPass) (x : Nat × Nat × TunEnt) : GPass :=
  let path := Tun.path x.2.1
  let was := s.sched.allot.any (fun a => a.chain = ch && a.tunnel = x.1 && a.susp)
  let share := s.rd Pg.alt ALT.ALT_CFG_g_share
  match s.periods ch path (bitsOf x.2.2.w2 28 16) with
  | none => { g with list := g.list ++ [⟨ch, x.1, [], true⟩], stuck := true }
  | some ps =>
    let cs := s.costs ch path ps
    let fits := (path.zip cs).all (fun y => (Tab.find y.2.1 g.used).getD 0 + y.2.2 ≤ s.gcap ch y.1 share)
    if fits && !(was && g.stuck) then { g with list := g.list ++ [⟨ch, x.1, ps, false⟩], used := cs.foldl (fun t c => tabAdd t c.1 c.2) g.used }
    else { g with list := g.list ++ [⟨ch, x.1, [], true⟩], stuck := true }

/-- Suspensions and resumptions are reported (R170, R171). -/
def State.noteSusp (s : State) (old : List AllotG) (a : AllotG) : State :=
  let was := old.any (fun b => b.chain = a.chain && b.tunnel = a.tunnel && b.susp)
  if a.susp && !was then
    let s := s.wr Pg.alt ALT.SUSP_LOG_chain a.chain
    let s := s.wr Pg.alt ALT.SUSP_LOG_tunnel a.tunnel
    let s := (s.bump Pg.alt ALT.SUSP_LOG_count 1).setBit TUN1.SUSP_susp a.tunnel true
    s.raise Pg.alt ALT.ev_g_suspend
  else if !a.susp && was then (s.setBit TUN1.SUSP_susp a.tunnel false).raise Pg.alt ALT.ev_g_resume
  else s

/-- Marks reported for the egress of a hop (R162, R165). -/
def State.hopMarks (s : State) (ch : Nat) (h : Hop) : Nat :=
  let a := if h.dir = 0 then h.near else h.near + 1
  match Tab.find (64 * ch + a) s.sched.reports with
  | none => 0
  | some r => if a = 0 then (if portOfChain ch = .tu then r.marksTu else r.marksTd) else if h.dir = 0 then r.marksTd else r.marksTu

/-- The factor of a hop, 256 unless it has moved. -/
def State.hopF (s : State) (k : Nat) : Nat := (Tab.find k s.sched.hopF).getD 256

/-- A hop's pinned flag is set (R165, R442). -/
def State.pinHop (s : State) (k : Nat) : State :=
  ({ s with sched := { s.sched with hopPin := if s.sched.hopPin.contains k then s.sched.hopPin else s.sched.hopPin ++ [k] } }).raise Pg.alt ALT.ev_hop_pinned

def State.setHopF (s : State) (k f : Nat) : State := { s with sched := { s.sched with hopF := Tab.put k f s.sched.hopF } }

/-- The factor and the elastic budget of one hop (R165). -/
def State.hopStep (s : State) (ch : Nat) (used : Tab Nat) (h : Hop) : State :=
  let k := hopKey ch h
  let fmin := s.rd1 Pg.alt ALT.HOP_LOOP_f_min
  let f := s.hopF k
  let s :=
    if s.on Pg.alt ALT.ALT_CFG_hold || s.on Pg.alt ALT.ALT_CFG_e_hold then s
    else
      let f := if 0 < s.hopMarks ch h then f - f / 2 ^ s.rd1 Pg.alt ALT.HOP_LOOP_f_dec_sh else f + s.rd Pg.alt ALT.HOP_LOOP_f_inc
      if f < fmin then (s.setHopF k fmin).pinHop k else if 256 < f then (s.setHopF k 256).pinHop k else s.setHopF k f
  let g := (Tab.find k used).getD 0
  let free := s.hopS ch h - g - s.kept ch h
  { s with sched := { s.sched with hopUsed := Tab.put k g s.sched.hopUsed, hopBud := Tab.put k (free * s.hopF k / 256) s.sched.hopBud } }

/-- An elastic tunnel in the computation: what it wants, what it has, whether it is fixed. -/
structure ERow where
  tunnel : Nat
  hops   : List Nat
  pw     : Nat
  want   : Rat
  r      : Rat
  fixed  : Bool

/-- The demand of a tunnel as its source reported it, scaled to 125 µs (R165). -/
def State.demand (s : State) (ch n w : Nat) : Nat :=
  match Tab.find (64 * ch + Tun.shub w) s.sched.reports with
  | none => 0
  | some r => match r.recs.find? (fun x => x.tunnel = n && x.kind = 0) with
    | none => 0
    | some x => (x.sent + x.depth) * 4 / 2 ^ s.rd Pg.ctim CTIM.CTIM_CFG_epoch_code

/-- An E tunnel is pinned at a bound of its envelope (R165, R166). -/
def State.pinE (s : State) (n : Nat) (atMax : Bool) : State :=
  let s := s.wr Pg.alt ALT.E_PIN_tunnel n
  let s := s.wr Pg.alt ALT.E_PIN_at_max (b2n atMax)
  (s.bump Pg.alt ALT.E_PIN_count 1).raise Pg.alt ALT.ev_e_pinned

/-- The start of an elastic tunnel in the computation (R165). -/
def State.eRow (s : State) (ch : Nat) (x : Nat × Nat × TunEnt) : ERow × State :=
  let n := x.1
  let hops := (Tun.path x.2.1).map (hopKey ch)
  let pw := max 1 (bitsOf x.2.2.w3 31 24)
  let rate := (Tab.find (4096 * ch + n) s.sched.eRate).getD 0
  if bitOf x.2.2.w3 22 = 1 || s.on Pg.alt ALT.ALT_CFG_e_hold then (⟨n, hops, pw, rate, rate, true⟩, s)
  else
    let lo := eMin x.2.2.w2
    let hi := eMax x.2.2.w2
    let d := s.demand ch n x.2.1
    let want := d + d / 8 + 1
    let s := if hi < want then s.pinE n true else if want < lo then s.pinE n false else s
    let want := max lo (min want hi)
    (⟨n, hops, pw, want, lo, want ≤ lo⟩, s)

/-- What is left of the hops' budgets under the rates given. -/
def eLeft (bud : Tab Nat) (rows : List ERow) (h : Nat) : Rat :=
  ((Tab.find h bud).getD 0 : Nat) - (rows.filter (fun j => j.hops.contains h)).foldl (fun a j => a + j.r) (0 : Rat)

/-- Fix the tunnels that have what they want and those on a hop with nothing left. -/
def eFix (bud : Tab Nat) (rows : List ERow) : List ERow :=
  rows.map (fun j => if !j.fixed && (j.want ≤ j.r || j.hops.any (fun h => eLeft bud rows h ≤ 0)) then { j with fixed := true } else j)

/-- Weighted filling in exact fractions (R165; structural on the fuel): the common step is the least that fills a hop or satisfies a tunnel. -/
def eFill (bud : Tab Nat) : Nat → List ERow → List ERow
  | 0, rows => rows
  | k + 1, rows =>
    let free := rows.filter (fun j => !j.fixed)
    match free with
    | [] => rows
    | j0 :: _ =>
      let hops := (free.flatMap (·.hops)).eraseDups
      let byHop := hops.map (fun h => eLeft bud rows h / ((sumNat ((free.filter (fun j => j.hops.contains h)).map (·.pw)) : Nat) : Rat))
      let byWant := free.map (fun j => (j.want - j.r) / ((j.pw : Nat) : Rat))
      let step := (byHop ++ byWant).foldl (fun a b => if b < a then b else a) ((j0.want - j0.r) / ((j0.pw : Nat) : Rat))
      let step := if step < 0 then 0 else step
      eFill bud k (eFix bud (rows.map (fun j => if j.fixed then j else { j with r := j.r + step * ((j.pw : Nat) : Rat) })))

/-- The elastic pass (R165): every E tunnel's rate. -/
def State.ePass (s : State) (ch : Nat) : State :=
  let l := (s.admitted ch clsE).filter (fun x => s.bit1 (validMap ch) x.1)
  let (rows, s) := l.foldl (fun (a : List ERow × State) x => let (r, t) := a.2.eRow ch x; (a.1 ++ [r], t)) ([], s)
  let rows := eFill s.sched.hopBud (rows.length + 1) rows
  s.each rows (fun s j => { s with sched := { s.sched with eRate := Tab.put (4096 * ch + j.tunnel) j.r.floor.toNat s.sched.eRate } })

/-- The chain's lead k (R164). -/
def State.leadOf (s : State) (ch : Nat) : Nat :=
  min 255 (max (max 2 (s.rd Pg.alt ALT.ALT_CFG_lead)) (1 + ceilDiv (s.chainRtt ch / 2 + 75000) s.epochLen))

def leadFld (ch : Nat) : Fld := if ch = 0 then ALT.ALT_STAT_lead_c0 else ALT.ALT_STAT_lead_c1

/-- Parts whose report has not come for 4 epochs beyond its period are counted once (R164). -/
def State.missing (s : State) (ch : Nat) : State :=
  s.each (s.sched.reports.filter (fun x => x.1 / 64 = ch)) (fun s x =>
    if !x.2.missed && x.2.came + x.2.gap + 4 < s.epochNow then
      (({ s with sched := { s.sched with reports := Tab.put x.1 { x.2 with missed := true } s.sched.reports } }).bump Pg.alt ALT.RPT_STAT_rpt_miss 1).raise Pg.alt ALT.ev_rpt_miss
    else s)

/-- The allotter computes for a chain at the cutoff (R164–R166, R170, R171). -/
def State.compute (s : State) (ch : Nat) : State :=
  if s.mode != .head || !(s.headChain ch).home then s
  else
    let s := s.wr Pg.alt ALT.LAST_EPOCH_last_epoch s.epochNow
    let s := s.missing ch
    let g := (s.gOrder ch).foldl (s.gStep ch) {}
    let old := s.sched.allot
    let s : State := { s with sched := { s.sched with allot := old.filter (fun a => a.chain != ch) ++ g.list } }
    let s := s.each g.list (fun s a => s.noteSusp old a)
    let s := s.each (old.filter (fun a => a.chain = ch && a.susp && !g.list.any (fun b => b.tunnel = a.tunnel))) (fun s a => s.setBit TUN1.SUSP_susp a.tunnel false)
    let s := s.each (s.hops ch) (fun s h => s.hopStep ch g.used h)
    let s := s.ePass ch
    let k := s.leadOf ch
    let s := if s.rd Pg.alt (leadFld ch) = k then s else (s.wr Pg.alt (leadFld ch) k).raise Pg.alt ALT.ev_lead_change
    { s with sched := { s.sched with tablesDue := if s.sched.tablesDue.contains ch then s.sched.tablesDue else s.sched.tablesDue ++ [ch] } }

def execAllotterCompute (ch : Fin 2) (s : State) : Host.Outcome State Fault Refusal := s.run (fun s => s.compute ch.val)

/-! ### Tables leave (R164, R167) -/

/-- The bank that the computation gives a part of a chain, by egress role: periods by 2 × tunnel + role, rates of tunnels sourced there. -/
def State.bankFor (s : State) (ch addr : Nat) : Bank :=
  let per := (s.sched.allot.filter (fun a => a.chain = ch && !a.susp)).foldl (fun t a =>
    let path := Tun.path ((s.cfgEnt a.tunnel).half ch)
    (path.zip a.periods).foldl (fun t x =>
      let at_ := if x.1.dir = 0 then x.1.near else x.1.near + 1
      if at_ = addr then Tab.put (2 * a.tunnel + (if addr = 0 then Port.idx (portOfChain ch) else 1 - x.1.dir)) x.2 t else t) t) ([] : Tab Nat)
  let rate := ((s.admitted ch clsE).filter (fun x => Tun.shub x.2.1 = addr && s.bit1 (validMap ch) x.1)).foldl (fun t x =>
    match Tab.find (4096 * ch + x.1) s.sched.eRate with
    | some r => Tab.put x.1 r t
    | none => t) ([] : Tab Nat)
  { per := per, rate := rate }

/-- The records that lead from one bank to another (R167). -/
def deltaRecs (a b : Bank) : List TblRec :=
  let tuns := (a.per.map (fun x => x.1 / 2)).eraseDups
  let gone := tuns.filter (fun n => (Tab.find (2 * n) a.per).isSome && (Tab.find (2 * n) b.per).isNone || (Tab.find (2 * n + 1) a.per).isSome && (Tab.find (2 * n + 1) b.per).isNone)
  gone.map (fun n => ⟨n, 3, 0⟩) ++
  (b.per.filter (fun x => gone.contains (x.1 / 2) || Tab.find x.1 a.per != some x.2)).map (fun x => ⟨x.1 / 2, x.1 % 2, x.2⟩) ++
  (b.rate.filter (fun x => Tab.find x.1 a.rate != some x.2)).map (fun x => ⟨x.1, 2, x.2⟩) ++
  (a.rate.filter (fun x => (Tab.find x.1 b.rate).isNone)).map (fun x => ⟨x.1, 4, 0⟩)

/-- The bytes of a record. -/
def TblRec.bytes (r : TblRec) : List Byte := leBytes 4 (r.tunnel * 2 ^ 20 + r.kind * 2 ^ 17 + r.value)

/-- A table to a hub: its parts of up to 2,044 records (R167). -/
def State.sendTable (s : State) (ch addr : Nat) (b : Bank) (full : Bool) (base epoch : Nat) (recs : List TblRec) : State :=
  let n := max 1 (ceilDiv recs.length 2044)
  let s := s.each (List.range n) (fun s i =>
    let rs := (recs.drop (2044 * i)).take 2044
    let head := leBytes 2 b.ver ++ leBytes 2 (if full then 0xFFFF else base) ++ leBytes 4 epoch ++ leBytes 1 (i + 16 * n) ++ leBytes 1 (b2n full) ++ leBytes 2 rs.length ++ [0, 0, 0, 0]
    let c : Cell := { cls := clsM, dhub := addr, shub := s.srcAddr (portOfChain ch), tunnel := 4 }
    s.sendPacket 6 (portOfChain ch) c (head ++ rs.flatMap TblRec.bytes))
  s.bump Pg.alt ALT.ALT_CNT_tables 1

/-- The table of one hub at a boundary: none while its last one has not swapped in (R164); a full table that was due then is sent at the next turn (R167). -/
def State.tableFor (s : State) (ch addr epoch : Nat) (fullDue : Bool) : State :=
  let k := 64 * ch + addr
  if s.epochNow < (Tab.find k s.sched.sentSwap).getD 0 then
    (if fullDue && !s.sched.needFull.contains k then { s with sched := { s.sched with needFull := s.sched.needFull ++ [k] } } else s)
  else
    let old := Tab.find k s.sched.sentBank
    let full := fullDue || old.isNone || s.sched.needFull.contains k
    let ver := (s.sched.version + 1) % 65535
    let b := { s.bankFor ch addr with ver := ver }
    let prev := old.getD {}
    let s := s.sendTable ch addr b full prev.ver epoch (deltaRecs (if full then {} else prev) b)
    let s : State := { s with sched := { s.sched with version := ver, sentBank := Tab.put k b s.sched.sentBank, sentSwap := Tab.put k epoch s.sched.sentSwap } }
    { s with sched := { s.sched with needFull := s.sched.needFull.filter (· != k) } }

/-- The head's own bank: the egress of each chain named takes that chain's periods, and its own elastic tunnels their rates. -/
def State.ownTable (s : State) (chs : List Nat) (epoch : Nat) : State :=
  if s.sched.nxt.isSome || chs.isEmpty then s
  else
    let mine := fun (ch : Nat) (n : Nat) => Tun.v ((s.cfgEnt n).half ch) && Tun.cls ((s.cfgEnt n).half ch) = clsE
    let b := chs.foldl (fun (b : Bank) ch =>
      let g := Port.idx (portOfChain ch)
      let x := s.bankFor ch 0
      { b with per := x.per.foldl (fun t e => Tab.put e.1 e.2 t) (b.per.filter (fun e => e.1 % 2 != g)),
               rate := x.rate.foldl (fun t e => Tab.put e.1 e.2 t) (b.rate.filter (fun e => !mine ch e.1)) }) s.sched.cur
    let ver := (s.sched.version + 1) % 65535
    ({ s with sched := { s.sched with version := ver } }).fillBank { b with ver := ver } true epoch

/-- A change of the epoch length is armed: no table leaves until it is in force (R168). -/
def State.epochArmed (s : State) : Bool := s.chain.armed.any (fun a => a.cmd = 4)

/-- The hubs of a chain that take tables: valid entries that are no P1200. -/
def State.tableHubs (s : State) (ch : Nat) : List Nat := ((s.headChain ch).dir.filter (fun e => e.2.valid && !isP12 e.2)).map (·.1)

/-- Computed tables leave at the boundary that starts epoch m + 1 and name the swap epoch m + k (R164). -/
def State.sendTables (s : State) : State :=
  let due := s.sched.tablesDue.filter (fun ch => (s.headChain ch).home)
  let s : State := { s with sched := { s.sched with tablesDue := [] } }
  if s.mode != .head || due.isEmpty || s.on Pg.alt ALT.ALT_CFG_hold || s.epochArmed then s
  else
    let m := s.epochNow - 1
    let fullDue := s.epochNow % 2 ^ s.rd Pg.alt ALT.ALT_CFG_full_div = 0
    let s := s.each due (fun s ch =>
      let epoch := m + s.rd Pg.alt (leadFld ch)
      let s := s.each (s.tableHubs ch) (fun s a => s.tableFor ch a epoch fullDue)
      { s with sched := { s.sched with allotDue := s.sched.allotDue.filter (fun x => x.chain != ch) ++ [⟨ch, epoch, s.sched.allot.filter (fun a => a.chain = ch)⟩] } })
    s.ownTable due (m + (due.map (fun ch => s.rd Pg.alt (leadFld ch))).foldl max 2)

/-- A full table right after a hub's REHOME_ACK (R167). -/
def State.tableAfterRehome (s : State) (ch addr : Nat) : State :=
  if s.on Pg.alt ALT.ALT_CFG_hold || s.epochArmed then s
  else
    let k := 64 * ch + addr
    let s : State := { s with sched := { s.sched with sentBank := Tab.del k s.sched.sentBank, sentSwap := Tab.del k s.sched.sentSwap } }
    s.tableFor ch addr (s.epochNow + s.leadOf ch) true

/-- Allotments whose swap epoch has begun are in force at the hubs (R178). -/
def State.allotSwap (s : State) : State :=
  s.each (s.sched.allotDue.filter (fun x => x.epoch ≤ s.epochNow)) (fun s x =>
    { s with sched := { s.sched with inForce := s.sched.inForce.filter (fun a => a.chain != x.chain) ++ x.list, allotDue := s.sched.allotDue.filter (· != x) } })

def execAllotmentTableRx (p : Port) (m : TableMsg) (s : State) : Host.Outcome State Fault Refusal :=
  s.run (fun s => if s.notHomes p { tunnel := 4, shub := m.shub.val } then s.foreign else s.tablePart m.bytes)

/-! ### A hub's boundary (R162, R163, R168) -/

/-- The next bank swaps in at the boundary that starts its epoch (R168); cells of tunnels that lose their period move to the G class queue (R125). -/
def State.bankSwap (s : State) : State := match s.sched.nxt with
  | none => s
  | some b =>
    if s.rd Pg.sch SCH.SWAP_EPOCH_swap_epoch != s.epochNow % 2 ^ 32 then s
    else
      let full := s.sched.nxtFull
      let old := s
      let s : State := { s with sched := { s.sched with cur := b, nxt := none, cal := s.sched.calNext, calNext := {} } }
      let s := (s.regroup old).wr Pg.sch SCH.BANK_CUR_cur_ver b.ver
      let s := s.wr Pg.sch SCH.BANK_NEXT_pending 0
      let s := if full then s.wr Pg.sch SCH.BANK_NEXT_needs_full 0 else s
      (s.bump Pg.sch SCH.SCH_CNT_swaps 1).raise Pg.sch SCH.ev_swap

/-- The records due in a report, group by group (R163). -/
def State.rptGroups (s : State) : List RptRec × List RptRec × List RptRec :=
  let cnt := fun (t : Tab Nat) n => (Tab.find n t).getD 0
  let wait := fun n => sumNat ((s.sched.shaped.filter (fun x => x.cell.tunnel = n)).map (fun x => max 1 (ceilDiv x.bytes.length 256)))
  let valid := (s.sched.tun.filter (fun e => Tun.v e.2.w0 || Tun.v e.2.w1)).map (·.1)
  let isG := fun n => let e := s.tunEnt n; [e.w0, e.w1].any (fun w => Tun.v w && Tun.cls w = clsG)
  let es := s.eSourced
  let row := fun kind depth n => (⟨n, kind, min 65535 depth, min 65535 (cnt s.sched.sent n), min 65535 (cnt s.sched.marks n)⟩ : RptRec)
  let deep := fun n => max (cnt s.sched.depth n) (s.queue n).length
  let g := (valid.filter (fun n => isG n && (s.rd Pg.sch SCH.RPT_CFG_g_depth_min ≤ deep n || cnt s.sched.marks n != 0))).map (fun n => row 1 (deep n) n)
  let e := (es.filter (fun n => !isG n && (cnt s.sched.sent n != 0 || wait n != 0))).map (fun n => row 0 (wait n) n)
  let named := g.map (·.tunnel) ++ e.map (·.tunnel)
  let o := ((s.sched.marks.map (·.1)).filter (fun n => cnt s.sched.marks n != 0 && 16 ≤ n && !named.contains n)).map (fun n => row 2 0 n)
  (g, e, o)

/-- The demand report of this part (R162, R163), and the counts that it carries start again. -/
def State.demandReport (s : State) : Report × State :=
  let room := (256 * (s.rd Pg.sch SCH.RPT_CFG_cells + 1) - 16) / 8
  let (g, e, o) := s.rptGroups
  let g := g.filter (fun r => s.sched.rptFrom < r.tunnel) ++ g.filter (fun r => r.tunnel ≤ s.sched.rptFrom)
  let all := g ++ e ++ o
  let recs := all.take room
  let trunc := room < all.length
  let named := recs.map (·.tunnel)
  let drop := fun (t : Tab Nat) => t.filter (fun x => !named.contains x.1)
  let stand := named.foldl (fun t n => if (s.queue n).isEmpty then t else Tab.put n (s.queue n).length t) (drop s.sched.depth)
  let m := s.sched.egrMarks
  let (mu, md) := if s.tuRole = .tu then m else (m.2, m.1)
  let r : Report :=
    { epoch := (s.epochNow + 2 ^ 32 - 1) % 2 ^ 32, ver := s.sched.cur.ver,
      flags := b2n (s.on Pg.sch SCH.BANK_NEXT_needs_full) + 2 * b2n trunc + 4 * b2n s.sched.tblLate + 8 * b2n (s.on Pg.ctim CTIM.CTIM_STAT_free),
      marksTu := min 65535 mu, marksTd := min 65535 md, recs := recs }
  let frm := if trunc then (recs.getLast?.map (·.tunnel)).getD 0 else 0
  let x := s.sched
  (r, { s with sched := { x with sent := drop x.sent, marks := drop x.marks, depth := stand, egrMarks := (0, 0), tblLate := false, rptFrom := frm } })

/-- A report's bytes (R162). -/
def Report.bytes (r : Report) : List Byte :=
  leBytes 4 r.epoch ++ leBytes 2 r.ver ++ leBytes 1 r.flags ++ leBytes 1 r.recs.length ++ leBytes 2 r.marksTu ++ leBytes 2 r.marksTd ++ [0, 0, 0, 0] ++
    r.recs.flatMap (fun x => leBytes 4 (x.tunnel * 2 ^ 20 + x.kind * 2 ^ 18 + x.depth) ++ leBytes 4 (x.sent * 65536 + x.marks))

/-- Every 2^div epochs a part with a home reports its demand; the home keeps its own (R162). -/
def State.reportDemand (s : State) : State :=
  let n := s.chain.rptEpochs + 1
  if n < 2 ^ s.rd Pg.sch SCH.RPT_CFG_div then { s with chain := { s.chain with rptEpochs := n } }
  else
    let s : State := { s with chain := { s.chain with rptEpochs := 0 } }
    if s.mode = .head then
      let (r, s) := s.demandReport
      s.each [0, 1] (fun s ch => if (s.headChain ch).home then s.keepReport ch 0 r else s)
    else if s.mode = .hub && s.homed then
      let (r, s) := s.demandReport
      s.sendPacket 6 s.tuRole { cls := clsM, dhub := 0, shub := s.addr, tunnel := 5 } r.bytes
    else s

/-! ### ALT_CFG and hop factors (R156, R166) -/

/-- The credit shares go to both LNK pages of this part and of every hub of the chains (R156). -/
def State.spreadShares (s : State) : State :=
  let m := s.rd Pg.alt ALT.ALT_CFG_m_share
  let g := s.rd Pg.alt ALT.ALT_CFG_g_share
  let s := s.ownShares
  s.each [0, 1] (fun s ch => s.each (s.tableHubs ch) (fun s a => s.emit (.note "crd_cfg" [ch, a, m, g])))

/-- ALT_CFG is written (R156): `v` is the word. -/
def State.altCfg (s : State) (v : Nat) : State :=
  if s.mode != .head then s
  else
    let g := bitsOf v 31 28
    let m := bitsOf v 27 24
    let tooFar := [0, 1].any (fun ch => let use := s.gUse ch 4096
      (s.hops ch).any (fun h => s.gcap ch h g < (Tab.find (hopKey ch h) use).getD 0))
    if 15 < m + g || tooFar then s.raise Pg.alt ALT.ev_cfg_err
    else
      let s := s.wr Pg.alt ALT.ALT_CFG_g_share g
      let s := s.wr Pg.alt ALT.ALT_CFG_m_share m
      let s := s.wr Pg.alt ALT.ALT_CFG_t_share (bitsOf v 23 20)
      let s := s.wr Pg.alt ALT.ALT_CFG_lead (bitsOf v 19 16)
      let s := s.wr Pg.alt ALT.ALT_CFG_cutoff (bitsOf v 15 12)
      let s := s.wr Pg.alt ALT.ALT_CFG_full_div (bitsOf v 11 8)
      let s := s.wr Pg.alt ALT.ALT_CFG_e_hold (bitOf v 1)
      (s.wr Pg.alt ALT.ALT_CFG_hold (bitOf v 0)).spreadShares

def execAltCfgWrite (v : Nat) (s : State) : Host.Outcome State Fault Refusal := s.run (fun s => s.altCfg v)

/-- The hop that HOP_SEL names. -/
def State.selHop (s : State) : Nat := hopKey (s.rd Pg.alt ALT.HOP_SEL_chain) ⟨s.rd Pg.alt ALT.HOP_SEL_near, s.rd Pg.alt ALT.HOP_SEL_dir⟩

/-- HOP_DATA1 is written (R166): a written 1 clears the pin, f re-seeds the loop, clamped to its envelope. -/
def State.hopFactor (s : State) (v : Nat) : State :=
  if s.mode != .head then s
  else
    let k := s.selHop
    let s : State := if bitOf v 9 = 1 then { s with sched := { s.sched with hopPin := s.sched.hopPin.filter (· != k) } } else s
    let f := bitsOf v 8 0
    let fmin := s.rd1 Pg.alt ALT.HOP_LOOP_f_min
    let c := max fmin (min 256 f)
    let s := s.setHopF k c
    if c = f then s else s.pinHop k

def execHopFactorWrite (v : Nat) (s : State) : Host.Outcome State Fault Refusal := s.run (fun s => s.hopFactor v)

end Sys2Proof.Machine
end

