-- ==== Sys2Proof/Machine/Xbr.lean ====
section
/-!
DEFINITION. Sys2Proof/Machine/Xbr.lean: the transaction bridge (R185–R193, R196–R198, R208) and the PX bus (R194, R195, R199–R207): delayed-read
slots and tickets, completions, timeouts, the error events at a head, inbound cycles, external masters.
-/
namespace Sys2Proof.Machine

open Sys2Proof

/-! ### Delayed-read slots (R189–R192) -/

/-- SLOT_DATA.state codes. -/
def slFree : Nat := 0
def slPending : Nat := 1
def slReady : Nat := 2

def State.dslot (s : State) (n : Nat) : Slot := (Tab.find n s.xbr.slots).getD {}

def State.setDslot (s : State) (n : Nat) (x : Slot) : State := { s with xbr := { s.xbr with slots := Tab.put n x s.xbr.slots } }

/-- The lowest FREE slot. -/
def State.freeSlot (s : State) : Option Nat := (List.range 64).find? (fun n => (s.dslot n).state = slFree)

/-- A slot becomes FREE; its seq stays. -/
def State.slotEnd (s : State) (n : Nat) : State := s.setDslot n { state := slFree, seq := (s.dslot n).seq }

/-- A FREE slot takes an operation: its seq counts from 1 to 1,023 and wraps to 1 (R190). -/
def State.slotTake (s : State) (n owner : Nat) (r : TReq) (be : Nat) : State :=
  s.setDslot n { state := slPending, owner := owner, seq := (s.dslot n).seq % 1023 + 1, req := r, be := be }

/-- The ticket of a slot: seq [15:6], slot [5:0] (R190). -/
def State.ticketOf (s : State) (n : Nat) : Nat := (s.dslot n).seq * 64 + n

/-- A re-issue repeats the request that a slot holds (R190). -/
def sameReq (a b : TReq) : Bool := a.op = b.op && a.addr = b.addr && a.count = b.count && a.tag = b.tag && a.vhc = b.vhc

/-- A slow target answers RETRY with a ticket and goes on in a slot (R189). -/
def State.retryTicket (s : State) (ch n : Nat) (r : TReq) : State := (s.replyT ch r stRetry (s.ticketOf n) []).bump Pg.xbr XBR.XBR_CNT3_retries 1

/-- A re-issue with a ticket (R190). -/
def State.reissueIn (s : State) (ch : Nat) (r : TReq) : State :=
  let n := r.ticket % 64
  let x := s.dslot n
  let mine := x.owner = 0 && x.seq = r.ticket / 64 && sameReq x.req r
  if x.state = slReady && mine then (s.slotEnd n).replyT ch r x.st 0 (if x.st = stSC then x.data else [])
  else if x.state = slPending && mine then s.retryTicket ch n r
  else
    let s := s.erlLog 0x08 r
    let s := (s.bump Pg.xbr XBR.XBR_CNT1_tkt_stale 1).raise Pg.xbr XBR.ev_tkt_stale
    s.replyT ch r stCA 0 []

/-- The operation in a slot has ended: the slot becomes READY (R190). -/
def State.slotReady (s : State) (n : Nat) : State :=
  let x := s.dslot n
  if x.state = slPending && x.done then s.setDslot n { x with state := slReady } else s

def execDelayedOpComplete (n : Fin 64) (s : State) : Host.Outcome State Fault Refusal := s.run (fun s => s.slotReady n.val)

/-- The discard timer of a READY slot (R191). -/
def State.slotDiscard (s : State) (n : Nat) : State :=
  let x := s.dslot n
  if x.state = slReady then
    (((s.slotEnd n).erlLog 0x09 x.req).bump Pg.xbr XBR.XBR_CNT2_discards 1).raise Pg.xbr XBR.ev_slot_discard
  else s

def execSlotDiscardExpiry (n : Fin 64) (s : State) : Host.Outcome State Fault Refusal := s.run (fun s => s.slotDiscard n.val)

/-! ### Windows and byte lanes (R194, R195) -/

/-- A window is in use: enabled, its size from 12 to 24 (R194). -/
def State.winOn (s : State) (n : Nat) : Bool :=
  let z := s.rd Pg.pxb (PXB.WIN_CFG_size n)
  s.on Pg.pxb (PXB.WIN_CFG_en n) && 12 ≤ z && z ≤ 24

def State.winSize (s : State) (n : Nat) : Nat := 2 ^ s.rd Pg.pxb (PXB.WIN_CFG_size n)

/-- The inbound window of a trunk address; the access must end within it. -/
def State.winIn (s : State) (addr count : Nat) : Option Nat :=
  match (List.range 8).find? (fun n => s.winOn n && !s.on Pg.pxb (PXB.WIN_CFG_dir n) &&
      s.rd Pg.pxb (PXB.WIN_TLO_tbase_lo n) ≤ addr && addr < s.rd Pg.pxb (PXB.WIN_TLO_tbase_lo n) + s.winSize n) with
  | some n => if addr + count ≤ s.rd Pg.pxb (PXB.WIN_TLO_tbase_lo n) + s.winSize n then some n else none
  | none => none

/-- The outbound window of a PX address. -/
def State.winOut (s : State) (addr : Nat) : Option Nat :=
  (List.range 8).find? (fun n => s.winOn n && s.on Pg.pxb (PXB.WIN_CFG_dir n) &&
    s.rd Pg.pxb (PXB.WIN_PX_pxbase n) ≤ addr && addr < s.rd Pg.pxb (PXB.WIN_PX_pxbase n) + s.winSize n)

/-- The other side's offset of a byte (R195): the same, or with XOR 3 under data-invariant lanes. -/
def laneOff (inv : Bool) (k : Nat) : Nat := if inv then k / 4 * 4 + (3 - k % 4) else k

/-- The 16-bit transfers of an access (R195, R200): in ascending PX address. -/
def pxXfers (base : Nat) (inv : Bool) (off count : Nat) : List PxXfer :=
  let bytes := (List.range count).map (fun i => (base + laneOff inv (off + i), i))
  let lo := (bytes.map (·.1)).foldl min (base + laneOff inv off)
  let hi := (bytes.map (·.1)).foldl max 0
  let words := (List.range (hi / 2 + 1 - lo / 2)).map (fun k => 2 * (lo / 2 + k))
  let at_ := fun a => (bytes.find? (fun b => b.1 = a)).map (·.2)
  (words.map (fun w => (⟨w, at_ w, at_ (w + 1)⟩ : PxXfer))).filter (fun x => x.even.isSome || x.odd.isSome)

/-- The operation of a request that matches a window. A request from the trunk is confirmed as it came: a posted one has no tag to answer (DEDUCED, log entry 137). -/
def State.pxOpOf (s : State) (p : Port) (r : TReq) (n : Nat) : PxOp :=
  { req := r, port := p, win := n,
    xfers := pxXfers (s.rd Pg.pxb (PXB.WIN_PX_pxbase n)) (s.on Pg.pxb (PXB.WIN_CFG_lane n)) (r.addr - s.rd Pg.pxb (PXB.WIN_TLO_tbase_lo n)) r.count,
    buf := if r.op = 1 then r.data else List.replicate r.count 0 }

/-! ### The bus (R200–R203, R207) -/

/-- PX_STAT.owner: 0 idle, 1 the bridge, 2 an external master. -/
def State.pxOwner (s : State) : Nat := s.rd Pg.pxb PXB.PX_STAT_owner

/-- The bus returns to idle; window writes made during the cycle take effect (R207). -/
def State.pxIdle (s : State) : State :=
  let l := s.xbr.pxLate
  let s := s.wr Pg.pxb PXB.PX_STAT_owner 0
  let s := s.each l (fun s w => s.each (PXB.rows.filterMap (fun r => r.at? w.1)) (fun s f => s.wr Pg.pxb f (w.2 / 2 ^ f.lsb)))
  { s with xbr := { s.xbr with pxLate := [] } }

/-- The end of a trunk request at the PX bridge: into its slot, or as its completion; a posted failure is logged and reported (R197). -/
def State.pxDone (s : State) (o : PxOp) (st cause : Nat) : State :=
  let s : State := { s with xbr := { s.xbr with pxOp := none } }
  let data := if o.req.op = 0 && st = stSC then o.buf else []
  let s := if cause = 0 then s else if o.req.posted then s.erlFail cause o.req o.win else s.erlLog cause o.req o.win
  match o.slot with
  | some n => s.setDslot n { s.dslot n with done := true, st := st, data := data }
  | none => if o.req.posted then s else s.replyT (s.chainIn o.port) o.req st 0 data

/-- The bridge ends an external cycle with RETRY_N (R203). -/
def State.pxRetryN (s : State) : State :=
  let s : State := { s with xbr := { s.xbr with pxExt := none } }
  let s := (s.bump Pg.pxb PXB.PX_CNT0_cycles 1).pxIdle
  ((s.bump Pg.pxb PXB.PX_CNT1_master_retries 1).emit (.px "retry" [])).raise Pg.pxb PXB.ev_master_retry

/-- Requests of a kind that wait at the bridge. -/
def State.pxQueued (s : State) (posted : Bool) : Nat := countWhere (fun o => o.req.posted = posted && o.slot.isNone) (s.xbr.pxPosted ++ s.xbr.pxWait)

/-- The bridge's queue for posted or for non-posted requests is full; its depth, at least 1, is the implementation's (log entry 26). -/
def State.pxFull (s : State) (posted : Bool) : Bool := decide (Config.targetDepth + 1 ≤ s.pxQueued posted)

/-- A request waits in its tunnel and keeps its buffer (R183). -/
def State.pxKeep (s : State) (p : Port) (r : TReq) : State := ({ s with xbr := { s.xbr with pxHold := s.xbr.pxHold ++ [(p, r)] } } : State).chargeAcct 8

/-- A posted request waits while the posted queue is full, and what comes behind it in its tunnel waits with it (R183). -/
def State.pxHeld (s : State) (p : Port) (r : TReq) : Bool :=
  (r.posted && s.pxFull true) || s.xbr.pxHold.any (fun x => x.1 = p && x.2.tunnel = r.tunnel)

/-- A trunk request meets an external cycle toward the trunk (R205): the bridge ends that cycle with RETRY_N (R203). -/
def State.pxCross (s : State) : State := match s.xbr.pxExt with
  | some e => if s.pxOwner = 2 && e.answer.isNone then (s.pxRetryN.bump Pg.pxb PXB.PX_CNT2_crossings 1).raise Pg.pxb PXB.ev_crossing else s
  | none => s

/-- A request that no window takes (R194). -/
def State.pxMiss (s : State) (ch : Nat) (r : TReq) : State :=
  if r.posted then s.erlFail erWindow r else s.replyT ch r stUR 0 []

/-- RETRY with ticket 0: not performed (R183, R192). -/
def State.npRetry (s : State) (ch : Nat) (r : TReq) : State :=
  ((s.bump Pg.xbr XBR.XBR_CNT2_np_retry 1).raise Pg.xbr XBR.ev_np_retry).replyT ch r stRetry 0 []

/-- A request reaches the PX bridge (R182, R183): writes, posted or confirmed, and reads wait in queues of their own. -/
def State.pxIn (s : State) (p : Port) (r : TReq) : State :=
  let ch := s.chainIn p
  if s.pxHeld p r then s.pxKeep p r
  else if r.op != opMemRd && r.op != opMemWr then (if r.posted then s.erlFail erUr r else s.replyT ch r stUR 0 [])
  else match s.winIn r.addr r.count with
    | none => s.pxMiss ch r
    | some n =>
      let o := s.pxOpOf p r n
      if !r.posted && s.pxFull false then s.npRetry ch r
      else if !r.posted && s.freeSlot.isNone then s.replyT ch r stRetry 0 []
      else if r.op = opMemWr then ({ s with xbr := { s.xbr with pxPosted := s.xbr.pxPosted ++ [o] } } : State).pxCross
      else ({ s with xbr := { s.xbr with pxWait := s.xbr.pxWait ++ [o] } } : State).pxCross

/-- Requests that waited for the posted queue are taken up again, in their order. -/
def State.pxUnhold (s : State) : State :=
  let l := s.xbr.pxHold
  ({ s with xbr := { s.xbr with pxHold := [] } } : State).each l (fun s x => (s.dischargeAcct 8).pxIn x.1 x.2)

/-- The operation that the bridge runs next, in service (R182): a write waits for no read, so a read that is not through goes back; a read never passes a write. -/
def State.pxNext (s : State) : Option (PxOp × State) :=
  match s.xbr.pxOp, s.xbr.pxPosted, s.xbr.pxWait with
  | some o, w :: rest, l => if o.req.op = opMemWr then some (o, s) else some (w, { s with xbr := { s.xbr with pxOp := some w, pxPosted := rest, pxWait := o :: l } })
  | some o, [], _ => some (o, s)
  | none, w :: rest, _ => some (w, { s with xbr := { s.xbr with pxOp := some w, pxPosted := rest } })
  | none, [], o :: rest => some (o, { s with xbr := { s.xbr with pxOp := some o, pxWait := rest } })
  | none, [], [] => none

/-- The two address phases of a transfer (R200): byte enables low active on AD[9:8] over A[23:16], then A[15:1] with AD[0] = 0. -/
def pxPhases (x : PxXfer) : List Nat := [512 * b2n x.even.isNone + 256 * b2n x.odd.isNone + x.addr / 65536 % 256, x.addr % 65536 / 2 * 2]

/-- The timing of a window's cycles (R201, R207): ALE width, address hold, strobe and recovery in clocks, the RDY limit in µs. -/
def State.pxTiming (s : State) (n : Nat) : List Nat :=
  let t := s.rd Pg.pxb (PXB.WIN_CFG_tset n)
  [s.rd1 Pg.pxb (PXB.TSET_ale_w t), s.rd1 Pg.pxb (PXB.TSET_adr_hold t), max 2 (s.rd Pg.pxb (PXB.TSET_strobe t)), s.rd1 Pg.pxb (PXB.TSET_recov t), s.rd1 Pg.pxb (PXB.TSET_rdy_max_us t)]

/-- The bridge claims the idle bus and runs the next cycle of the request in service (R201). -/
def State.pxStart (s : State) : State :=
  if !s.on Pg.pxb PXB.PX_CFG_en || s.pxOwner != 0 then s
  else
    match s.pxNext with
    | none => s
    | some (o, s) =>
      let s := s.pxUnhold
      match o.xfers with
      | [] => s
      | x :: _ =>
        let byte := fun (i : Option Nat) => match i with
          | some k => byteAt o.buf k
          | none => 0
        let s := s.wr Pg.pxb PXB.PX_STAT_owner 1
        let s := if s.on Pg.pxb PXB.PX_CFG_ext_en then s.emit (.px "claim" []) else s
        if o.req.op = 1 then s.emit (.px "write" (pxPhases x ++ (byte x.even * 256 + byte x.odd) :: s.pxTiming o.win))
        else s.emit (.px "read" (pxPhases x ++ s.pxTiming o.win))

def execPxInboundCycle (s : State) : Host.Outcome State Fault Refusal := s.run State.pxStart

/-- Put a byte at an index. -/
def setByte (l : List Byte) (i : Option Nat) (v : Nat) : List Byte := match i with
  | some k => l.set k (BitVec.ofNat 8 v)
  | none => l

/-- The bridge's cycle samples RDY high (R201): the data of a read is taken; the request ends with its last transfer. -/
def State.pxBridgeEnd (s : State) (o : PxOp) (ad : Nat) : State :=
  let s := (s.bump Pg.pxb PXB.PX_CNT0_cycles 1).pxIdle
  match o.xfers with
  | [] => s.pxDone o stSC 0
  | x :: more =>
    let buf := if o.req.op = 1 then o.buf else setByte (setByte o.buf x.even (ad / 256)) x.odd ad
    let o := { o with xfers := more, buf := buf }
    if more.isEmpty then s.pxDone o stSC 0 else { s with xbr := { s.xbr with pxOp := some o } }

/-- A request of an outbound window enters its tunnel (R194). -/
def State.pxIssue (s : State) (r : TReq) (slot : Nat) : State := s.issue { init := 10, req := r, slot := slot, chain := 0 }

/-- The external master's cycle ends once the bridge has its answer (R202); its posted write enters the tunnel. -/
def State.pxExtEnd (s : State) (e : PxExt) : State := match e.answer with
  | none => s
  | some v =>
    let l := s.xbr.pxPost
    let s : State := { s with xbr := { s.xbr with pxExt := none, pxPost := [] } }
    let s := (s.bump Pg.pxb PXB.PX_CNT0_cycles 1).pxIdle
    let s := s.emit (.px "ready" [v])
    s.each l (fun s x => s.pxIssue x.2 0)

/-- RDY is high (R201, R202). -/
def State.pxEnd (s : State) (ad : Nat) : State :=
  if s.pxOwner = 1 then (match s.xbr.pxOp with
    | some o => s.pxBridgeEnd o ad
    | none => s.pxIdle)
  else if s.pxOwner = 2 then (match s.xbr.pxExt with
    | some e => s.pxExtEnd e
    | none => s.pxIdle)
  else s

def execPxCycleEnd (ad : Nat) (s : State) : Host.Outcome State Fault Refusal := s.run (fun s => s.pxEnd (ad % 65536))

/-- RDY stays low beyond rdy_max_us (R201). -/
def State.pxTimeout (s : State) : State :=
  if s.pxOwner != 1 then s
  else match s.xbr.pxOp with
    | none => s
    | some o =>
      let s := (s.bump Pg.pxb PXB.PX_CNT0_cycles 1).pxIdle
      let s := (s.bump Pg.pxb PXB.PX_CNT1_px_tmo 1).raise Pg.pxb PXB.ev_px_timeout ⟨0, o.req.addr % 2 ^ 32, o.req.addr / 2 ^ 32⟩
      s.pxDone o stCA (if o.req.op = 1 then erPxTmo else 0)

def execPxTimeout (s : State) : Host.Outcome State Fault Refusal := s.run State.pxTimeout

def execPxint (s : State) : Host.Outcome State Fault Refusal := s.run (fun s => if s.on Pg.pxb PXB.PX_CFG_en then s.raise Pg.pxb PXB.ev_pxint else s)

/-! ### External masters (R202–R205) -/

/-- The trunk request of an external cycle in a window (R194, R195). -/
def State.pxReqOf (s : State) (n : Nat) (write : Bool) (addr be data : Nat) : TReq :=
  let inv := s.on Pg.pxb (PXB.WIN_CFG_lane n)
  let off := addr / 2 * 2 - s.rd Pg.pxb (PXB.WIN_PX_pxbase n)
  let even := if bitOf be 1 = 1 then [(laneOff inv off, data / 256)] else []
  let odd := if bitOf be 0 = 1 then [(laneOff inv (off + 1), data)] else []
  let l := if inv then odd ++ even else even ++ odd
  let base := s.rd Pg.pxb (PXB.WIN_TLO_tbase_lo n) + 2 ^ 32 * s.rd Pg.pxb (PXB.WIN_THI_tbase_hi n)
  let tun := s.rd Pg.pxb (PXB.WIN_CFG_tunnel n)
  let c := (s.tunCell tun 0).getD {}
  { op := if write then opMemWr else opMemRd, count := l.length, addr := base + ((l.map (·.1)).foldl min (laneOff inv off)), tunnel := tun,
    data := if write then l.map (fun x => BitVec.ofNat 8 x.2) else [], wc := write && s.on Pg.pxb (PXB.WIN_CFG_wc n), vhc := c.vhc, gen := c.gen,
    shub := c.shub, sport := c.sport, dport := c.dport }

/-- The word that read data put on AD: the even byte on AD[15:8] (R195). -/
def pxWord (inv : Bool) (be : Nat) (l : List Byte) : Nat :=
  if be = 3 then (if inv then byteAt l 1 * 256 + byteAt l 0 else byteAt l 0 * 256 + byteAt l 1) else if be = 2 then byteAt l 0 * 256 else byteAt l 0

/-- The answer of a finished delayed operation; a failed read's word is open (DESIGN CHOICE, log entry 25: a free value). -/
def State.pxGive (s : State) (e : PxExt) (n : Nat) : State :=
  let x := s.dslot n
  let s := s.slotEnd n
  if x.st = stSC then
    let inv := match s.winOut e.addr with
      | some w => s.on Pg.pxb (PXB.WIN_CFG_lane w)
      | none => false
    s.pxAnswer e (if e.write then 0 else pxWord inv e.be x.data)
  else
    let (v, s) := s.draw 16
    s.pxAnswer e v

/-- The slot that works for a repeat of a cycle (R204). -/
def State.pxMatch (s : State) (r : TReq) (be : Nat) : Option Nat :=
  (List.range 64).find? (fun n => let x := s.dslot n
    x.state != slFree && x.owner = 1 && x.be = be && x.req.op = r.op && x.req.addr = r.addr && x.req.count = r.count && x.req.data = r.data && x.req.tunnel = r.tunnel)

/-- A window leads onto this part's own inbound aperture (R199 rule 5). -/
def State.pxSelf (s : State) (tun : Nat) : Bool := let w := s.half tun 0; Tun.v w && Tun.dhub w = s.addr && Tun.dport w = 6

/-- An external master starts a cycle (R194, R199, R202–R204). -/
def State.pxMaster (s : State) (write : Bool) (addr be data : Nat) : State :=
  if !s.on Pg.pxb PXB.PX_CFG_en || !s.on Pg.pxb PXB.PX_CFG_ext_en || s.pxOwner != 0 then s
  else
    let e : PxExt := { write := write, addr := addr % 2 ^ 24, be := be, data := data }
    let s : State := { s with xbr := { s.xbr with pxExt := some e } }
    let s := s.wr Pg.pxb PXB.PX_STAT_owner 2
    match s.winOut e.addr with
    | none => ((s.bump Pg.pxb PXB.PX_CNT2_window_miss 1).raise Pg.pxb PXB.ev_window_miss ⟨0, e.addr, 0⟩).pxAnswer e 0xFFFF
    | some n =>
      let r := s.pxReqOf n write e.addr be data
      if s.pxSelf r.tunnel then (s.erlLog erWindow r n).pxAnswer e 0xFFFF
      else if write && !r.wc then
        ({ s with xbr := { s.xbr with pxExt := some { e with held := some (n, r) } } } : State).pxAdmit
      else match s.pxMatch r be with
        | some k => if (s.dslot k).state = slReady then s.pxGive e k else s.pxRetryN
        | none =>
          let used := countWhere (fun k => (s.dslot k).state != slFree && (s.dslot k).owner = 1) (List.range 64)
          match (if 4 ≤ used then none else s.freeSlot) with
          | none => s.pxRetryN
          | some k =>
            let s := s.slotTake k 1 r be
            ({ s with xbr := { s.xbr with pxExt := some { e with slot := some k } } }).pxIssue r k

def execExternalMasterCycle (write : Bool) (addr : Nat) (be : Fin 4) (data : Nat) (s : State) : Host.Outcome State Fault Refusal :=
  s.run (fun s => s.pxMaster write addr be.val (data % 65536))

/-- A read or confirmed write that still waits is ended after t_pxr_us; its operation goes on in its slot (R203). -/
def State.masterRetry (s : State) : State := match s.xbr.pxExt with
  | some e => if s.pxOwner = 2 && e.answer.isNone && e.held.isNone then s.pxRetryN else s
  | none => s

def execMasterRetry (s : State) : Host.Outcome State Fault Refusal := s.run State.masterRetry

/-- The result of a master's delayed operation reaches a master that still waits on the bus (R203). -/
def State.pxMeet (s : State) : State := match s.xbr.pxExt with
  | some e => match e.slot with
    | some n => if s.pxOwner = 2 && (s.dslot n).done then s.pxGive e n else s
    | none => s
  | none => s

/-! ### The PX bridge as a slow target (R189) -/

/-- t_retry_us has passed for a non-posted request at the bridge (R189): RETRY with a ticket, the operation goes on in a slot. -/
def State.slowRetry (s : State) (v t : Nat) : State :=
  let hit := fun (o : PxOp) => !o.req.posted && o.slot.isNone && o.req.vhc = v && o.req.tag = t
  match ((s.xbr.pxOp.toList ++ s.xbr.pxPosted ++ s.xbr.pxWait).find? hit), s.freeSlot with
  | some o, some n =>
    let s := s.slotTake n 0 o.req 0
    let mark := fun (x : PxOp) => if hit x then { x with slot := some n } else x
    let s : State := { s with xbr := { s.xbr with pxOp := s.xbr.pxOp.map mark, pxPosted := s.xbr.pxPosted.map mark, pxWait := s.xbr.pxWait.map mark } }
    s.retryTicket (s.chainIn o.port) n o.req
  | _, _ => s

def execSlowTargetRetry (v : Vhc) (tag : Nat) (s : State) : Host.Outcome State Fault Refusal := s.run (fun s => s.slowRetry v.val tag)

/-! ### Completions (R187, R188, R193) -/

/-- The initiators behind a completion's dport; at a bay the function that holds the tunnel, 0 its USB controller, 2 its root port (R186, R187). -/
def initsOf (dport fn : Nat) : List Nat :=
  if dport = 8 then [0] else if 1 ≤ dport && dport ≤ 4 then (if fn = 0 then [4 + dport] else if fn = 2 then [dport] else []) else if dport = 6 then [10] else [9]

/-- A completion reaches its initiator (R187, R188): matched, late, or unexpected. A RETRY for a read that the host has been answered abandons its ticket (R193). -/
def State.completionIn (s : State) (fn : Nat) (c : Cell) : State :=
  let r := reqOf c
  let is := initsOf c.dport fn
  match s.xbr.outst.find? (fun o => is.any (fun i => o.is i r.vhc r.tag)) with
  | some o =>
    if r.st = stRetry then
      (if o.answered then (s.dropOut o).pump
       else if o.init = 0 then s.setOut { o with retry := true, ticket := r.ticket } else s.sendT o.chain { o.req with ticket := r.ticket } true true)
    else
      let got := o.got ++ r.data
      let st := if r.psn && r.st = stSC then stCA else r.st
      if st = stSC && o.req.op = 0 && !c.lst then s.setOut { o with got := got }
      else ((((s.dropOut o).finish o st got).pump).pxMeet)
  | none =>
    match s.xbr.quar.find? (fun q => is.contains q.init && q.vhc = r.vhc && q.tag = r.tag) with
    | some q =>
      let s : State := { s with xbr := { s.xbr with quar := s.xbr.quar.filter (· != q) } }
      ((s.bump Pg.xbr XBR.XBR_CNT0_late_cpl 1).raise Pg.xbr XBR.ev_late_cpl c.ctx).pump
    | none => (s.bump Pg.xbr XBR.XBR_CNT1_unexp_cpl 1).raise Pg.xbr XBR.ev_unexp_cpl c.ctx

def execCompletionRx (d : Delivery) (s : State) : Host.Outcome State Fault Refusal := s.run (fun s => s.completionIn d.fn.val d.cell)

/-- A non-posted request times out (R188). -/
def State.cplTimeout (s : State) (i v t : Nat) : State := match s.xbr.outst.find? (fun o => o.is i v t) with
  | none => s
  | some o =>
    let s := (s.dropOut o).finish o stCA []
    let c := (s.tunCell o.req.tunnel o.chain).getD {}
    let s := s.erlLog erCplTmo { o.req with shub := c.shub, sport := c.sport, dport := c.dport }
    let s := (s.bump Pg.xbr XBR.XBR_CNT0_cpl_tmo 1).raise Pg.xbr XBR.ev_cpl_tmo { c with vhc := o.req.vhc, gen := o.req.gen, tag := o.req.tag }.ctx
    let s : State := { s with xbr := { s.xbr with quar := s.xbr.quar ++ [{ init := i, vhc := v, tag := t }] } }
    s.pump.pxMeet

def execCompletionTimeout (init : Fin 11) (v : Vhc) (tag : Nat) (s : State) : Host.Outcome State Fault Refusal := s.run (fun s => s.cplTimeout init.val v.val tag)

def execQuarantineExpiry (init : Fin 11) (v : Vhc) (tag : Nat) (s : State) : Host.Outcome State Fault Refusal :=
  s.run (fun s => ({ s with xbr := { s.xbr with quar := s.xbr.quar.filter (fun q => !(q.init = init.val && q.vhc = v.val && q.tag = tag)) } }).pump)

/-- The head re-issues a request ivl_us after its RETRY, with the ticket (R193); ticket 0 as new (R192). -/
def State.reissue (s : State) (v t : Nat) : State := match s.xbr.outst.find? (fun o => o.is 0 v t && o.retry) with
  | none => s
  | some o => (s.setOut { o with retry := false }).sendT o.chain { o.req with ticket := o.ticket } true true

def execHeadReissue (v : Vhc) (tag : Nat) (s : State) : Host.Outcome State Fault Refusal := s.run (fun s => s.reissue v.val tag)

/-- A host read has not completed for the window read limit (R193): CA to the host, the ticket is abandoned. `t` is its tag; none is the oldest read of the VHC that still waits for a
tag. -/
def State.readLimit (s : State) (v : Nat) (t : Option Nat) : State :=
  let late := fun (s : State) => (s.emit (.hostCpl v stCA [])).raise (Pg.vhc v) VHC.ev_rd_limit
  match t with
  | some t => match s.xbr.outst.find? (fun o => o.is 0 v t && o.req.reads && !o.answered) with
    | none => s
    | some o => if o.retry then ((late s).dropOut o).pump else (late s).setOut { o with answered := true }
  | none => match (s.xbr.waitl ++ s.xbr.hostHeld).find? (fun o => o.init = 0 && o.req.vhc = v && o.req.reads) with
    | none => s
    | some o =>
      let w := s.xbr.waitl.contains o
      (({ late s with xbr := { (late s).xbr with waitl := if w then s.xbr.waitl.erase o else s.xbr.waitl, hostHeld := if w then s.xbr.hostHeld else s.xbr.hostHeld.erase o } } : State)).pump

def execWindowReadLimit (v : Vhc) (tag : Option Nat) (s : State) : Host.Outcome State Fault Refusal := s.run (fun s => s.readLimit v.val tag)

/-! ### Error events, quotas, the error log (R185, R197, R198, R208) -/

/-- An error event at a head (R197, R198, R221). -/
def State.errorIn (s : State) (c : Cell) : State :=
  let w := (List.range 8).map (fun i => numAt c.payload (4 + 4 * i) 4)
  if s.mode != .head then s
  else if s.vGen c.vhc != c.gen then s.bump Pg.vhg VHG.GEN_CNT_stale_err 1
  else
    let s := if bitsOf (w.getD 0 0) 15 8 = erQReset && bitOf (w.getD 0 0) 7 = 0 then s.resetOut c.vhc (bitsOf (w.getD 1 0) 17 6) else s
    s.eqEntry c.vhc w

def execErrorEventRx (p : Port) (c : Cell) (s : State) : Host.Outcome State Fault Refusal := s.run (fun s => s.msgIn p c (fun s => s.errorIn c))

/-- The quotas that count against 4,096 (R185, R232): those of VHCs that are not FREE. -/
def State.quotaSum (s : State) (but : Nat) : Nat :=
  sumNat ((List.range 64).map (fun v => if v != but && s.vState v != vFree then s.quotaOf v else 0))

def State.setQuota (s : State) (v q : Nat) : State := { s with xbr := { s.xbr with quota := Tab.put v q s.xbr.quota } }

/-- QUOTA_DATA is written (R185): `v` is the word. -/
def State.quotaWrite (s : State) (v : Nat) : State :=
  if s.mode != .head then s
  else
    let x := s.rd Pg.xbr XBR.QUOTA_SEL_vhc
    let q := bitsOf v 28 16
    if 4096 < s.quotaSum x + q then s.raise Pg.xbr XBR.ev_cfg_err else (s.setQuota x q).pump

def execQuotaWrite (v : Nat) (s : State) : Host.Outcome State Fault Refusal := s.run (fun s => s.quotaWrite v)

def execErlClr (s : State) : Host.Outcome State Fault Refusal := s.run (fun s => { s with xbr := { s.xbr with erl := [] } })

end Sys2Proof.Machine
end

