-- ==== Sys2Proof/Machine/VhgOps.lean ====
section
/-!
DEFINITION. Sys2Proof/Machine/VhgOps.lean: the event distributor of a head (R184, R219, R220), and the interrupts that bay functions send (R219).
-/
namespace Sys2Proof.Machine

open Sys2Proof

/-! ### The event distributor (R184, R220) -/

/-- A dropped event. -/
def State.evDropped (s : State) : State := s.bump Pg.vhg VHG.EVD_CNT_dropped 1

/-- The dport of a function of a kind (R213). -/
def kindPort (kind unit : Nat) : Nat := if kind = 4 then 5 else if kind = 5 then 7 else if kind = 6 then 6 else unit + 1

/-- The sport of the event cells of a function: its bay, the window or the bridge (DEDUCED, log entry 27). -/
def kindEvent (kind unit : Nat) : Nat := if kind = 4 then unit + 1 else kindPort kind unit

/-- The directory entry of a VHC that an event names by chain, hub, source port and kind (R220). -/
def State.evEntry (s : State) (v chain hub sport kind : Nat) : Option Nat :=
  (List.range 16).find? (fun f =>
    let w := s.dirCfg v f
    dirV w && dirKind w = kind && dirHub w = hub && (hub = 0 || dirChain w = chain) && kindEvent kind (dirUnit w) = sport)

/-- Everything up to a fence has been delivered and written (R184): the resequencer has passed it, and no cell up to it waits at the HOST egress. -/
def State.fenceMet (s : State) (x : Fence) : Bool :=
  let past := match s.rsq (0x100000 + x.tunnel * 2 + x.chain) with
    | some r => 0 < serialDist 16 x.tseq r.exp && serialDist 16 x.tseq r.exp < 32768
    | none => false
  past && !(s.queue (classQ 7 clsT)).any (fun b => b.cell.tunnel = x.tunnel && serialDist 16 b.cell.tseq x.tseq < 32768)

/-- An interrupt of a function reaches the distributor (R220): its vector is signalled, or held for its fence (R184). -/
def State.irqIn (s : State) (chain hub sport kind v gen vec : Nat) (fence : Option Nat) : State :=
  let st := s.vState v
  if gen != s.vGen v || st = vFree || st = vDisabled then s.evDropped
  else match s.evEntry v chain hub sport kind with
    | none => s.evDropped
    | some f =>
      let w := s.dirCfg v f
      let n := dirVecCnt w
      let s := if n ≤ vec then s.evDropped else s
      let k := (dirVecBase w + (if n ≤ vec then n - 1 else vec)) % 64
      match fence with
      | none => s.vecSignal v k
      | some t =>
        let x : Fence := ⟨chain, bitsOf (s.rd (Pg.vhc v) (VHC.DIR_TUN_tun f)) 11 0, t, k⟩
        if s.fenceMet x then s.vecSignal v k else let c := s.vhcCtx v; s.setVhcCtx v { c with fences := c.fences ++ [x] }

/-- An interrupt event cell at a head (R219): byte 1 kind, byte 2 vector, bytes 4–5 fence, byte 6 its valid bit. -/
def State.irqCell (s : State) (p : Port) (c : Cell) : State :=
  if s.mode != .head || byteAt c.payload 0 != 0x41 then s
  else
    s.irqIn (chainOf p) c.shub c.sport (byteAt c.payload 1) c.vhc c.gen (byteAt c.payload 2) (if byteAt c.payload 6 % 2 = 1 then some (numAt c.payload 4 2) else none)

def execInterruptEventRx (p : Port) (c : Cell) (s : State) : Host.Outcome State Fault Refusal := s.run (fun s => s.msgIn p c (fun s => s.irqCell p c))

/-- Fences that are met let their interrupts go (R184). -/
def State.fenceRelease (s : State) (v : Nat) : State :=
  let x := s.vhcCtx v
  let go := x.fences.filter s.fenceMet
  (s.setVhcCtx v { x with fences := x.fences.filter (fun f => !s.fenceMet f) }).each go (fun s f => s.vecSignal v f.vec)

def execFenceRelease (v : Vhc) (s : State) : Host.Outcome State Fault Refusal := s.run (fun s => s.fenceRelease v.val)

/-! ### Interrupts of this part's bay functions (R184, R219) -/

/-- The chain half of a tunnel that this part sources for a VHC. -/
def State.sourceHalf (s : State) (t v : Nat) : Nat :=
  if s.mode != .head then 0 else if Tun.v (s.half t 0) && Tun.shub (s.half t 0) = 0 && Tun.vhc (s.half t 0) = v then 0 else 1

/-- The event cell of an interrupt; the fence is the tseq of the last posted request in the function's T tunnel toward the head, if there was one (R184). -/
def State.bayIrqSend (s : State) (kind unit v vec tunUp : Nat) : State :=
  let fence := Tab.find (seqKey tunUp 0 (s.sourceHalf tunUp v)) s.gran.lastPosted
  s.bayEvent (kindEvent kind unit) v (s.genFor v) ([0x41, BitVec.ofNat 8 kind, BitVec.ofNat 8 vec, 0] ++ leBytes 2 (fence.getD 0) ++ leBytes 1 (b2n fence.isSome) ++ [0])

/-- A bay function of this part raises vector `vec`: a parked function raises none (R216), a stopped one holds it (R227). -/
def State.bayIrq (s : State) (kind unit v vec tunUp : Nat) : State :=
  if s.fns.parked.contains v then s
  else if s.fns.frozen.contains v then { s with fns := { s.fns with heldIrq := s.fns.heldIrq ++ [(kind, unit, v, vec, tunUp)] } }
  else s.bayIrqSend kind unit v vec tunUp

end Sys2Proof.Machine
end

