-- ==== Sys2Proof/Machine/Present.lean ====
section
/-!
DEFINITION. Sys2Proof/Machine/Present.lean: the present rings and the encoders of a head (R234–R238, R246, R247, R253, R258, R259).
-/
namespace Sys2Proof.Machine

open Sys2Proof

/-! ### Functions and their rings -/

/-- The key of a function: its VHC and directory entry. -/
def fnKey (v f : Nat) : Nat := 16 * v + f

def State.prCtx (s : State) (k : Nat) : Option PrCtx := Tab.find k s.enc.fns

def State.setPr (s : State) (k : Nat) (x : PrCtx) : State := { s with enc := { s.enc with fns := Tab.put k x s.enc.fns } }

/-- Functions bound to a pipeline. -/
def State.bound (s : State) (pipe : Nat) : Nat := countWhere (fun x => x.2.pipe = pipe) s.enc.fns

/-- The pipeline that ADD_FUNC binds a display function to (R238): enabled, fewest bound, lowest number; pipeline 0 when none is enabled. -/
def State.pickPipe (s : State) : Nat :=
  let on := (List.range 4).filter (fun p => bitOf (s.rd Pg.enc ENC.ENC_CFG_pipe_en) p = 1)
  on.foldl (fun b p => if s.bound p < s.bound b then p else b) (on.headD 0)

/-- Entries of a ring. -/
def State.prSize (s : State) (k : Nat) : Nat := let n := s.rd (Pg.present k) PR.PR_CFG_size; 2 ^ (if 4 ≤ n ∧ n ≤ 10 then n else 4)

/-- A ring entry's bytes (R235). -/
def prEntOf (l : List Byte) : PrEnt :=
  let fmt := byteAt l 12
  let flags := byteAt l 13
  { addr := numAt l 0 8, pitch := numAt l 8 4, ten := bitOf fmt 0 = 1, tiled := bitOf fmt 4 = 1, close := bitOf flags 0 = 1, x0 := numAt l 16 2, y0 := numAt l 18 2,
    w := numAt l 20 2, h := numAt l 22 2, cookie := numAt l 24 4, clean := fmt % 16 ≤ 1 && fmt / 32 = 0 && flags ≤ 1 && numAt l 14 2 = 0 && numAt l 28 4 = 0 }

/-- A function's aperture answers (R214): its entry is valid and of a kind, its VHC is ACTIVE. -/
def State.apertureOn (s : State) (v f kind : Nat) : Bool :=
  s.mode = .head && s.vState v = vActive && dirV (s.dirCfg v f) && dirKind (s.dirCfg v f) = kind

/-- A posted host write that is answered by nothing but a count (R214). -/
def State.urWrite (s : State) (v : Nat) : State := if s.mode = .head then s.bump (Pg.vhc v) VHC.UR_CNT_ur 1 else s

/-- PR_TAIL is written: the entries up to it are read from host memory and presented (R235). -/
def State.prTail (s : State) (v f tail : Nat) (ents : List (List Byte)) : State :=
  if !s.apertureOn v f 4 then s.urWrite v
  else
    let k := fnKey v f
    let p := Pg.present k
    let n := s.prSize k
    let old := s.rd p PR.PR_TAIL_tail % n
    let new := tail % n
    let s := s.wr p PR.PR_TAIL_tail tail
    if !s.on p PR.PR_CFG_en then s
    else
      let cnt := (new + n - old) % n
      let base := s.rd p PR.PR_BASE_LO_base_lo * 64 + s.rd p PR.PR_BASE_HI_base_hi * 2 ^ 32
      let s := s.each (List.range cnt) (fun s i => s.emit (.hostRead (v + 1) (base + 32 * ((old + i) % n)) 32 0))
      let x := (s.prCtx k).getD { pipe := 0 }
      s.setPr k { x with ring := x.ring ++ (ents.take cnt).map prEntOf }

def execPrTailWrite (v : Vhc) (f : Fin 16) (tail : Nat) (ents : List (List Byte)) (s : State) : Host.Outcome State Fault Refusal :=
  s.run (fun s => s.prTail v.val f.val (tail % 1024) ents)

/-- PR_CFG is written: configures the ring and clears PR_HEAD; nothing while entries are pending (R258). -/
def State.prCfg (s : State) (v f w : Nat) : State :=
  if !s.apertureOn v f 4 then s.urWrite v
  else
    let k := fnKey v f
    let p := Pg.present k
    if s.rd p PR.PR_HEAD_head != s.rd p PR.PR_TAIL_tail then s
    else
      let s := ((s.wr p PR.PR_CFG_en (bitOf w 31)).wr p PR.PR_CFG_size (bitsOf w 19 16)).wr p PR.PR_CFG_vector (bitsOf w 5 0)
      let x := (s.prCtx k).getD { pipe := 0 }
      (s.wr p PR.PR_HEAD_head 0).setPr k { x with ring := [] }

def execPrCfgWrite (v : Vhc) (f : Fin 16) (w : Nat) (s : State) : Host.Outcome State Fault Refusal := s.run (fun s => s.prCfg v.val f.val w)

/-! ### The end of a set (R253) -/

/-- A vector of a function, mapped as the distributor maps it (R220). -/
def State.fnSignal (s : State) (v f vec : Nat) : State :=
  let w := s.dirCfg v f
  let n := dirVecCnt w
  let s := if n ≤ vec then s.evDropped else s
  s.vecSignal v ((dirVecBase w + (if n ≤ vec then n - 1 else vec)) % 64)

/-- A set completes with a status: its record, PR_DONE, the counters, the vector. -/
def State.setDone (s : State) (v f : Nat) (num cookie status subs : Nat) (last : List Byte) : State :=
  let p := Pg.present (fnKey v f)
  let a := s.rd p PR.PR_WB_LO_wb_lo * 16 + s.rd p PR.PR_WB_HI_wb_hi * 2 ^ 32
  let s := if a = 0 then s
    else (s.emit (.hostWrite (v + 1) a (leBytes 4 cookie ++ leBytes 2 num ++ leBytes 1 status ++ leBytes 1 subs ++ last))).raise Pg.enc ENC.ev_set_done
  let s := (s.wr p PR.PR_DONE_status status).wr p PR.PR_DONE_set num
  let s := s.bump p PR.PR_CNT_sets 1
  let s := if status ≤ 1 then s else s.bump p PR.PR_CNT_failed 1
  s.fnSignal v f (s.rd p PR.PR_CFG_vector)

/-- PR_HEAD moves past entries. -/
def State.prAdvance (s : State) (k n : Nat) : State :=
  let p := Pg.present k
  s.wr p PR.PR_HEAD_head ((s.rd p PR.PR_HEAD_head + n) % s.prSize k)

/-- A set is abandoned (R237): err 1 BAD_RECT, 2 FETCH_ERR, 0 another status; `left` entries of it remain in the ring. -/
def State.abandon (s : State) (v f num cookie status err left : Nat) : State :=
  let k := fnKey v f
  let s := s.prAdvance k left
  let s := if err = 1 then ((s.wr (Pg.present k) PR.PR_STAT_err 1).bump Pg.enc ENC.FAIL_CNT_bad_rect 1).raise Pg.enc ENC.ev_bad_rect
    else if err = 2 then ((s.wr (Pg.present k) PR.PR_STAT_err 2).bump Pg.enc ENC.FAIL_CNT_fetch_err 1).raise Pg.enc ENC.ev_fetch_err else s
  s.setDone v f num cookie status 0 (List.replicate 8 0)

/-! ### Subsets (R235, R246, R247) -/

def geoWt (g : HeadGeo) : Nat := ceilDiv g.width 16
def geoHt (g : HeadGeo) : Nat := ceilDiv g.height 16
def geoBudget (g : HeadGeo) : Nat := if g.bpp6 then 192 else 256
def geoDepth (g : HeadGeo) : Nat := if g.ten then 10 else 8

/-- An entry that R237 rejects. -/
def PrEnt.bad (e : PrEnt) (g : HeadGeo) : Bool := !e.clean || e.w = 0 || e.h = 0 || geoWt g < e.x0 + e.w || geoHt g < e.y0 + e.h || e.ten != g.ten

def PrEnt.covers (e : PrEnt) (tx ty : Nat) : Bool := e.x0 ≤ tx && tx < e.x0 + e.w && e.y0 ≤ ty && ty < e.y0 + e.h

/-- Columns gathered into runs. -/
def runsOf (row : Nat) : List Nat → List Run
  | [] => []
  | c :: t => match runsOf row t with
    | r :: rs => if r.col = c + 1 then { r with col := c, n := r.n + 1 } :: rs else ⟨row, c, 1⟩ :: r :: rs
    | [] => [⟨row, c, 1⟩]

/-- The runs of a set, one list a tile row, in ascending order. -/
def setRows (g : HeadGeo) (es : List PrEnt) : List (List Run) :=
  ((List.range (geoHt g)).map (fun y => runsOf y ((List.range (geoWt g)).filter (fun x => es.any (fun e => e.covers x y))))).filter (fun l => !l.isEmpty)

def runTiles (l : List Run) : Nat := sumNat (l.map (·.n))

/-- Rows gathered into subsets of at most `cap` tiles and 240 runs (R247). -/
def splitRows (cap : Nat) : List (List Run) → List Run → List (List Run)
  | [], acc => if acc.isEmpty then [] else [acc]
  | r :: t, acc =>
    if acc.isEmpty then splitRows cap t r
    else if runTiles acc + runTiles r ≤ cap && acc.length + r.length ≤ 240 then splitRows cap t (acc ++ r) else acc :: splitRows cap t r

def subsetsOf (g : HeadGeo) (es : List PrEnt) : List (List Run) := splitRows (if g.bpp6 then 1365 else 1024) (setRows g es) []

/-- A run's word (R246). -/
def Run.word (r : Run) : Nat := r.n * 2 ^ 18 + r.row * 512 + r.col

/-- The tile indices of runs in their order. -/
def runPos (l : List Run) : List Nat := l.flatMap (fun r => (List.range r.n).map (fun i => 512 * r.row + r.col + i))

/-- The host reads of an entry's pixels (R236): rows of a linear surface, tiles of a tile-major one. -/
def pixReads (g : HeadGeo) (e : PrEnt) : List (Nat × Nat) :=
  (List.range e.h).flatMap (fun j => (List.range e.w).flatMap (fun i =>
    let tx := e.x0 + i
    let ty := e.y0 + j
    let cols := min 16 (g.width - 16 * tx)
    let rows := min 16 (g.height - 16 * ty)
    (List.range rows).map (fun r => if e.tiled then (e.addr + ty * e.pitch + 1024 * tx + 64 * r, 4 * cols) else (e.addr + (16 * ty + r) * e.pitch + 64 * tx, 4 * cols))))

/-- The pixels of a tile, zero beyond the head's size. -/
def tilePixels (g : HeadGeo) (tx ty : Nat) (w : List Nat) : List Rgb :=
  (List.range 256).map (fun i => if 16 * tx + i % 16 < g.width && 16 * ty + i / 16 < g.height then rgbOfWord g.ten (w.getD i 0) else ⟨0, 0, 0⟩)

/-- A tile is coded and counted (R239, R259). -/
def State.codeOne (s : State) (pipe : Nat) (g : HeadGeo) (tx ty : Nat) (w : List Nat) : List Byte × State :=
  let x := codeTile (geoBudget g) (geoDepth g) (tilePixels g tx ty w)
  let s := s.bump Pg.enc (ENC.PIPE_CNT_tiles pipe) 1
  let s := if x.2 = 64 then s.bump Pg.enc ENC.ENC_SOLID_solid 1 else if x.2 = 0 then s.bump Pg.enc ENC.ENC_LOSSLESS_lossless 1 else s.bump Pg.enc ENC.ENC_FIXED_fixed 1
  (leBytes 2 (tileSum tx ty x.1) ++ x.1, s)

/-- The G tunnel of a display function, from DIRf_AUX. -/
def State.auxDn (s : State) (v f : Nat) : Nat := bitsOf (s.rd (Pg.vhc v) (VHC.DIR_AUX_aux f)) 27 16

/-- A subset leaves as one group (R246). -/
def State.sendSubset (s : State) (v f pipe : Nat) (t : PrSet) (runs : List Run) (more : Bool) : State :=
  let w := s.dirCfg v f
  match s.tunCell (s.auxDn v f) (dirChain w) with
  | none => s.noEntry
  | some c =>
    let p := s.portFor (dirChain w)
    let pos := runPos runs
    let flags := b2n more + 2 * b2n (t.split && !more)
    let head := leBytes 2 t.num ++ leBytes 1 t.idx ++ leBytes 1 flags ++ leBytes 2 pos.length ++ leBytes 2 runs.length ++ List.replicate 8 0 ++ runs.flatMap (fun r => leBytes 4 r.word)
    let s := s.sendPacket (codeOfPort c.sport) p { c with fst := true, lst := false } head
    s.each ((List.range pos.length).zip pos) (fun s x =>
      let (r, s) := s.codeOne pipe t.geo (x.2 % 512) (x.2 / 512) ((Tab.find x.2 t.px).getD [])
      s.sendPacket (codeOfPort c.sport) p { c with fst := false, lst := x.1 + 1 = pos.length } r)

/-! ### The pipelines (R237, R238) -/

/-- Whether a function has something for its pipeline. -/
def PrCtx.ready (x : PrCtx) : Bool := match x.cur with
  | some t => t.fetch.isEmpty
  | none => x.ring.any (·.close)

/-- The function that a pipeline serves next: the first after the last served, in a ring of keys. -/
def State.nextFn (s : State) (pipe : Nat) : Option Nat :=
  let ks := (s.enc.fns.filter (fun x => x.2.pipe = pipe && x.2.ready && s.vState (x.1 / 16) = vActive)).map (·.1)
  let last := (Tab.find pipe s.enc.last).getD 1024
  match ks.find? (fun k => last < k && last < 1024) with
  | some k => some k
  | none => ks.head?

/-- The entries up to and including the first close. -/
def takeSet : List PrEnt → List PrEnt × List PrEnt
  | [] => ([], [])
  | e :: t => if e.close then ([e], t) else let r := takeSet t; (e :: r.1, r.2)

/-- A set is taken from the ring: rejected whole, or its pixels are fetched (R235–R237). -/
def State.takePresent (s : State) (v f : Nat) (x : PrCtx) (g : HeadGeo) : State :=
  let k := fnKey v f
  let (es, rest) := takeSet x.ring
  let cookie := (es.getLast?.map (·.cookie)).getD 0
  let num := x.next
  let x := { x with ring := rest, next := (num + 1) % 65536 }
  if g.width = 0 || g.height = 0 then (s.setPr k x).abandon v f num cookie 5 0 es.length
  else if es.any (fun e => e.bad g) then (s.setPr k x).abandon v f num cookie 2 1 es.length
  else
    let subs := subsetsOf g es
    let t : PrSet := { num := num, cookie := cookie, geo := g, fetch := es, subs := subs, idx := 0, split := 1 < subs.length, px := [] }
    let s := s.setPr k { x with cur := some t }
    s.each (es.flatMap (pixReads g)) (fun s r => s.emit (.hostRead (v + 1) r.1 r.2 0))

/-- A pipeline takes the next subset of a bound function (R238): of a set whose pixels are fetched, unless its G queue is at its mark; else the next set's pixels are
asked for. -/
def State.encodeStart (s : State) (pipe : Nat) (g : HeadGeo) : State := match s.nextFn pipe with
  | none => s
  | some k => match s.prCtx k with
    | none => s
    | some x =>
      let v := k / 16
      let f := k % 16
      match x.cur with
      | none => ({ s with enc := { s.enc with last := Tab.put pipe k s.enc.last } }).takePresent v f x g
      | some t => match t.subs with
        | [] => s.setPr k { x with cur := none }
        | runs :: more =>
          if s.rd Pg.grn GRN.TQ_MARK_tq_mark ≤ (s.queue (s.auxDn v f)).length then s
          else
            let s : State := { s with enc := { s.enc with last := Tab.put pipe k s.enc.last } }
            let sent := if t.idx = 0 then x.sent ++ [{ num := t.num, cookie := t.cookie, subs := t.subs.length : PrSent }] else x.sent
            let cur := if more.isEmpty then none else some { t with subs := more, idx := t.idx + 1 }
            (s.setPr k { x with cur := cur, sent := sent }).sendSubset v f pipe t runs (!more.isEmpty)

def execEncodeSubsetStart (pipe : Fin 4) (g : HeadGeo) (s : State) : Host.Outcome State Fault Refusal :=
  s.run (fun s => if s.mode = .head then s.encodeStart pipe.val g else s)

/-- The surface words of an entry's tiles, 256 a tile, put under their tiles; a later entry's replace an earlier one's (log entry 28). -/
def putPixels (e : PrEnt) (px : List Nat) (t : Tab (List Nat)) : Tab (List Nat) :=
  ((List.range (e.w * e.h)).foldl (fun t i => Tab.put (512 * (e.y0 + i / e.w) + e.x0 + i % e.w) ((px.drop (256 * i)).take 256) t) t)

/-- The pixels of the next entry have been fetched, or a fetch failed (R237). -/
def State.pixelsIn (s : State) (v f : Nat) (ok : Bool) (px : List Nat) : State := match s.prCtx (fnKey v f) with
  | none => s
  | some x => match x.cur with
    | none => s
    | some t => match t.fetch with
      | [] => s
      | e :: rest =>
        if ok then (s.setPr (fnKey v f) { x with cur := some { t with fetch := rest, px := putPixels e px t.px } }).prAdvance (fnKey v f) 1
        else (s.setPr (fnKey v f) { x with cur := none }).abandon v f t.num t.cookie 3 2 t.fetch.length

def execPixelFetchComplete (v : Vhc) (f : Fin 16) (ok : Bool) (px : List Nat) (s : State) : Host.Outcome State Fault Refusal :=
  s.run (fun s => s.pixelsIn v.val f.val ok px)

/-! ### Present-done events (R253) -/

/-- A present-done event at the head. -/
def State.presentIn (s : State) (p : Port) (c : Cell) : State :=
  if s.mode != .head || byteAt c.payload 0 != 0x42 then s
  else if c.gen != s.vGen c.vhc then s.evDropped
  else match s.evEntry c.vhc (chainOf p) c.shub c.sport 4 with
    | none => s.evDropped
    | some f => match s.prCtx (fnKey c.vhc f) with
      | none => s
      | some x =>
        let num := numAt c.payload 4 2
        match x.sent.find? (fun t => t.num = num) with
        | none => s
        | some t =>
          let others := x.sent.filter (fun y => y.num != num)
          let status := byteAt c.payload 2
          let frame := numAt c.payload 8 4
          let last := (c.payload.drop 8).take 8
          if 2 ≤ status then (s.setPr (fnKey c.vhc f) { x with sent := others }).setDone c.vhc f num t.cookie status t.subs last
          else
            let t := { t with split := t.split || status = 1 || (t.frame != none && t.frame != some frame), frame := some frame }
            if byteAt c.payload 7 % 2 = 1 then s.setPr (fnKey c.vhc f) { x with sent := x.sent.map (fun y => if y.num = num then t else y) }
            else (s.setPr (fnKey c.vhc f) { x with sent := others }).setDone c.vhc f num t.cookie (b2n t.split) t.subs last

def execPresentDoneRx (p : Port) (c : Cell) (s : State) : Host.Outcome State Fault Refusal := s.run (fun s => s.msgIn p c (fun s => s.presentIn p c))

/-! ### Binding, abort and reset of a display function (R216, R238, R253) -/

/-- ADD_FUNC binds a display function (R238). -/
def State.bindFn (s : State) (v f : Nat) : State := s.setPr (fnKey v f) { pipe := s.pickPipe }

/-- The present interface of a function at its reset values. -/
def State.clearPr (s : State) (k : Nat) : State := { s with regs := s.regs.filter (fun x => x.1 / 131072 != Pg.present k) }

def State.unbindFn (s : State) (v f : Nat) : State := ({ s with enc := { s.enc with fns := Tab.del (fnKey v f) s.enc.fns } }).clearPr (fnKey v f)

/-- The VHC leaves ACTIVE: sets in progress complete with ABORTED (R253). -/
def State.abortFn (s : State) (v f : Nat) : State := match s.prCtx (fnKey v f) with
  | none => s
  | some x =>
    let cur := match x.cur with
      | some t => if x.sent.any (fun y => y.num = t.num) then [] else [(t.num, t.cookie, t.fetch.length)]
      | none => []
    let left := match x.cur with
      | some t => t.fetch.length
      | none => 0
    let s := (s.setPr (fnKey v f) { x with cur := none, sent := [] }).prAdvance (fnKey v f) left
    s.each (x.sent.map (fun t => (t.num, t.cookie, 0)) ++ cur) (fun s t => s.setDone v f t.1 t.2.1 6 0 (List.replicate 8 0))

def State.encAbort (s : State) (v : Nat) : State := s.each (List.range 16) (fun s f => s.abortFn v f)

/-- A display function starts from reset: its ring, its set number and its registers; its pipeline stays. -/
def State.resetPresent (s : State) (v f : Nat) : State := match s.prCtx (fnKey v f) with
  | none => s
  | some x => (s.setPr (fnKey v f) { pipe := x.pipe }).clearPr (fnKey v f)

end Sys2Proof.Machine
end

