-- ==== Sys2Proof/Machine/Loft.lean ====
section
/-!
DEFINITION. Sys2Proof/Machine/Loft.lean: staging and commit (R248–R252), the Loft (R254–R256, R260), and the scan-out decoder (R263, R264, R281,
R282).
-/
namespace Sys2Proof.Machine

open Sys2Proof

/-! ### Commit (R250, R251) -/

/-- The timing generator runs. -/
def State.scanning (s : State) (n : Nat) : Bool := s.on (Pg.disp n) DISP.DISP_STAT_running

/-- The present watchdog starts over; an unlatched violation ends (R279, R280). -/
def State.wdFed (s : State) (n : Nat) : State :=
  let p := Pg.frz n
  let s := s.setDh n { s.dh n with wdUs := 0 }
  if s.on p FRZ.WD_STAT_viol && !s.on p FRZ.WD_CFG_latch then ((s.wr p FRZ.WD_STAT_viol 0).wr p FRZ.FRZ_STAT_wd 0).raise p FRZ.ev_wd_clear else s

/-- The bank that commits next: one that is COMMITTING, else the CLOSED one that closed first. -/
def DispHead.next (x : DispHead) : Option Nat := match x.bankIn 3 with
  | some b => some b
  | none => if (x.bank x.fill).st = 2 then some x.fill else if (x.bank (1 - x.fill)).st = 2 then some (1 - x.fill) else none

/-- The bank that closed first begins to commit, unless another is COMMITTING or, double-buffered, a flip is due (R250, R251). What an earlier set has left unfinished in the back slot is
taken back first: such a head shows every set whole. -/
def State.startCommit (s : State) (n : Nat) : State :=
  let x := s.dh n
  match x.next with
  | none => s
  | some b =>
    if (x.bank b).st = 3 || (s.lDbl n && x.flipDue) then s
    else
      let s := if s.lDbl n && x.setNum != some (x.bank b).set then s.restoreBack n else s
      let x := s.dh n
      s.setDh n { x.setBank b { x.bank b with st := 3 } with setNum := if s.lDbl n then some (x.bank b).set else none }

/-- What a bank's last tile means for a double-buffered head (R251): of a broken set it is taken back; the last subset makes a flip due. -/
def State.doneBack (s : State) (n : Nat) (k : StBank) : State :=
  let x := s.dh n
  let x := { x with setTiles := x.setTiles ++ k.pos, setIdx := x.setIdx ++ [k.shown] }
  if k.dead then (s.setDh n x).restoreBack n
  else if k.more then s.setDh n x
  else s.setDh n { x with flipDue := true, shown := x.setTiles, setNum := none, setTiles := [], reports := x.reports ++ x.setIdx, setIdx := [] }

/-- A bank has committed its last tile; the other one may begin. -/
def State.bankDone (s : State) (n b : Nat) : State :=
  let x := s.dh n
  let k := x.bank b
  let p := Pg.stg n
  let s := s.setDh n (x.setBank b {})
  let s := (s.wr p STG.STG_SET_set k.set).wr p STG.STG_SET_subset k.idx
  let s := (s.bump p STG.STG_CNT0_commits 1).raise p STG.ev_set_commit
  let s := s.wdFed n
  let s := if s.lDbl n then s.doneBack n k else s.setDh n { s.dh n with reports := (s.dh n).reports ++ [k.shown] }
  s.startCommit n

/-- One tile row of the next bank commits, if the raster allows it (R250) or, double-buffered, no flip is due (R251). -/
def State.commitRow (s : State) (n : Nat) : State := match (s.dh n).next with
  | none => s
  | some b =>
    let x := s.dh n
    let k := x.bank b
    match k.tiles with
    | [] => s.bankDone n b
    | (t, _) :: _ =>
      let row := t / 512
      if s.lDbl n then
        if x.flipDue then s
        else
          let f := s.lFront n
          let back := copyTiles x.shown (x.slot f) (x.slot (1 - f))
          let mine := k.tiles.filter (fun y => y.1 / 512 = row)
          let left := k.tiles.filter (fun y => y.1 / 512 != row)
          let x := (x.setSlot (1 - f) (mine.foldl (fun t y => Tab.put y.1 y.2 t) back)).setBank b { k with st := 3, tiles := left }
          let s := s.setDh n { x with shown := [] }
          if left.isEmpty then s.bankDone n b else s
      else if s.scanning n && x.decRow ≤ row then s
      else
        let f := s.lFront n
        let mine := k.tiles.filter (fun y => y.1 / 512 = row)
        let left := k.tiles.filter (fun y => y.1 / 512 != row)
        let x := (x.setSlot f (mine.foldl (fun t y => Tab.put y.1 y.2 t) (x.slot f))).setBank b { k with st := 3, tiles := left }
        let s := s.setDh n x
        if left.isEmpty then s.bankDone n b else s

/-- Everything commits at once while the generator is stopped (R250); structural on the fuel. -/
def State.commitAll (n : Nat) : Nat → State → State
  | 0, s => s
  | k + 1, s => if s.scanning n then s else State.commitAll n k (s.commitRow n)

/-- At most this many rows are staged. -/
def commitFuel : Nat := 600

/-! ### Staging (R248, R249) -/

/-- A header's runs (R246). -/
def headRuns (l : List Byte) : List Run :=
  (List.range (numAt l 6 2)).map (fun i => let w := numAt l (16 + 4 * i) 4; ⟨bitsOf w 17 9, bitsOf w 8 0, bitsOf w 26 18⟩)

/-- A header is well formed for a display head (R246, R249 cause 6). -/
def State.headerOk (s : State) (n : Nat) (l : List Byte) : Bool :=
  let r := numAt l 6 2
  let rs := headRuns l
  1 ≤ r && r ≤ 240 && l.length = 16 + 4 * r && (List.range r).all (fun i => numAt l (16 + 4 * i) 4 / 2 ^ 27 = 0) &&
    rs.all (fun x => 1 ≤ x.n && x.col + x.n ≤ s.lWidth n && x.row < s.lHeight n) && runTiles rs = numAt l 4 2 &&
    numAt l 4 2 ≤ (if s.lBudget n = 192 then 1365 else 1024)

/-- The subset header starts a bank, or its subset is dropped. -/
def State.headerIn (s : State) (n : Nat) (good : Bool) (c : Cell) : State :=
  let l := c.payload
  let x : Shown := ⟨c.vhc, c.gen, numAt l 0 2, byteAt l 2, byteAt l 3 % 2 = 1⟩
  let s := match (s.dh n).bankIn 1 with
    | some b => s.dropBank n b 5
    | none => s
  let d := s.dh n
  let cause := if c.psn then 8 else if !good then 4 else if !s.lAlloc n then 7 else if !s.headerOk n l then 6 else 0
  if cause != 0 then ((s.setDh n { d with dropping := true }).takeBack n x.set).dropNote n cause x
  else
    let k : StBank := { st := 1, tunnel := c.tunnel, vhc := c.vhc, gen := c.gen, set := x.set, idx := x.idx, more := x.more, total := numAt l 4 2, pos := runPos (headRuns l), dead := s.lDbl n && d.broken = some x.set }
    s.setDh n { d.setBank d.fill k with dropping := false, broken := if d.broken = some x.set then d.broken else none }

/-- A bank closes; it waits for another that is COMMITTING, which is counted. -/
def State.closeBank (s : State) (n b : Nat) : State :=
  let x := s.dh n
  let other := (x.bank (1 - b)).st = 3
  let s := s.setDh n { x.setBank b { x.bank b with st := 2 } with fill := 1 - b }
  let s := if other then s.bump (Pg.stg n) STG.STG_CNT1_waits 1 else s
  State.commitAll n commitFuel (s.startCommit n)

/-- A tile record reaches staging (R248). -/
def State.tileRecIn (s : State) (n : Nat) (good : Bool) (c : Cell) : State := match (s.dh n).bankIn 1 with
  | none => s.bump (Pg.stg n) STG.STG_CNT1_discards 1
  | some b =>
    let x := s.dh n
    let k := x.bank b
    let r := c.payload
    let t := k.pos.getD k.got 0
    if k.tunnel != c.tunnel then s.bump (Pg.stg n) STG.STG_CNT1_discards 1
    else if c.psn then s.dropBank n b 8
    else if !good then s.dropBank n b 4
    else if k.total ≤ k.got then s.dropBank n b 5
    else if r.length != s.lBudget n || recDepth r != s.lDepth n || 2 ≤ recMode r then s.dropBank n b 6
    else if !recGood (t % 512) (t / 512) r then s.dropBank n b 3
    else
      let k := { k with got := k.got + 1, tiles := Tab.put t r k.tiles }
      let s := s.setDh n (x.setBank b k)
      if !c.lst then s else if k.got = k.total then s.closeBank n b else s.dropBank n b 5

/-- A packet can be taken now: a header needs an EMPTY bank. -/
def State.stageFree (s : State) (n : Nat) (c : Cell) : Bool := !c.fst || ((s.dh n).bank (s.dh n).fill).st ≤ 1

def State.stagePacket (s : State) (n : Nat) (good : Bool) (c : Cell) : State := if c.fst then s.headerIn n good c else s.tileRecIn n good c

/-- Packets that waited are taken once a bank is EMPTY; structural on the fuel. -/
def State.stageWaiting (n : Nat) : Nat → State → State
  | 0, s => s
  | k + 1, s => match (s.dh n).wait with
    | [] => s
    | w :: t => if s.stageFree n w.2 then State.stageWaiting n k ((s.setDh n { s.dh n with wait := t }).stagePacket n w.1 w.2) else s

/-- A packet of a display tunnel is dequeued (R248); it waits behind those that wait. -/
def State.tileIn (s : State) (n : Nat) (good : Bool) (c : Cell) : State :=
  if !s.alive (Pg.stg n) then s
  else
    let x := s.dh n
    if x.wait.isEmpty && s.stageFree n c then s.stagePacket n good c else s.setDh n { x with wait := x.wait ++ [(good, c)] }

def execTileCellRx (n : Bay) (good : Bool) (c : Cell) (s : State) : Host.Outcome State Fault Refusal := s.run (fun s => s.tileIn n.val good c)

/-- A FILLING bank has seen no cell for set_tmo_ms (R249 cause 9). -/
def State.stageTimeout (s : State) (n : Nat) : State := match (s.dh n).bankIn 1 with
  | some b => s.dropBank n b 9
  | none => s

def execStagingTimeout (n : Bay) (s : State) : Host.Outcome State Fault Refusal := s.run (fun s => s.stageTimeout n.val)

/-- What waits is taken up as far as there are EMPTY banks. -/
def State.stageOn (s : State) (n : Nat) : State := State.stageWaiting n (s.dh n).wait.length s

def State.rowCommit (s : State) (n : Nat) : State := (s.commitRow n).stageOn n

def execTileRowCommit (n : Bay) (s : State) : Host.Outcome State Fault Refusal := s.run (fun s => s.rowCommit n.val)

/-- The FILLING and CLOSED banks are dropped as parked (R252); of a double-buffered head what is COMMITTING completes, and no flip follows it. -/
def State.parkBanks (s : State) (n : Nat) : State :=
  let s := s.each [0, 1] (fun s b => let k := (s.dh n).bank b; if k.st = 1 || k.st = 2 then s.dropBank n b 10 else s)
  if s.lDbl n then
    let s := if (s.dh n).bankIn 3 = none then s.restoreBack n else s
    s.each [0, 1] (fun s b => let k := (s.dh n).bank b; if k.st = 3 then s.setDh n ((s.dh n).setBank b { k with dead := true }) else s)
  else s

/-- A display head's function parks or freezes (R252); packets that waited go on. -/
def State.parkStage (s : State) (n : Nat) : State := (s.parkBanks n).stageOn n

/-! ### Allocation (R254, R255) -/

/-- The owner of a granule. -/
def State.granule (s : State) (g : Nat) : Nat := s.rd Pg.loft (LOFT.GMAP_owner (g / 8)) / 16 ^ (g % 8) % 16

def State.setGranule (s : State) (g v : Nat) : State :=
  let w := s.rd Pg.loft (LOFT.GMAP_owner (g / 8))
  s.wr Pg.loft (LOFT.GMAP_owner (g / 8)) (w - s.granule g * 16 ^ (g % 8) + v * 16 ^ (g % 8))

def State.freeGranules (s : State) : List Nat := (List.range 384).filter (fun g => s.granule g = 0)

/-- LOFT_CMD completes. -/
def State.loftEnd (s : State) (code : Nat) : State :=
  (s.wr Pg.loft LOFT.LOFT_STAT_result code).raise Pg.loft (if code = 0 then LOFT.ev_cmd_done else LOFT.ev_refused)

/-- The fields of LOFT_CMD take what is written with go. -/
def State.loftCmd (s : State) (w : Nat) : State := (s.wr Pg.loft LOFT.LOFT_CMD_op (bitsOf w 27 24)).wr Pg.loft LOFT.LOFT_CMD_head (bitsOf w 17 16)

/-- A display head is at rest: its generator stopped, its banks EMPTY (R255). -/
def State.loftIdle (s : State) (n : Nat) : Bool := !s.scanning n && (s.dh n).bank0.st = 0 && (s.dh n).bank1.st = 0

/-- Allocate (R254); a head that has an allocation answers STATE (DESIGN CHOICE, log entry 29). -/
def State.loftAlloc (s : State) (w : Nat) : State :=
  let s := s.loftCmd w
  let n := bitsOf w 17 16
  let wt := s.rd Pg.loft LOFT.LOFT_ARG_width_t
  let ht := s.rd Pg.loft LOFT.LOFT_ARG_height_t
  let dbl := s.on Pg.loft LOFT.LOFT_ARG_dbl
  let b := if s.on Pg.loft LOFT.LOFT_ARG_bpp6 then 192 else 256
  let g := ceilDiv (wt * ht * b) 65536
  let free := s.freeGranules
  let need := if dbl then 2 * g else g
  if s.fused n || s.lAlloc n || !s.loftIdle n then s.loftEnd 3
  else if wt = 0 || 480 < wt || ht = 0 || 270 < ht then s.loftEnd 5
  else if free.length < need then s.loftEnd 4
  else
    let s := s.each (free.take g) (fun s k => s.setGranule k (2 * n + 1))
    let s := if dbl then s.each ((free.drop g).take g) (fun s k => s.setGranule k (2 * n + 2)) else s
    let s := s.wr Pg.loft LOFT.LOFT_FREE_free (free.length - need)
    let s := (s.wr Pg.loft (LOFT.HEAD_CFG_alloc n) 1).wr Pg.loft (LOFT.HEAD_CFG_dbl n) (b2n dbl)
    let s := (s.wr Pg.loft (LOFT.HEAD_CFG_bpp6 n) (s.rd Pg.loft LOFT.LOFT_ARG_bpp6)).wr Pg.loft (LOFT.HEAD_CFG_depth10 n) (s.rd Pg.loft LOFT.LOFT_ARG_depth10)
    let s := (s.wr Pg.loft (LOFT.HEAD_CFG_height_t n) ht).wr Pg.loft (LOFT.HEAD_CFG_width_t n) wt
    let s := (s.wr Pg.loft (LOFT.HEAD_GRAN_gran n) g).wr Pg.loft (LOFT.HEAD_FRONT_front n) 0
    (s.setDh n { s.dh n with slot0 := [], slot1 := [], flipDue := false, shown := [], setNum := none, setTiles := [], setIdx := [], broken := none }).loftEnd 0

def execLoftAllocate (w : Nat) (s : State) : Host.Outcome State Fault Refusal := s.run (fun s => s.loftAlloc w)

/-- Free (R255). -/
def State.loftFree (s : State) (w : Nat) : State :=
  let s := s.loftCmd w
  let n := bitsOf w 17 16
  if !s.lAlloc n || !s.loftIdle n then s.loftEnd 3
  else
    let own := (List.range 384).filter (fun g => s.granule g = 2 * n + 1 || s.granule g = 2 * n + 2)
    let s := s.each own (fun s k => s.setGranule k 0)
    let s := s.wr Pg.loft LOFT.LOFT_FREE_free s.freeGranules.length
    let s := s.each [LOFT.HEAD_CFG_alloc n, LOFT.HEAD_CFG_dbl n, LOFT.HEAD_CFG_bpp6 n, LOFT.HEAD_CFG_depth10 n, LOFT.HEAD_CFG_height_t n, LOFT.HEAD_CFG_width_t n, LOFT.HEAD_GRAN_gran n]
      (fun s f => s.wr Pg.loft f 0)
    (s.setDh n { s.dh n with slot0 := [], slot1 := [], flipDue := false, shown := [], setNum := none, setTiles := [], setIdx := [], broken := none, reports := [] }).loftEnd 0

def execLoftFree (w : Nat) (s : State) : Host.Outcome State Fault Refusal := s.run (fun s => s.loftFree w)

/-- An undefined operation (R260). -/
def State.loftBad (s : State) (w : Nat) : State := (s.loftCmd w).loftEnd 2

/-! ### Scan-out (R256, R263, R264, R281, R282) -/

/-- The record of a tile in the front slot. -/
def State.tileAt (s : State) (n t : Nat) : List Byte :=
  (Tab.find t ((s.dh n).slot (s.lFront n))).getD (blackRecord (s.lBudget n) (s.lDepth n) (t % 512) (t / 512))

/-- The decoder reads one tile: corrected, or rejected after an uncorrectable error, a failed checksum or a reserved mode or index (R256). -/
def State.decodeOne (s : State) (n t : Nat) (ecc : List (Nat × Bool)) : State :=
  let e := (ecc.find? (fun x => x.1 = t % 512)).map (·.2)
  let r := s.tileAt n t
  let s := if e = some false then (s.bump Pg.loft LOFT.LOFT_CNT_ecc_corr 1).raise Pg.loft LOFT.ev_ecc_corr
    else if e = some true then (s.bump Pg.loft LOFT.LOFT_CNT1_ecc_unc 1).raise Pg.loft LOFT.ev_ecc_unc else s
  let x := s.dh n
  if e = some true || !recGood (t % 512) (t / 512) r || recBad r then
    ((s.setDh n { x with read := Tab.put t [] x.read }).bump Pg.loft LOFT.LOFT_CNT_dec_err 1).raise Pg.loft LOFT.ev_dec_err
  else s.setDh n { x with read := Tab.put t r x.read }

/-- The width of the active area, and the output depth (R264, R285), 8 bits in TMDS (R274). -/
def State.hActive (s : State) (n : Nat) : Nat := s.rd (Pg.disp n) DISP.H_TIM0_h_active
def State.vActive (s : State) (n : Nat) : Nat := s.rd (Pg.disp n) DISP.V_TIM0_v_active
def State.outDepth (s : State) (n : Nat) : Nat :=
  if s.on (Pg.disp n) DISP.DISP_STAT_tmds then 8
  else match s.rd (Pg.disp n) DISP.OUT_CFG_bpc with
    | 0 => 6
    | 2 => 10
    | _ => 8

/-- A window's act code, 3 acting as 0 (R286). -/
def actCode (a : Nat) : Nat := if a = 3 then 0 else a

/-- A window covers a pixel with its action: its rectangle, or the whole head (R281). -/
def State.winActs (s : State) (n w x y act : Nat) : Bool :=
  let p := Pg.frz n
  s.on p (FRZ.WIN_STAT_acting w) && actCode (s.rd p (FRZ.WIN_CFG_act w)) = act &&
    (s.on p (FRZ.WIN_CFG_scope w) || (s.rd p (FRZ.WIN_X_x0 w) ≤ x && x < s.rd p (FRZ.WIN_X_x1 w) && s.rd p (FRZ.WIN_Y_y0 w) ≤ y && y < s.rd p (FRZ.WIN_Y_y1 w)))

/-- An action of a kind covers a pixel: 1 blank, 2 hatch. -/
def State.actAt (s : State) (n x y act : Nat) : Bool :=
  ((s.dh n).wdActs && actCode (s.rd (Pg.frz n) FRZ.WD_CFG_act) = act) || (List.range 8).any (fun w => s.winActs n w x y act)

/-- A pixel of the output (R264, R281, R282); `px` is the decoded tile, or none for a rejected one. -/
def State.pixelOut (s : State) (n x y : Nat) (px : Option (List Rgb)) : Rgb :=
  let p := Pg.frz n
  let o := s.outDepth n
  let k := (x + y + (s.dh n).phase) % 16
  if s.actAt n x y 1 then (rgbOf30 (s.rd p FRZ.BLANK_blank)).toDepth 10 o
  else if s.actAt n x y 2 && k < s.rd1 p FRZ.FRZ_CFG_hatch_w then (rgbOf30 (s.rd p FRZ.HATCH_A_hatch_a)).toDepth 10 o
  else match px with
    | none => (rgbOf30 (if k < 8 then s.rd p FRZ.HATCH_A_hatch_a else s.rd p FRZ.HATCH_B_hatch_b)).toDepth 10 o
    | some l => (l.getD (16 * (y % 16) + x % 16) ⟨0, 0, 0⟩).toDepth (s.lDepth n) o

/-- The pixels of a tile as read in this frame; none for a rejected tile. -/
def DispHead.pixels (x : DispHead) (t : Nat) : Option (List Rgb) := match Tab.find t x.read with
  | some (b :: l) => some (decodeTile (b :: l))
  | _ => none

/-- The lines of a decoded tile row as the output carries them: R, G, B of each pixel. -/
def State.rowOut (s : State) (n row : Nat) : List Nat :=
  let tiles := (List.range (s.lWidth n)).map (fun c => (s.dh n).pixels (512 * row + c))
  (List.range 16).flatMap (fun j =>
    let y := 16 * row + j
    if y < s.vActive n then
      (List.range (s.hActive n)).flatMap (fun x => let q := s.pixelOut n x y (tiles.getD (x / 16) none); [q.r, q.g, q.b])
    else [])

/-- The next tile row is decoded into the line buffer and goes out with its raster lines (R263). -/
def State.decodeRow (s : State) (n : Nat) (ecc : List (Nat × Bool)) : State :=
  let row := (s.dh n).decRow
  if !s.scanning n || s.lHeight n ≤ row then s
  else
    let s := s.each (List.range (s.lWidth n)) (fun s c => s.decodeOne n (512 * row + c) ecc)
    let s := s.setDh n { s.dh n with decRow := row + 1 }
    s.emit (.bay n "row" (row :: s.rowOut n row))

def execDecodeTileRow (n : Bay) (ecc : List (Nat × Bool)) (s : State) : Host.Outcome State Fault Refusal := s.run (fun s => s.decodeRow n.val ecc)

end Sys2Proof.Machine
end

