-- ==== Sys2Proof/Machine/Scan.lean ====
section
/-!
DEFINITION. Sys2Proof/Machine/Scan.lean: frame starts and chain-locked refresh (R262, R265–R270), DisplayPort and dual-mode outputs (R271–R275), freeze
detection and local actions (R276–R283).
-/
namespace Sys2Proof.Machine

open Sys2Proof

/-! ### The pixel clock (R265, R267) -/

/-- The divisor in 1/2^24. -/
def State.div24 (s : State) (n : Nat) : Nat := s.rd (Pg.disp n) DISP.PCLK_div_int * 2 ^ 24 + s.rd (Pg.disp n) DISP.PCLK_div_frac

/-- A time of `k` pixel clocks in ns, times the number that `clocksDen` gives. -/
def State.clocksNs (s : State) (n k : Nat) : Nat := k * s.div24 n * 1000

def clocksDen : Nat := 3840 * 2 ^ 24

/-- The refuse code of R265, 0 when every check passes. -/
def State.runRefuse (s : State) (n : Nat) : Nat :=
  let p := Pg.disp n
  let ha := s.hActive n
  let va := s.vActive n
  let ht := s.rd p DISP.H_TIM0_h_total
  let vt := s.rd p DISP.V_TIM0_v_total
  let hf := s.rd p DISP.H_TIM1_h_front
  let hs := s.rd p DISP.H_TIM1_h_sync
  let vf := s.rd p DISP.V_TIM1_v_front
  let vs := s.rd p DISP.V_TIM1_v_sync
  let d := s.div24 n
  if !s.lAlloc n then 1
  else if !(16 * (s.lWidth n - 1) < ha && ha ≤ 16 * s.lWidth n && 16 * (s.lHeight n - 1) < va && va ≤ 16 * s.lHeight n) then 2
  else if !(64 ≤ ha && ha ≤ 7680 && 64 ≤ va && va ≤ 4320 && 1 ≤ hf && 1 ≤ hs && ha + hf + hs < ht && 1 ≤ vf && 1 ≤ vs && va + vf + vs < vt) then 3
  else if !(3 * 2 ^ 24 ≤ d && d < 161 * 2 ^ 24 && 25 * d ≤ clocksDen && clocksDen ≤ 1100 * d) then 4
  else 0

/-- DISP_CTL.run = 1 (R265); a generator that was to stop goes on. -/
def State.dispRun (s : State) (n : Nat) : State :=
  let p := Pg.disp n
  if !s.alive p then s
  else
    let code := s.runRefuse n
    if code = 0 && s.scanning n then ((s.wr p DISP.DISP_CTL_run 1).wr p DISP.DISP_STAT_refuse 0).setDh n { s.dh n with stopDue := false }
    else if code != 0 then (s.wr p DISP.DISP_STAT_refuse code).raise p DISP.ev_start_refused
    else
      let s := ((s.wr p DISP.DISP_CTL_run 1).wr p DISP.DISP_STAT_running 1).wr p DISP.DISP_STAT_refuse 0
      s.setDh n { s.dh n with stopDue := false, decRow := 0, read := [], acquire := true, lockN := 0 }

def execDispRun (n : Bay) (s : State) : Host.Outcome State Fault Refusal := s.run (fun s => s.dispRun n.val)

/-- DISP_CTL.run = 0: the generator stops at the next frame start (R265). -/
def State.dispStop (s : State) (n : Nat) : State :=
  if !s.alive (Pg.disp n) then s
  else
    let s := s.wr (Pg.disp n) DISP.DISP_CTL_run 0
    if s.scanning n then s.setDh n { s.dh n with stopDue := true } else s

def execDispStop (n : Bay) (s : State) : Host.Outcome State Fault Refusal := s.run (fun s => s.dispStop n.val)

/-! ### Chain-locked refresh (R268–R270) -/

/-- The lock boundary T_m (R268). -/
def State.lockT (s : State) (n m : Nat) : Nat :=
  let p := Pg.disp n
  s.rd p DISP.LOCK_PHASE_phase + ceilDiv (m * s.rd1 p DISP.LOCK_RATE_den * 1000000000) (s.rd1 p DISP.LOCK_RATE_num)

/-- The last boundary index at or before a time, 0 before the first. -/
def State.lockM (s : State) (n t : Nat) : Nat :=
  let p := Pg.disp n
  (t - s.rd p DISP.LOCK_PHASE_phase) * s.rd1 p DISP.LOCK_RATE_num / (s.rd1 p DISP.LOCK_RATE_den * 1000000000)

/-- err at a time: against the nearest boundary (R268). -/
def State.lockErr (s : State) (n t : Nat) : Int :=
  let m := s.lockM n t
  let a : Int := (t : Int) - s.lockT n m
  let b : Int := (t : Int) - s.lockT n (m + 1)
  if a.natAbs ≤ b.natAbs then a else b

/-- |err| against t_line / 2 and t_line (R269). -/
def State.withinHalf (s : State) (n : Nat) (e : Int) : Bool := e.natAbs * 2 * clocksDen < s.clocksNs n (s.rd (Pg.disp n) DISP.H_TIM0_h_total)
def State.beyondLine (s : State) (n : Nat) (e : Int) : Bool := s.clocksNs n (s.rd (Pg.disp n) DISP.H_TIM0_h_total) < e.natAbs * clocksDen

/-- The trim takes a value within its envelope, in 0.01 ppm; one beyond stays at the bound and is pinned (R269). -/
def State.setTrim (s : State) (n : Nat) (v : Int) : State :=
  let p := Pg.disp n
  let b : Int := ((s.rd1 p DISP.LOCK_CFG_trim_max * 100 : Nat) : Int)
  let c := if b < v then b else if v < -b then -b else v
  let s := s.wr p DISP.TRIM_trim (unsigned 16 c)
  if c = v then s else if s.on p DISP.TRIM_pin then s else (s.wr p DISP.TRIM_pin 1).raise p DISP.ev_lock_pinned

/-- The lock loop at a frame start (R268–R270). The loop's law is not given: its new trim is a free value (log entry 30); a trim written meanwhile wins over it (R442). While the lock is
off, its enable is awaited. -/
def State.refreshStep (s : State) (n : Nat) : State :=
  let p := Pg.disp n
  let due := (s.dh n).trimDue
  let s := match due with
    | some v => (s.setDh n { s.dh n with trimDue := none }).setTrim n v
    | none => s
  if !s.on p DISP.LOCK_CFG_en then s.setDh n { s.dh n with acquire := true, lockN := 0 }
  else
    let t := s.chain.time
    let e := s.lockErr n t
    let s := s.wr p DISP.LOCK_STAT_err_ns (unsigned 32 e)
    let s := if s.on p DISP.LOCK_CFG_hold || due.isSome then s else let (v, s) := s.draw 16; s.setTrim n (signed 16 v)
    let x := s.dh n
    let k := if s.withinHalf n e then x.lockN + 1 else 0
    let s := s.setDh n { x with lockN := k }
    let s := if 8 ≤ k && !s.on p DISP.DISP_STAT_locked then (s.wr p DISP.DISP_STAT_locked 1).raise p DISP.ev_locked else s
    let s := if s.beyondLine n e && s.on p DISP.DISP_STAT_locked then
        ((s.wr p DISP.DISP_STAT_locked 0).raise p DISP.ev_lock_lost).setDh n { s.dh n with lockN := 0, acquire := true } else s
    let x := s.dh n
    if x.acquire && s.on p DISP.LOCK_CFG_acq then
      let ht := s.rd p DISP.H_TIM0_h_total
      let vt := s.rd p DISP.V_TIM0_v_total
      let next := t + s.clocksNs n (ht * vt) / clocksDen
      let goal := if s.lockT n (s.lockM n next) < next then s.lockT n (s.lockM n next + 1) else s.lockT n (s.lockM n next)
      let lines := min vt ((goal - next) * clocksDen / s.clocksNs n ht)
      let s := s.setDh n { x with acquire := false }
      if lines = 0 then s else s.emit (.bay n "stretch" [lines])
    else s

/-- TRIM.trim is written: taken at the next frame start (R269). -/
def State.trimWrite (s : State) (n v : Nat) : State :=
  if s.alive (Pg.disp n) then s.setDh n { s.dh n with trimDue := some (signed 16 v) } else s

def execTrimWrite (n : Bay) (v : Nat) (s : State) : Host.Outcome State Fault Refusal := s.run (fun s => s.trimWrite n.val v)

/-! ### Frame start (R262, R281) -/

/-- Actions decided in the last frame are shown from this one on (R281). -/
def State.showActions (s : State) (n : Nat) : State :=
  let p := Pg.frz n
  let en := s.on p FRZ.FRZ_CFG_en
  let act := fun (w : Nat) => en && s.on p (FRZ.WIN_STAT_viol w) && actCode (s.rd p (FRZ.WIN_CFG_act w)) != 0
  let wd := en && s.on p FRZ.WD_STAT_viol && actCode (s.rd p FRZ.WD_CFG_act) != 0
  let any := wd || (List.range 8).any act
  let l := (List.range 8).map (fun w => (w, b2n (act w)))
  let s := s.each l (fun s x => s.wr p (FRZ.WIN_STAT_acting x.1) x.2)
  let s := s.wr p FRZ.FRZ_STAT_acting (b2n any)
  let s := if any then s.bump p FRZ.FRZ_CNT_marked 1 else s
  s.setDh n { s.dh n with wdActs := wd, phase := if s.on p FRZ.FRZ_CFG_anim then ((s.dh n).phase + 1) % 16 else 0 }

/-- A pending flip (R251). -/
def State.flip (s : State) (n : Nat) : State :=
  if !(s.dh n).flipDue then s
  else
    let s := s.setDh n { s.dh n with flipDue := false }
    let s := (s.wr Pg.loft (LOFT.HEAD_FRONT_front n) (1 - s.lFront n)).bump Pg.loft (LOFT.HEAD_FRONT_flips n) 1
    ((s.raise (Pg.stg n) STG.ev_flip).wdFed n).startCommit n

/-- A frame starts (R262), or the generator stops (R265). -/
def State.frameStart (s : State) (n : Nat) : State :=
  let p := Pg.disp n
  let x := s.dh n
  if !s.scanning n then s
  else if x.stopDue then
    (State.commitAll n (2 * commitFuel) ((s.wr p DISP.DISP_STAT_running 0).setDh n { x with stopDue := false, read := [], decRow := 0 })).stageOn n
  else
    let s := s.wr p DISP.FRAME_frame (s.rd p DISP.FRAME_frame + 1)
    let t := s.chain.time
    let s := s.wr p DISP.FRAME_T_LO_t_lo t
    let s := s.raise p DISP.ev_frame
    let s := s.flip n
    let s := s.showActions n
    let r := (s.dh n).reports
    let s := s.setDh n { s.dh n with reports := [], decRow := 0, read := [] }
    let s := s.each r (fun s k => s.presentDone n 0 k (s.rd p DISP.FRAME_frame) (t % 2 ^ 32))
    (s.setDh n { s.dh n with frameT := t }).refreshStep n

def execFrameStart (n : Bay) (s : State) : Host.Outcome State Fault Refusal := s.run (fun s => s.frameStart n.val)

/-! ### Outputs (R271–R275) -/

/-- The bay configuration in force (R332). -/
def State.tc (s : State) (n : Nat) : TcCtx := (Tab.find n s.tcs).getD {}

def State.setTc (s : State) (n : Nat) (x : TcCtx) : State := { s with tcs := Tab.put n x s.tcs }

/-- The lanes that the connector gives the display head (R271): four in a fixed DisplayPort bay, as the mux stands in a Type-C one. -/
def State.dpLanes (s : State) (n : Nat) : Nat := match (s.tc n).cfg with
  | 1 => 4
  | 0 => (match s.rd (Pg.tc n) TC.TC_ALT_mux with
    | 2 => 4
    | 3 => 2
    | _ => 0)
  | _ => 0

/-- The rate of a code in Mb/s, and the payload share of its coding (R271, R273). -/
def rateMbps (c : Nat) : Nat := match c with
  | 1 => 1620
  | 2 => 2700
  | 3 => 5400
  | 4 => 8100
  | 5 => 10000
  | 6 => 13500
  | _ => 0

/-- A candidate carries the stream (R273 step 3). -/
def State.carries (s : State) (n lanes rate : Nat) : Bool :=
  let need := 3840 * 2 ^ 24 * 3 * s.outDepth n
  if rate ≤ 4 then need * 10 ≤ rateMbps rate * lanes * 8 * s.div24 n else need * 132 ≤ rateMbps rate * lanes * 128 * s.div24 n

/-- The candidates of R273 step 3, in order. -/
def State.candidates (s : State) (n : Nat) (k : Sink) : List (Nat × Nat) :=
  let p := Pg.disp n
  let maxL := min (s.dpLanes n) (min k.lanes (match s.rd p DISP.OUT_CFG_max_lanes with
    | 0 => 1
    | 1 => 2
    | _ => 4))
  let maxR := min (s.rd p DISP.OUT_CFG_max_rate) (if (s.tc n).cfg = 0 then s.rd (Pg.tc n) TC.TC_CABLE_dp_max else 6)
  ([4, 2, 1].filter (fun l => l ≤ maxL)).flatMap (fun l =>
    (([1, 2, 3, 4, 5, 6].filter (fun r => r ≤ maxR && bitOf k.rates r = 1)).filter (fun r => s.carries n l r)).map (fun r => (l, r)))

/-- An EDID block is good (R275): 128 bytes that sum to 0. -/
def edidGood (b : List Byte) : Bool := b.length = 128 && (sumNat (b.map BitVec.toNat)) % 256 = 0

/-- The good blocks of a read, up to the first that fails four times (R275). -/
def edidBlocks : List (List (List Byte)) → List (List Byte)
  | [] => []
  | b :: t => match (b.take 4).find? edidGood with
    | some g => g :: edidBlocks t
    | none => []

/-- The EDID buffer takes a read (R275). -/
def State.edidRead (s : State) (n : Nat) (bs : List (List (List Byte))) : State :=
  let p := Pg.disp n
  let first := edidBlocks (bs.take 1)
  let want := match first with
    | b :: _ => 1 + min 3 (byteAt b 126)
    | [] => 1
  let got := edidBlocks (bs.take want)
  let bytes := got.flatMap id
  let s := s.each (List.range 128) (fun s k => s.wr p (DISP.EDID_edid k) (if 4 * k + 4 ≤ bytes.length then numAt bytes (4 * k) 4 else s.rd p (DISP.EDID_edid k)))
  let s := (s.wr p DISP.EDID_STAT_blocks got.length).wr p DISP.EDID_STAT_valid (b2n (got.length = want))
  if got.length < want then s.raise p DISP.ev_edid_err else s

/-- No stream, with a cause (R273, R274). -/
def State.ltFail (s : State) (n cause : Nat) : State :=
  let p := Pg.disp n
  let s := s.setDh n { s.dh n with training := false, cands := [] }
  ((((s.wr p DISP.DISP_STAT_lt_cause cause).wr p DISP.DISP_STAT_link_up 0).wr p DISP.DISP_STAT_lanes 0).wr p DISP.DISP_STAT_rate 0).raise p DISP.ev_lt_fail

/-- Training of the first candidate starts (R273 step 4). -/
def State.trainFirst (s : State) (n cause : Nat) : State :=
  let p := Pg.disp n
  match (s.dh n).cands with
  | [] => s.ltFail n cause
  | c :: _ =>
    let s := s.setDh n { s.dh n with training := true }
    let s := ((s.wr p DISP.DISP_STAT_link_up 0).wr p DISP.DISP_STAT_lanes c.1).wr p DISP.DISP_STAT_rate c.2
    (s.bump p DISP.DISP_CNT_trainings 1).emit (.bay n "train" [c.1, c.2])

/-- The dual-mode probe (R274). -/
def State.dualMode (s : State) (n : Nat) (k : Sink) : State :=
  let p := Pg.disp n
  if k.adapter = 0 then s.ltFail n 4
  else
    let s := s.edidRead n k.edid
    let lim10 := if k.adapter = 1 then 1650 else min 3400 (25 * k.limit)
    if lim10 * s.div24 n < 10 * clocksDen then s.ltFail n 5
    else
      let s := s.setDh n { s.dh n with training := false, cands := [] }
      let s := ((s.wr p DISP.DISP_STAT_tmds 1).wr p DISP.DISP_STAT_link_up 1).wr p DISP.DISP_STAT_lt_cause 0
      (s.raise p DISP.ev_lt_done).emit (.bay n "tmds" [])

/-- R273 from step 1. -/
def State.dpStart (s : State) (n : Nat) (k : Sink) : State :=
  let p := Pg.disp n
  let ty := s.rd p DISP.OUT_CFG_type
  let s := ((s.wr p DISP.DISP_STAT_tmds 0).wr p DISP.DISP_STAT_link_up 0).wr p DISP.DISP_STAT_lt_cause 0
  let s := (s.wr p DISP.DISP_STAT_lanes 0).wr p DISP.DISP_STAT_rate 0
  let s := s.setDh n { s.dh n with training := false, cands := [], sink := some k }
  if ty = 3 || s.dpLanes n = 0 then s
  else if ty = 2 && (s.tc n).cfg = 1 then s.dualMode n k
  else if !k.aux then (if ty = 0 && (s.tc n).cfg = 1 then s.dualMode n k else s.ltFail n 4)
  else
    let s := s.edidRead n k.edid
    let c := s.candidates n k
    if c.isEmpty then s.ltFail n 3 else (s.setDh n { s.dh n with cands := c }).trainFirst n 3

/-- HPD has been high for plug_ms (R272). -/
def State.hpdPlug (s : State) (n : Nat) (k : Sink) : State :=
  let p := Pg.disp n
  if !s.alive p || s.on p DISP.DISP_STAT_sink then s else ((s.wr p DISP.DISP_STAT_sink 1).raise p DISP.ev_plug).dpStart n k

def execHpdPlug (n : Bay) (k : Sink) (s : State) : Host.Outcome State Fault Refusal := s.run (fun s => s.hpdPlug n.val k)

/-- A lost lock retrains from the current candidate (R272); with none left the candidates are formed again (R273 step 5a; DEDUCED, log entry 160). -/
def State.hpdAct (s : State) (n : Nat) (lost : Bool) : State :=
  if !lost || s.on (Pg.disp n) DISP.DISP_STAT_tmds then s
  else if !(s.dh n).cands.isEmpty then s.trainFirst n 1
  else match (s.dh n).sink with
    | some k => s.dpStart n k
    | none => s

/-- IRQ_HPD (R272): DPCD says whether a lock was lost; held while training (R273). -/
def State.hpdIrq (s : State) (n : Nat) (lost : Bool) : State :=
  let p := Pg.disp n
  if !s.alive p || !s.on p DISP.DISP_STAT_sink then s
  else
    let s := (s.bump p DISP.DISP_CNT_hpd_irqs 1).raise p DISP.ev_hpd_irq
    let s := s.emit (.bay n "dpcd" [0x200, 6])
    if (s.dh n).training then s.setDh n { s.dh n with irqHeld := some lost } else s.hpdAct n lost

def execHpdIrq (n : Bay) (lost : Bool) (s : State) : Host.Outcome State Fault Refusal := s.run (fun s => s.hpdIrq n.val lost)

/-- Unplug (R272). -/
def State.hpdUnplug (s : State) (n : Nat) : State :=
  let p := Pg.disp n
  if !s.on p DISP.DISP_STAT_sink then s
  else
    let s := s.setDh n { s.dh n with training := false, cands := [], irqHeld := none, sink := none }
    let s := (((s.wr p DISP.DISP_STAT_sink 0).wr p DISP.DISP_STAT_link_up 0).wr p DISP.DISP_STAT_tmds 0).wr p DISP.DISP_STAT_lanes 0
    (s.wr p DISP.DISP_STAT_rate 0).raise p DISP.ev_unplug

def execHpdUnplug (n : Bay) (s : State) : Host.Outcome State Fault Refusal := s.run (fun s => s.hpdUnplug n.val)

/-- The training of a candidate ends (R273 steps 5, 5a); cause 1 CR_FAIL, 2 EQ_FAIL. -/
def State.trained (s : State) (n : Nat) (ok : Bool) (cause : Nat) : State :=
  let p := Pg.disp n
  let x := s.dh n
  if !x.training then s
  else
    let s := if ok then
        (((s.setDh n { x with training := false }).wr p DISP.DISP_STAT_link_up 1).wr p DISP.DISP_STAT_lt_cause 0).raise p DISP.ev_lt_done
      else (s.setDh n { x with training := false, cands := x.cands.drop 1 }).trainFirst n cause
    match (s.dh n).irqHeld with
    | some lost => if (s.dh n).training then s else (s.setDh n { s.dh n with irqHeld := none }).hpdAct n lost
    | none => s

def execLinkTrainingDone (n : Bay) (ok eq : Bool) (s : State) : Host.Outcome State Fault Refusal := s.run (fun s => s.trained n.val ok (if eq then 2 else 1))

/-- DISP_CTL.retrain (R285, R273). -/
def execDispRetrain (n : Bay) (k : Sink) (s : State) : Host.Outcome State Fault Refusal :=
  s.run (fun s => if s.alive (Pg.disp n.val) && s.on (Pg.disp n.val) DISP.DISP_STAT_sink then s.dpStart n.val k else s)

/-- DISP_CTL.edid_read (R275). -/
def execEdidRead (n : Bay) (edid : List (List (List Byte))) (s : State) : Host.Outcome State Fault Refusal :=
  s.run (fun s => if s.alive (Pg.disp n.val) then s.edidRead n.val edid else s)

/-! ### Freeze detection (R276–R280, R283) -/

/-- A window's mode, off where its rectangle is not within the active area (R276). -/
def State.winMode (s : State) (n w : Nat) : Nat :=
  let p := Pg.frz n
  let m := s.rd p (FRZ.WIN_CFG_mode w)
  if m = 0 || m = 3 then 0
  else if s.hActive n < s.rd p (FRZ.WIN_X_x1 w) || s.vActive n < s.rd p (FRZ.WIN_Y_y1 w) || s.rd p (FRZ.WIN_X_x1 w) ≤ s.rd p (FRZ.WIN_X_x0 w) ||
      s.rd p (FRZ.WIN_Y_y1 w) ≤ s.rd p (FRZ.WIN_Y_y0 w) then 0
  else m

/-- The signature of a window over the tiles read in this frame (R276); open where it covers a rejected tile (DESIGN CHOICE, log entry 31). -/
def State.winSig (s : State) (n w : Nat) : Nat × State :=
  let p := Pg.frz n
  let d := s.lDepth n
  let x0 := s.rd p (FRZ.WIN_X_x0 w)
  let x1 := s.rd p (FRZ.WIN_X_x1 w)
  let y0 := s.rd p (FRZ.WIN_Y_y0 w)
  let y1 := s.rd p (FRZ.WIN_Y_y1 w)
  let cols := (List.range (ceilDiv x1 16 - x0 / 16)).map (fun i => x0 / 16 + i)
  let rows := (List.range (ceilDiv y1 16 - y0 / 16)).map (fun j => y0 / 16 + j)
  let x := s.dh n
  let tiles := rows.map (fun r => cols.map (fun c => x.pixels (512 * r + c)))
  if tiles.any (fun l => l.any (fun t => t.isNone)) then s.draw 32
  else
    let word := fun (q : Rgb) => q.r * 2 ^ (2 * d) + q.g * 2 ^ d + q.b
    let px := (List.range (y1 - y0)).flatMap (fun j => let y := y0 + j
      let row := tiles.getD (y / 16 - y0 / 16) []
      (List.range (x1 - x0)).flatMap (fun i => let xx := x0 + i
        let t := ((row.getD (xx / 16 - x0 / 16) none).getD []).getD (16 * (y % 16) + xx % 16) ⟨0, 0, 0⟩
        leBytes 4 (word t)))
    (crc32 px, s)

/-- A violation of a window begins, or ends (R277, R280). -/
def State.winViol (s : State) (n w : Nat) (b : Bool) : State :=
  let p := Pg.frz n
  if s.on p (FRZ.WIN_STAT_viol w) = b then s
  else
    let v := s.rd p FRZ.FRZ_STAT_viol
    let s := (s.wr p (FRZ.WIN_STAT_viol w) (b2n b)).wr p FRZ.FRZ_STAT_viol (v - bitOf v w * 2 ^ w + b2n b * 2 ^ w)
    if b then ((s.bump p (FRZ.WIN_CNT_violations w) 1).bump p FRZ.FRZ_CNT_violations 1).raise p (FRZ.ev_viol w) else s.raise p (FRZ.ev_clear w)

/-- A signature that counts or clears (R277, R278). -/
def State.winCount (s : State) (n w : Nat) (bad : Bool) : State :=
  let p := Pg.frz n
  if !s.on p FRZ.FRZ_CFG_en then s
  else if bad then
    let c := min 255 (s.rd p (FRZ.WIN_STAT_count w) + 1)
    let s := s.wr p (FRZ.WIN_STAT_count w) c
    if s.rd1 p (FRZ.WIN_CFG_n w) ≤ c then s.winViol n w true else s
  else
    let s := s.wr p (FRZ.WIN_STAT_count w) 0
    if s.on p (FRZ.WIN_CFG_latch w) then s else s.winViol n w false

/-- The last pixel of a window has passed (R276). -/
def State.windowSig (s : State) (n w : Nat) : State :=
  let p := Pg.frz n
  let m := s.winMode n w
  if !s.scanning n || m = 0 || (s.dh n).decRow * 16 < s.rd p (FRZ.WIN_Y_y1 w) then s
  else
    let (g, s) := s.winSig n w
    let s := s.wr p (FRZ.WIN_SIG_sig w) g
    let x := s.dh n
    let s := if x.capture.contains w then (s.wr p (FRZ.WIN_REF_ref w) g).setDh n { x with capture := x.capture.filter (· != w) } else s
    if m = 2 then s.winCount n w (g != s.rd p (FRZ.WIN_REF_ref w))
    else
      let x := s.dh n
      let s := s.setDh n { x with base := Tab.put w g x.base }
      match Tab.find w x.base with
      | none => s
      | some b => s.winCount n w (g = b)

def execWindowSignature (n : Bay) (w : Fin 8) (s : State) : Host.Outcome State Fault Refusal := s.run (fun s => s.windowSig n.val w.val)

/-- A window in use whose rectangle is not within the active area acts as off, and cfg_err says so (R276). -/
def State.winCheck (s : State) (n w : Nat) : State :=
  let m := s.rd (Pg.frz n) (FRZ.WIN_CFG_mode w)
  if (m = 1 || m = 2) && s.winMode n w = 0 then s.raise (Pg.frz n) FRZ.ev_cfg_err else s

/-- A window's word is written: 0 CFG, 1 X, 2 Y (R276, R277, R283). -/
def State.windowCfg (s : State) (n w k v : Nat) : State :=
  let p := Pg.frz n
  if !s.alive p then s
  else
    let s := match k with
      | 0 =>
        let s := if s.on p (FRZ.WIN_STAT_viol w) then s.winViol n w false else s
        let s := (s.wr p (FRZ.WIN_STAT_count w) 0).wr p (FRZ.WIN_CFG_mode w) (bitsOf v 31 30)
        let s := ((s.wr p (FRZ.WIN_CFG_act w) (bitsOf v 29 28)).wr p (FRZ.WIN_CFG_scope w) (bitOf v 27)).wr p (FRZ.WIN_CFG_latch w) (bitOf v 26)
        s.wr p (FRZ.WIN_CFG_n w) (bitsOf v 7 0)
      | 1 => (s.wr p (FRZ.WIN_X_x1 w) (bitsOf v 28 16)).wr p (FRZ.WIN_X_x0 w) (bitsOf v 12 0)
      | _ => (s.wr p (FRZ.WIN_Y_y1 w) (bitsOf v 28 16)).wr p (FRZ.WIN_Y_y0 w) (bitsOf v 12 0)
    (s.setDh n { s.dh n with base := Tab.del w (s.dh n).base }).winCheck n w

def execWindowCfgWrite (n : Bay) (w : Fin 8) (k : Fin 3) (v : Nat) (s : State) : Host.Outcome State Fault Refusal :=
  s.run (fun s => s.windowCfg n.val w.val k.val v)

/-- WINw_CFG.capture (R278). -/
def execWindowCapture (n : Bay) (w : Fin 8) (s : State) : Host.Outcome State Fault Refusal :=
  s.run (fun s => if s.alive (Pg.frz n.val) then s.setDh n.val { s.dh n.val with capture := if (s.dh n.val).capture.contains w.val then (s.dh n.val).capture else (s.dh n.val).capture ++ [w.val] } else s)

/-- FRZ_CLR ends latched violations (R277, R279); counting starts over. -/
def State.freezeClear (s : State) (n v : Nat) : State :=
  let p := Pg.frz n
  if !s.alive p then s
  else
    let s := s.each (List.range 8) (fun s w =>
      if bitOf v w = 1 && s.on p (FRZ.WIN_STAT_viol w) && s.on p (FRZ.WIN_CFG_latch w) then (s.wr p (FRZ.WIN_STAT_count w) 0).winViol n w false else s)
    if bitOf v 8 = 1 && s.on p FRZ.WD_STAT_viol && s.on p FRZ.WD_CFG_latch then
      ((((s.wr p FRZ.WD_STAT_viol 0).wr p FRZ.FRZ_STAT_wd 0).raise p FRZ.ev_wd_clear)).setDh n { s.dh n with wdUs := 0 }
    else s

def execFreezeClear (n : Bay) (v : Nat) (s : State) : Host.Outcome State Fault Refusal := s.run (fun s => s.freezeClear n.val v)

/-- wd_ms have passed without a commit or a flip (R279). -/
def State.wdExpiry (s : State) (n : Nat) : State :=
  let p := Pg.frz n
  if !s.alive p || !s.on p FRZ.WD_CFG_en || !s.scanning n || s.on p FRZ.WD_STAT_viol then s
  else
    let s := s.setDh n { s.dh n with wdUs := max (s.dh n).wdUs (1000 * s.rd1 p FRZ.WD_CFG_wd_ms) }
    let s := (s.wr p FRZ.WD_STAT_viol 1).wr p FRZ.FRZ_STAT_wd 1
    (s.bump p FRZ.FRZ_CNT_violations 1).raise p FRZ.ev_wd_viol

def execPresentWatchdogExpiry (n : Bay) (s : State) : Host.Outcome State Fault Refusal := s.run (fun s => s.wdExpiry n.val)

end Sys2Proof.Machine
end

