-- ==== Sys2Proof/Machine/Usb.lean ====
section
/-!
DEFINITION. Sys2Proof/Machine/Usb.lean: the USB host controller of a bay (R287–R303): its registers, what commands and bus events do to endpoints,
memory failures, isochronous staging at the bay and at the head, resume and wake.
-/
namespace Sys2Proof.Machine

open Sys2Proof

def State.ufn (s : State) (n : Nat) : UsbFn := (Tab.find n s.usb).getD {}

def State.setUfn (s : State) (n : Nat) (x : UsbFn) : State := { s with usb := Tab.put n x s.usb }

/-- A slot and an endpoint; one that no command has configured is on no known port and runs, without a TD. -/
def UsbFn.slot (x : UsbFn) (k : Nat) : UsbSlot := (Tab.find k x.slots).getD ⟨0, false, []⟩

def UsbSlot.ep (x : UsbSlot) (d : Nat) : UsbEp := (Tab.find d x.eps).getD { state := 1, cfg := ⟨d, false, d % 2 = 1, 0, 0, 1, 0, 0⟩ }

def epRunning : Nat := 1
def epHalted : Nat := 2
def epStopped : Nat := 3

def State.setEp (s : State) (n slot d : Nat) (e : UsbEp) : State :=
  let x := s.ufn n
  let k := x.slot slot
  s.setUfn n { x with slots := Tab.put slot { k with eps := Tab.put d e k.eps } x.slots }

/-! ### The function's tunnels (R212, R213) -/

/-- The half of an entry that starts at this part. -/
def State.ownHalf (s : State) (t : Nat) : Nat :=
  let me := if s.mode = .head then 0 else s.addr
  if Tun.v (s.half t 0) && Tun.shub (s.half t 0) = me then 0 else if s.mode = .head then 1 else 0

def State.ownWord (s : State) (t : Nat) : Nat := s.half t (s.ownHalf t)

/-- The VHC that owns a tunnel of a bay function. -/
def State.fnVhc (s : State) (t : Nat) : Nat := Tun.vhc (s.ownWord t)

/-- A bay function runs (R20, R216): its tunnel is valid, it is neither parked nor stopped by FREEZE_FN, and the bay is enabled. -/
def State.fnRuns (s : State) (n t : Nat) : Bool :=
  let v := s.fnVhc t
  Tun.v (s.ownWord t) && s.bayOn n && !s.fns.parked.contains v && !s.fns.frozen.contains v

/-- The G tunnel of a bay's controller, toward the head or from it, with its half (R213, R295). -/
def State.isoTun (s : State) (n : Nat) (up : Bool) : Option (Nat × Nat) :=
  let me := if s.mode = .head then 0 else s.addr
  let ok := fun (w : Nat) => Tun.v w && Tun.cls w = clsG &&
    (if up then Tun.shub w = me && Tun.sport w = n + 1 && Tun.dhub w = 0 && Tun.dport w = 8 else Tun.dhub w = me && Tun.dport w = n + 1 && Tun.shub w = 0)
  (s.sched.tun.flatMap (fun e => ([0, 1].filter (fun h => ok (e.2.half h))).map (fun h => (e.1, h)))).head?

/-! ### Memory of the host and events (R289, R293) -/

/-- The chain half as a chain. -/
def State.issueFor (s : State) (n t : Nat) (r : TReq) : State :=
  let v := s.fnVhc t
  s.issue { init := 5 + n, req := { r with tunnel := t, vhc := v, gen := s.genFor v }, chain := s.ownHalf t }

/-- Data is written to host memory in MemWr requests of at most 512 bytes (R293). -/
def State.usbWriteMem (s : State) (n t addr : Nat) (d : List Byte) : State :=
  let ps := chunks 512 (d.length / 512 + 1) d
  s.each (List.range ps.length) (fun s i => let b := ps.getD i []; if b = [] then s else s.issueFor n t { op := opMemWr, count := b.length, addr := addr + 512 * i, data := b })

/-- Host memory is read in MemRd requests of at most 4,096 bytes (R293). -/
def State.usbReadMem (s : State) (n t addr len : Nat) : State :=
  s.each (List.range (ceilDiv len 4096)) (fun s i => s.issueFor n t { op := opMemRd, count := min 4096 (len - 4096 * i), addr := addr + 4096 * i })

/-- Completion codes of events (R289, R294, R300–R302). -/
def ccSuccess : Nat := 1
def ccStall : Nat := 6
def ccShort : Nat := 13
def ccNoSlot : Nat := 11
def ccContext : Nat := 19
def ccMissed : Nat := 23
def ccStopped : Nat := 26
def ccBandwidth : Nat := 35
def ccTrunkDma : Nat := 192

/-- An event TRB in 16 bytes (PRESUMED, log entry 32): pointer, length and code, slot, endpoint, type and cycle bit. -/
def usbTrb (e : UsbEv) (type code : Nat) : List Byte :=
  leBytes 8 e.ptr ++ leBytes 4 (code * 2 ^ 24 + e.left % 2 ^ 24) ++ leBytes 4 (e.slot * 2 ^ 24 + e.ep % 32 * 65536 + type * 1024 + b2n e.cycle)

/-- An event is written to the event ring, and its interrupter signals (R289, R293). -/
def State.usbEvent (s : State) (n t type code : Nat) (e : UsbEv) : State :=
  (s.usbWriteMem n t e.addr (usbTrb e type code)).bayIrq 1 n (s.fnVhc t) e.irq t

/-- A Transfer Event: always for an error, on request for a TD that ended well. -/
def State.xferEvent (s : State) (n t code : Nat) (e : UsbEv) : State := if code = ccSuccess && !e.ioc then s else s.usbEvent n t 32 code e

/-- A Command Completion Event. -/
def State.cmdEvent (s : State) (n t code : Nat) (e : UsbEv) : State := s.usbEvent n t 33 code e

/-! ### Transaction translators (R292) -/

/-- The translator buffers of a slot are cleared. -/
def State.ttClear (s : State) (n slot : Nat) : State :=
  let k := (s.ufn n).slot slot
  if !k.tt then s
  else if k.port = 2 then s.bump (Pg.usb n) USB.TT_CNT_tt_clr_p2 1
  else if k.port = 3 then s.bump (Pg.usb n) USB.TT_CNT_tt_clr_p3 1
  else s

/-- An endpoint halts; one for control or bulk transfers clears its slot's translator. A periodic endpoint behind a translator has a time in its budget. -/
def State.epHalt (s : State) (n slot d : Nat) : State :=
  let e := ((s.ufn n).slot slot).ep d
  let s := s.setEp n slot d { e with state := epHalted, busy := false }
  if e.cfg.iso || e.cfg.ttUs != 0 then s else s.ttClear n slot

/-! ### Configure Endpoint (R292, R295) -/

/-- Isochronous endpoints of a direction. -/
def UsbFn.isoEps (x : UsbFn) (dirIn : Bool) : List EpCfg :=
  ((x.slots.flatMap (fun k => k.2.eps)).map (fun e => e.2.cfg)).filter (fun c => c.iso && c.isIn = dirIn)

/-- The greatest sum over the bus intervals. -/
def peakOf (l : List EpCfg) (f : EpCfg → Nat) : Nat :=
  let period := l.foldl (fun m c => Nat.lcm m (max 1 c.period)) 1
  ((List.range period).map (fun k => sumNat ((l.filter (fun c => k % max 1 c.period = c.phase % max 1 c.period)).map f))).foldl max 0

/-- The periodic time of a translator in a 1 ms frame. -/
def UsbFn.ttLoad (x : UsbFn) (port : Nat) : Nat :=
  sumNat ((x.slots.filter (fun k => k.2.tt && k.2.port = port)).map (fun k => sumNat (k.2.eps.map (fun e => e.2.cfg.ttUs))))

/-- The endpoints fit the banks and the translators. -/
def UsbFn.fits (x : UsbFn) : Bool :=
  [true, false].all (fun d => peakOf (x.isoEps d) EpCfg.bytes ≤ 8192 && peakOf (x.isoEps d) EpCfg.pkts ≤ 20) && x.ttLoad 2 ≤ 900 && x.ttLoad 3 ≤ 900

/-- ISO_BW from what is configured: the busiest interval's bytes. -/
def State.isoBw (s : State) (n : Nat) : State :=
  let x := s.ufn n
  (s.wr (Pg.usb n) USB.ISO_BW_in_bytes (peakOf (x.isoEps true) EpCfg.bytes)).wr (Pg.usb n) USB.ISO_BW_out_bytes (peakOf (x.isoEps false) EpCfg.bytes)

def State.configure (s : State) (n t slot port : Nat) (tt : Bool) (add : List EpCfg) (drop : List Nat) (ev : UsbEv) : State :=
  if !s.fnRuns n t then s
  else
    let x := s.ufn n
    let eps := (x.slot slot).eps.filter (fun e => !drop.contains e.1)
    let eps := add.foldl (fun l c => Tab.put c.dci { state := epRunning, cfg := c } l) eps
    let y := { x with slots := Tab.put slot { port := port, tt := tt, eps := eps } x.slots }
    let pair := (s.isoTun n true).isSome && (s.isoTun n false).isSome
    if (add.any (fun c => c.iso) && !pair) || !y.fits then (s.raise (Pg.usb n) USB.ev_bw_refused).cmdEvent n t ccBandwidth ev
    else ((s.setUfn n y).isoBw n).cmdEvent n t ccSuccess ev

def execConfigureEndpoint (n : Bay) (t slot port : Nat) (tt : Bool) (add : List EpCfg) (drop : List Nat) (ev : UsbEv) (s : State) : Host.Outcome State Fault Refusal :=
  s.run (fun s => s.configure n.val t slot port tt add drop ev)

/-! ### Stop Endpoint, doorbells, halts (R300, R301) -/

/-- Stop Endpoint; `halt` is the completion code of a halting condition that meets it. -/
def State.stopEp (s : State) (n t slot d : Nat) (halt : Option Nat) (tev ev : UsbEv) : State :=
  let e := ((s.ufn n).slot slot).ep d
  if !s.fnRuns n t then s
  else match halt with
    | some code => ((s.epHalt n slot d).xferEvent n t (if code = ccSuccess then ccStall else code) tev).cmdEvent n t ccContext ev
    | none =>
      if e.state != epRunning then s.cmdEvent n t ccContext ev
      else
        let s := s.setEp n slot d { e with state := epStopped, busy := false }
        let s := if e.busy then s.xferEvent n t ccStopped tev else s
        s.cmdEvent n t ccSuccess ev

def execStopEndpoint (n : Bay) (t slot dci : Nat) (halt : Option Nat) (tev ev : UsbEv) (s : State) : Host.Outcome State Fault Refusal :=
  s.run (fun s => s.stopEp n.val t slot dci halt tev ev)

/-- A doorbell: the endpoint runs, and the controller reads its ring and its buffers. Slot 0 is the command ring. -/
def State.doorbell (s : State) (n t slot d : Nat) (reads : List (Nat × Nat)) : State :=
  let x := s.ufn n
  let e := (x.slot slot).ep d
  if !s.fnRuns n t || !x.run then s
  else if slot = 0 then s.each reads (fun s r => s.usbReadMem n t r.1 r.2)
  else if e.state = epHalted then s
  else (s.setEp n slot d { e with state := epRunning, busy := true }).each reads (fun s r => s.usbReadMem n t r.1 r.2)

def execDoorbellWrite (n : Bay) (t slot dci : Nat) (reads : List (Nat × Nat)) (s : State) : Host.Outcome State Fault Refusal :=
  s.run (fun s => s.doorbell n.val t slot dci reads)

def execStallRx (n : Bay) (t slot dci : Nat) (ev : UsbEv) (s : State) : Host.Outcome State Fault Refusal :=
  s.run (fun s => if s.fnRuns n.val t then (s.epHalt n.val slot dci).xferEvent n.val t ccStall ev else s)

/-- A TD finishes (R293): its data is written ahead of its event. -/
def State.xferDone (s : State) (n t slot d : Nat) (ins : List (Nat × List Byte)) (more : Bool) (ev : UsbEv) : State :=
  let e := ((s.ufn n).slot slot).ep d
  if !s.fnRuns n t || e.state != epRunning then s
  else
    let s := s.setEp n slot d { e with busy := more }
    (s.each ins (fun s x => s.usbWriteMem n t x.1 x.2)).xferEvent n t (if ev.left = 0 then ccSuccess else ccShort) ev

def execTransferComplete (n : Bay) (t slot dci : Nat) (ins : List (Nat × List Byte)) (more : Bool) (ev : UsbEv) (s : State) : Host.Outcome State Fault Refusal :=
  s.run (fun s => s.xferDone n.val t slot dci ins more ev)

/-! ### Failed memory requests (R294) -/

/-- HSE: the controller halts. -/
def State.usbHse (s : State) (n : Nat) : State := (s.setUfn n { s.ufn n with hse := true, run := false, halted := true }).raise (Pg.usb n) USB.ev_hse

def State.dmaErr (s : State) (n : Nat) : State := (s.bump (Pg.usb n) USB.DMA_CNT_dma_err 1).raise (Pg.usb n) USB.ev_dma_err

def State.memFail (s : State) (n t : Nat) (what : UsbFail) (slot d : Nat) (ev : UsbEv) : State :=
  if !s.fnRuns n t then s
  else match what with
    | .transfer => ((s.epHalt n slot d).dmaErr n).xferEvent n t ccTrunkDma ev
    | .context => s.cmdEvent n t ccTrunkDma ev
    | .ring => s.usbHse n
    | .eventWrite => (s.bump (Pg.usb n) USB.DMA_CNT_dma_err 1).usbHse n

def execMemoryRequestFailure (n : Bay) (t : Nat) (what : UsbFail) (slot dci : Nat) (ev : UsbEv) (s : State) : Host.Outcome State Fault Refusal :=
  s.run (fun s => s.memFail n.val t what slot dci ev)

/-- USBCMD.HCRST: the controller as after reset; connections stand, the USB page stands. -/
def State.hcReset (s : State) (n : Nat) : State :=
  let x := s.ufn n
  if !s.bayOn n then s else (s.setUfn n { ccs := x.ccs, csc := x.ccs, pp3 := x.pp3 }).isoBw n

def execHostControllerReset (n : Bay) (s : State) : Host.Outcome State Fault Refusal := s.run (fun s => s.hcReset n.val)

/-! ### Device reset, port reset, disconnect (R302) -/

/-- Events of a slot leave a table of events by interval. -/
def evsWithout {α : Type} (f : α → UsbEv) (slots : List Nat) (t : Tab (List α)) : Tab (List α) := t.map (fun x => (x.1, x.2.filter (fun e => !slots.contains (f e).slot)))

def evsOf {α : Type} (f : α → UsbEv) (slots : List Nat) (t : Tab (List α)) : List UsbEv := (t.flatMap (fun x => x.2.map f)).filter (fun e => slots.contains e.slot)

/-- Transfers of the devices in some slots end: TDs in progress complete with Stopped, translators are cleared, banked isochronous data is dropped and its TDs complete
with Stopped. `evs` holds an event for each TD in progress. -/
def State.dropDevices (s : State) (n t : Nat) (slots : List Nat) (evs : List UsbEv) : State :=
  let x := s.ufn n
  let busy := evs.filter (fun e => slots.contains e.slot && ((x.slot e.slot).ep e.ep).busy)
  let banked := evsOf id slots x.acks ++ evsOf Prod.fst slots x.outEvs
  let ks := x.slots.map (fun k => if slots.contains k.1 then (k.1, { k.2 with eps := k.2.eps.map (fun e => (e.1, { e.2 with busy := false })) }) else k)
  let s := s.each slots (fun s k => s.ttClear n k)
  let s := s.setUfn n { x with slots := ks, acks := evsWithout id slots x.acks, outEvs := evsWithout Prod.fst slots x.outEvs }
  s.each (busy ++ banked) (fun s e => s.xferEvent n t ccStopped e)

/-- The slots behind an xHCI port. -/
def UsbFn.behind (x : UsbFn) (port : Nat) : List Nat := (x.slots.filter (fun k => k.2.port = port)).map (·.1)

/-- Reset Device: endpoints other than the default control endpoint are disabled. -/
def State.resetDevice (s : State) (n t slot : Nat) (evs : List UsbEv) (ev : UsbEv) : State :=
  if !s.fnRuns n t then s
  else if (Tab.find slot (s.ufn n).slots).isNone then s.cmdEvent n t ccNoSlot ev
  else
    let s := s.dropDevices n t [slot] evs
    let x := s.ufn n
    let k := x.slot slot
    ((s.setUfn n { x with slots := Tab.put slot { k with eps := k.eps.filter (fun e => e.1 = 1) } x.slots }).isoBw n).cmdEvent n t ccSuccess ev

def execResetDevice (n : Bay) (t slot : Nat) (evs : List UsbEv) (ev : UsbEv) (s : State) : Host.Outcome State Fault Refusal :=
  s.run (fun s => s.resetDevice n.val t slot evs ev)

def State.disableSlot (s : State) (n t slot : Nat) (ev : UsbEv) : State :=
  if !s.fnRuns n t then s
  else if (Tab.find slot (s.ufn n).slots).isNone then s.cmdEvent n t ccNoSlot ev
  else
    let s := s.ttClear n slot
    let x := s.ufn n
    ((s.setUfn n { x with slots := Tab.del slot x.slots }).isoBw n).cmdEvent n t ccSuccess ev

def execDisableSlot (n : Bay) (t slot : Nat) (ev : UsbEv) (s : State) : Host.Outcome State Fault Refusal := s.run (fun s => s.disableSlot n.val t slot ev)

/-- A port leaves suspend and any resume. -/
def UsbFn.portAwake (x : UsbFn) (port : Nat) : UsbFn :=
  { x with u3 := x.u3.filter (· != port), wake := x.wake.filter (· != port), resume := x.resume.filter (· != port) }

def State.portReset (s : State) (n t port : Nat) (evs : List UsbEv) : State :=
  if !s.fnRuns n t then s
  else
    let s := s.dropDevices n t ((s.ufn n).behind port) evs
    (s.setUfn n ((s.ufn n).portAwake port)).emit (.bay n "usb port reset" [port])

def execUsbPortReset (n : Bay) (t : Nat) (port : Fin 3) (evs : List UsbEv) (s : State) : Host.Outcome State Fault Refusal :=
  s.run (fun s => s.portReset n.val t (port.val + 1) evs)

def State.disconnect (s : State) (n t port : Nat) (evs : List UsbEv) : State :=
  let x := s.ufn n
  if !s.bayOn n || !x.ccs.contains port then s
  else
    let s := if s.fnRuns n t then s.dropDevices n t (x.behind port) evs else s
    let x := (s.ufn n).portAwake port
    s.setUfn n { x with ccs := x.ccs.filter (· != port), csc := if x.csc.contains port then x.csc else x.csc ++ [port] }

def execUsbDisconnect (n : Bay) (t : Nat) (port : Fin 3) (evs : List UsbEv) (s : State) : Host.Outcome State Fault Refusal :=
  s.run (fun s => s.disconnect n.val t (port.val + 1) evs)

/-! ### Ports (R290, R303) -/

/-- The xHCI port can see a device; the USB 2.0 ports 2 and 3 only while the companion die is powered (R485). -/
def State.portThere (s : State) (n port : Nat) : Bool :=
  let m := s.rd (Pg.tc n) TC.TC_ALT_mux
  let cfg := (s.tc n).cfg
  s.bayOn n && (match port with
    | 1 => s.on (Pg.usb n) USB.USB_CFG_ss_en && (cfg = 2 || (cfg = 0 && (m = 0 || m = 3)))
    | 2 => s.pw.on
    | _ => s.pw.on && s.on (Pg.usb n) USB.USB_CFG_p3_en && (s.ufn n).pp3)

def State.connect (s : State) (n port : Nat) : State :=
  let x := s.ufn n
  if !s.portThere n port || x.ccs.contains port then s
  else s.setUfn n { x with ccs := x.ccs ++ [port], csc := if x.csc.contains port then x.csc else x.csc ++ [port] }

def execUsbDeviceConnect (n : Bay) (port : Fin 3) (s : State) : Host.Outcome State Fault Refusal := s.run (fun s => s.connect n.val (port.val + 1))

/-- A port sees its device no more. -/
def State.portGone (s : State) (n port : Nat) : State :=
  let x := s.ufn n
  if !x.ccs.contains port then s
  else
    let x := x.portAwake port
    s.setUfn n { x with ccs := x.ccs.filter (· != port), csc := if x.csc.contains port then x.csc else x.csc ++ [port] }

/-- Port 1 disappears with the mux (R290, R350). -/
def State.ssGone (s : State) (n : Nat) : State := if s.portThere n 1 then s else s.portGone n 1

/-- The USB 2.0 balls of a bay go high impedance (R485): ports 2 and 3 see no device any more. -/
def State.u2Gone (s : State) (n : Nat) : State := (s.portGone n 2).portGone n 3

/-- USB_CFG is written (R290, R308): a port that it takes away disconnects. -/
def State.usbCfg (s : State) (n : Nat) : State :=
  let s := s.ssGone n
  if s.on (Pg.usb n) USB.USB_CFG_p3_en then s else s.portGone n 3

/-- A collision of a host resume and a device wake (R303). -/
def State.rwake (s : State) (n port : Nat) : State :=
  (s.wr (Pg.usb n) USB.HUB_EXT_rwake_seen (s.rd (Pg.usb n) USB.HUB_EXT_rwake_seen ||| 2 ^ (port - 1))).raise (Pg.usb n) USB.ev_rwake

/-- The host's resume: port 1 completes its U3 exit handshake; ports 2 and 3 drive resume signalling until host software writes U0. -/
def State.hostResume (s : State) (n port : Nat) : State :=
  let x := s.ufn n
  if !s.bayOn n then s
  else if x.wake.contains port then
    let s := s.rwake n port
    let y := x.portAwake port
    (s.setUfn n (if port = 1 then y else { y with resume := y.resume ++ [port] })).emit (.bay n "usb resume" [port])
  else if x.u3.contains port then
    let y := x.portAwake port
    (s.setUfn n { y with resume := y.resume ++ [port] }).emit (.bay n "usb resume" [port])
  else s

def execHostResumeWrite (n : Bay) (port : Fin 3) (s : State) : Host.Outcome State Fault Refusal := s.run (fun s => s.hostResume n.val (port.val + 1))

/-- Device wake signalling. -/
def State.deviceWake (s : State) (n port : Nat) : State :=
  let x := s.ufn n
  if !s.bayOn n then s
  else if x.resume.contains port then
    let s := s.rwake n port
    if port = 1 then s.setUfn n (x.portAwake 1) else s
  else if x.u3.contains port then
    let y := x.portAwake port
    s.setUfn n { y with wake := y.wake ++ [port], plc := if y.plc.contains port then y.plc else y.plc ++ [port] }
  else s

def execDeviceRemoteWake (n : Bay) (port : Fin 3) (s : State) : Host.Outcome State Fault Refusal := s.run (fun s => s.deviceWake n.val (port.val + 1))

/-! ### Isochronous staging (R295–R298) -/

/-- A staging packet's header and records (R296); one record is address, length and byte 10. -/
def isoHead (type status k : Nat) (recs : List (Nat × Nat × Nat)) : List Byte :=
  leBytes 1 type ++ leBytes 1 status ++ leBytes 2 recs.length ++ leBytes 4 k ++ List.replicate 8 0
    ++ recs.flatMap (fun r => leBytes 8 r.1 ++ leBytes 2 r.2.1 ++ leBytes 1 r.2.2 ++ [0])

/-- The records of a staging packet. -/
def isoRecs (l : List Byte) : List (Nat × Nat × Nat) :=
  (List.range (min 20 (numAt l 2 2))).map (fun i => (numAt l (16 + 12 * i) 8, numAt l (24 + 12 * i) 2, byteAt l (26 + 12 * i)))

/-- The data that follows the records, by record: it starts in the packet's second cell. -/
def isoSplit : List (Nat × Nat × Nat) → List Byte → List (List Byte)
  | [], _ => []
  | r :: t, l => l.take r.2.1 :: isoSplit t (l.drop r.2.1)

/-- The header cell of a packet and its data cells, as one payload: the first cell holds header and records alone (R296). -/
def isoData (l : List Byte) : List Byte := l.drop (16 + 12 * min 20 (numAt l 2 2))

/-- A staging packet leaves: one cell for header and records, the data in cells of 256 bytes. -/
def State.sendIso (s : State) (src : Nat) (ch : Nat) (c : Cell) (head data : List Byte) : State :=
  let p := s.portFor ch
  let ps := head :: (if data = [] then [] else chunks 256 (data.length / 256 + 1) data)
  s.each (cutCells c ps) (fun s x =>
    let (q, s) := s.nextTseq x.tunnel x.dhub (s.halfOfPort p)
    s.fromLocal src p ({ x with tseq := q } : Cell).seal)

/-- Bus intervals of lead (R298). -/
def State.isoLead (s : State) (n : Nat) : Nat := ceilDiv (max 125 (min 6000 (s.rd (Pg.usb n) USB.USB_CFG_lead_us))) 125

/-- IST in frames with its unit bit (R288). -/
def State.ist (s : State) (n : Nat) : Nat := 8 + min 7 (ceilDiv (max 125 (min 6000 (s.rd (Pg.usb n) USB.USB_CFG_lead_us))) 1000 + 1)

/-- Cells of the bay's staging packets still wait for its Granary account (R297 step 2). -/
def State.isoWaits (s : State) (n : Nat) : Bool := match s.isoTun n true with
  | some (g, _) => s.gran.waiting.any (fun w => w.src = n + 2 && w.buf.cell.tunnel = g)
  | none => false

/-- A staging packet in aux_up. -/
def State.sendUp (s : State) (n : Nat) (head data : List Byte) : State := match s.isoTun n true with
  | some (g, h) => (match s.tunCell g h with
    | some c => s.sendIso (n + 2) h c head data
    | none => s.noEntry)
  | none => s

/-- Missed Service Errors. -/
def State.isoMissed (s : State) (n t : Nat) (evs : List UsbEv) : State :=
  (s.bump (Pg.usb n) USB.ISO_CNT0_missed evs.length).each evs (fun s e => s.xferEvent n t ccMissed e)

/-- The IN packets of interval `k`, which has just ended (R297 steps 1 and 2). -/
def State.isoIn (s : State) (n t k : Nat) (ins : List (UsbEv × List (Nat × List Byte))) : State :=
  let x := s.ufn n
  if ins = [] then s
  else if !x.inOk then
    ((s.bump (Pg.usb n) USB.ISO_CNT1_overrun 1).raise (Pg.usb n) USB.ev_iso_overrun).isoMissed n t (ins.map (·.1))
  else
    let recs := ins.flatMap (·.2)
    let s := s.setUfn n { x with acks := Tab.put k (ins.map (·.1)) x.acks }
    s.sendUp n (isoHead 1 0 k (recs.map (fun r => (r.1, r.2.length, 0)))) (recs.flatMap (·.2))

/-- The OUT TDs of an interval are served from its packets; a TD with a packet that reads FETCH_ERR completes with code 192 (R298). -/
def isoServe : List (UsbEv × Nat) → List (Option (List Byte)) → List (UsbEv × List (List Byte) × Bool)
  | [], _ => []
  | (e, k) :: t, l => (e, (l.take k).filterMap id, (l.take k).all (fun d => d.isSome) && (l.take k).length = k) :: isoServe t (l.drop k)

/-- Interval `k` begins: its OUT packets go out of the bank, or its TDs are late (R298). -/
def State.isoOut (s : State) (n t k : Nat) : State :=
  let x := s.ufn n
  match Tab.find k x.outEvs with
  | none => s
  | some tds =>
    let s := s.setUfn n { x with outEvs := Tab.del k x.outEvs, outs := Tab.del k x.outs, moved := x.moved.filter (· != k) }
    if tds = [] then s
    else match Tab.find k x.outs with
      | none => ((s.bump (Pg.usb n) USB.ISO_CNT0_late 1).raise (Pg.usb n) USB.ev_iso_late).isoMissed n t (tds.map (·.1))
      | some l => s.each (isoServe tds l) (fun s d =>
          let s := s.each d.2.1 (fun s b => s.emit (.bay n "iso out" (k :: d.1.slot :: d.1.ep :: b.map BitVec.toNat)))
          s.xferEvent n t (if d.2.2 then ccSuccess else ccTrunkDma) d.1)

/-- A bus interval begins: `ins` came in during the interval that ends, `pull` lists the OUT TDs of the interval N ahead with their packets' addresses and lengths,
`tardy` those that were not queued IST ahead (R289, R297, R298). -/
def State.isoInterval (s : State) (n t : Nat) (ins : List (UsbEv × List (Nat × List Byte))) (pull : List (UsbEv × List (Nat × Nat))) (tardy : List UsbEv) : State :=
  if !s.fnRuns n t || !(s.ufn n).run then s
  else
    let p := Pg.usb n
    let old := s.rd p USB.ISO_IVL_interval
    let k := (old + 1) % 2 ^ 32
    let s := s.wr p USB.ISO_IVL_interval k
    let clear := !s.isoWaits n
    let s := s.isoIn n t old ins
    let s := s.setUfn n { s.ufn n with inOk := clear }
    let s := s.isoOut n t k
    let s := s.isoMissed n t tardy
    let x := s.ufn n
    let next := (k + 1) % 2 ^ 32
    let s := if (Tab.find next x.outs).isSome && !x.moved.contains next then s.setUfn n { x with moved := x.moved ++ [next] } else s
    if pull = [] then s
    else
      let far := (k + s.isoLead n) % 2 ^ 32
      let s := s.setUfn n { s.ufn n with outEvs := Tab.put far (pull.map (fun d => (d.1, d.2.length))) (s.ufn n).outEvs }
      s.sendUp n (isoHead 2 0 far ((pull.flatMap (·.2)).map (fun r => (r.1, r.2, 0)))) []

def execIsoIntervalStart (n : Bay) (t : Nat) (ins : List (UsbEv × List (Nat × List Byte))) (pull : List (UsbEv × List (Nat × Nat))) (tardy : List UsbEv) (s : State) :
    Host.Outcome State Fault Refusal := s.run (fun s => s.isoInterval n.val t ins pull tardy)

/-- The bay takes an ISO_ACK: the Transfer Events of its interval are written (R297 step 4). -/
def State.isoAck (s : State) (n t : Nat) (c : Cell) : State :=
  let k := numAt c.payload 4 4
  let x := s.ufn n
  if !s.fnRuns n t || byteAt c.payload 0 != 4 || byteAt c.payload 1 != 0 then s
  else match Tab.find k x.acks with
    | none => s
    | some evs => (s.setUfn n { x with acks := Tab.del k x.acks }).each evs (fun s e => s.xferEvent n t ccSuccess e)

def execIsoAckRx (n : Bay) (t : Nat) (c : Cell) (s : State) : Host.Outcome State Fault Refusal := s.run (fun s => s.isoAck n.val t c)

/-- Step 4a of R297. -/
def State.isoLost (s : State) (n t k : Nat) : State :=
  let x := s.ufn n
  match Tab.find k x.acks with
  | none => s
  | some evs =>
    if !s.fnRuns n t then s
    else
      let s := s.setUfn n { x with acks := Tab.del k x.acks }
      let s := (s.bump (Pg.usb n) USB.ISO_CNT1_lost 1).raise (Pg.usb n) USB.ev_iso_lost
      s.each evs (fun s e => s.xferEvent n t ccTrunkDma e)

def execIsoAckTimeout (n : Bay) (t k : Nat) (s : State) : Host.Outcome State Fault Refusal := s.run (fun s => s.isoLost n.val t k)

/-- OUT data commits in the bay's account; it is discarded when its interval has begun (R298). -/
def State.isoOutData (s : State) (n : Nat) (c : Cell) : State :=
  let k := numAt c.payload 4 4
  let x := s.ufn n
  if !s.bayOn n || byteAt c.payload 0 != 3 || (Tab.find k x.outEvs).isNone then s
  else
    let recs := isoRecs c.payload
    let ds := isoSplit recs (isoData c.payload)
    let l := (List.range recs.length).map (fun i => if (recs.getD i (0, 0, 0)).2.2 = 0 then some (ds.getD i []) else none)
    s.setUfn n { x with outs := Tab.put k l x.outs }

def execIsoOutDataRx (n : Bay) (c : Cell) (s : State) : Host.Outcome State Fault Refusal := s.run (fun s => s.isoOutData n.val c)

/-! ### Isochronous staging at the head (R297, R298) -/

/-- The VHC and directory entry of a controller whose aux_up is a tunnel on a chain. -/
def State.isoFn (s : State) (ch tunnel : Nat) : Option (Nat × Nat) :=
  ((List.range 64).flatMap (fun v => (List.range 16).map (fun f => (v, f)))).find? (fun x =>
    let w := s.dirCfg x.1 x.2
    dirV w && dirKind w = 1 && (dirHub w = 0 || dirChain w = ch) && bitsOf (s.rd (Pg.vhc x.1) (VHC.DIR_AUX_aux x.2)) 11 0 = tunnel && tunnel != 0)

/-- A staging packet at the head; `data` is what host memory answers for each record of a pull, none for a read that fails. -/
def State.isoStaging (s : State) (p : Port) (c : Cell) (data : List (Option (List Byte))) : State :=
  if s.mode != .head then s
  else match s.isoFn (chainOf p) c.tunnel with
    | none => s
    | some (v, f) =>
      let dn := bitsOf (s.rd (Pg.vhc v) (VHC.DIR_AUX_aux f)) 27 16
      let k := numAt c.payload 4 4
      let st := s.vState v
      let runs := c.gen = s.vGen v && (st = Machine.vActive || st = vDraining || st = vFreezing)
      let recs := isoRecs c.payload
      match s.tunCell dn (chainOf p) with
      | none => s.noEntry
      | some h =>
        if byteAt c.payload 0 = 1 then
          let ds := isoSplit recs (isoData c.payload)
          let s := if runs then s.each (List.range recs.length) (fun s i => s.emit (.hostWrite (v + 1) (recs.getD i (0, 0, 0)).1 (ds.getD i []))) else s
          s.sendIso 7 (chainOf p) h (isoHead 4 (b2n !runs) k []) []
        else if byteAt c.payload 0 = 2 && runs then
          let (tag, s) := (s.vhg.hostTag, ({ s with vhg := { s.vhg with hostTag := s.vhg.hostTag + recs.length } } : State))
          let s := s.each (List.range recs.length) (fun s i => let r := recs.getD i (0, 0, 0); s.emit (.hostRead (v + 1) r.1 r.2.1 (tag + i)))
          let got := (List.range recs.length).map (fun i => (data.getD i none).map (fun d => d.take (recs.getD i (0, 0, 0)).2.1))
          let out := (List.range recs.length).map (fun i => let r := recs.getD i (0, 0, 0); match got.getD i none with
            | some d => (r.1, d.length, 0)
            | none => (r.1, 0, 1))
          s.sendIso 7 (chainOf p) h (isoHead 3 0 k out) (got.flatMap (fun d => d.getD []))
        else s

def execIsoStagingRx (p : Port) (c : Cell) (data : List (Option (List Byte))) (s : State) : Host.Outcome State Fault Refusal :=
  s.run (fun s => s.isoStaging p c data)

/-! ### The xHCI register space (R287–R291) -/

/-- A word of the capability and extended capability registers (R288; the layouts of xHCI 1.2 are PRESUMED, log entry 32). -/
def State.xhciCap (s : State) (n off : Nat) : Nat := match off with
  | 0x0000 => 0x01200080
  | 0x0004 => 3 * 2 ^ 24 + 8 * 256 + 64
  | 0x0008 => 4 * 16 + s.ist n
  | 0x0010 => 0x0C000AAB
  | 0x0014 => 0x2000
  | 0x0018 => 0x1000
  | 0x3000 => 0x03200602
  | 0x3004 => 0x20425355
  | 0x3008 => 0x20000101
  | 0x3010 => 0x00050131
  | 0x3014 => 0x000A4132
  | 0x3018 => 0x02000002
  | 0x301C => 0x20425355
  | 0x3020 => 0x00080202
  | _ => 0

/-- PORTSC of a port: CCS, PED, PLS, PP, CSC, PLC (R290, R291). -/
def State.portsc (s : State) (n port : Nat) (pp : Bool) : Nat :=
  let x := s.ufn n
  let ccs := x.ccs.contains port
  b2n ccs + 2 * b2n ccs
    + 32 * (if !ccs then 5 else if x.wake.contains port || x.resume.contains port then 15 else if x.u3.contains port then 3 else 0)
    + 512 * b2n pp + 2 ^ 17 * b2n (x.csc.contains port) + 2 ^ 22 * b2n (x.plc.contains port)

/-- PORTSC.PP (R290, R291): on ports 1 and 2 the bay's power as its VBUS page reports it, on port 3 the written bit. -/
def State.portPp (s : State) (n port : Nat) : Bool := match port with
  | 3 => s.on (Pg.usb n) USB.USB_CFG_p3_en && (s.ufn n).pp3
  | _ =>
    let p := Pg.vbs n
    let st := s.rd p VBS.VBS_STAT_state
    st = 2 || (st = 1 && s.rd p VBS.VBS_WIN_lo ≤ s.rd p VBS.VBS_MEAS_vbus && s.rd p VBS.VBS_MEAS_vbus ≤ s.rd p VBS.VBS_WIN_hi)

/-- A word of the xHCI register set reads. -/
def State.xhciRead (s : State) (n off : Nat) : Nat :=
  let x := s.ufn n
  if off < 0x80 || (0x3000 ≤ off && off < 0x4000) then s.xhciCap n off
  else if off = 0x80 then (Tab.find off x.xregs).getD 0 / 2 * 2 + b2n x.run
  else if off = 0x84 then b2n x.halted + 4 * b2n x.hse
  else if 0x480 ≤ off && off < 0x4B0 && off % 16 = 0 then s.portsc n ((off - 0x480) / 16 + 1) (s.portPp n ((off - 0x480) / 16 + 1))
  else if off = 0x1000 then s.rd (Pg.usb n) USB.ISO_IVL_interval % 16384
  else if 0x2000 ≤ off && off < 0x3000 then 0
  else (Tab.find off x.xregs).getD 0

/-- A write of PORTSC: the change bits clear, and with LWS a write of PLS 3 suspends, of 0 ends a resume; PP, port reset and a resume have commands of their own. Port 3 without p3_en
ignores it (R290). -/
def State.portscWrite (s : State) (n port v : Nat) : State :=
  if port = 3 && !s.on (Pg.usb n) USB.USB_CFG_p3_en then s
  else
  let x := s.ufn n
  let x := if bitOf v 17 = 1 then { x with csc := x.csc.filter (· != port) } else x
  let x := if bitOf v 22 = 1 then { x with plc := x.plc.filter (· != port) } else x
  let x :=
    if bitOf v 16 = 0 || !x.ccs.contains port then x
    else if bitsOf v 8 5 = 3 then let y := x.portAwake port; { y with u3 := y.u3 ++ [port] }
    else if bitsOf v 8 5 = 0 then x.portAwake port
    else x
  s.setUfn n x

/-- A word of the xHCI register set is written; HCRST and doorbells have commands of their own, CSS and CRS have no effect (R289). -/
def State.xhciWrite (s : State) (n off v : Nat) : State :=
  let x := s.ufn n
  if off < 0x80 || (0x2000 ≤ off && off < 0x4000) || off = 0x1000 then s
  else if off = 0x80 then
    let run := bitOf v 0 = 1 && !x.hse
    s.setUfn n { x with run := run, halted := !run, xregs := Tab.put off (v % 2 ^ 32 - bitsOf v 9 8 * 256 - bitOf v 1 * 2) x.xregs }
  else if off = 0x84 then s
  else if 0x480 ≤ off && off < 0x4B0 && off % 16 = 0 then s.portscWrite n ((off - 0x480) / 16 + 1) v
  else s.setUfn n { x with xregs := Tab.put off (v % 2 ^ 32) x.xregs }

end Sys2Proof.Machine
end

