-- ==== Sys2Proof/Machine/Eth.lean ====
section
/-!
DEFINITION. Sys2Proof/Machine/Eth.lean: the Ethernet MAC of a bay (R310–R315, R320–R322) and the NIC queue sets of a head (R316–R319, R329).
-/
namespace Sys2Proof.Machine

open Sys2Proof

def State.eth1 (s : State) (n : Nat) : EthCtx := (Tab.find n s.eth).getD {}

def State.setEth (s : State) (n : Nat) (x : EthCtx) : State := { s with eth := Tab.put n x s.eth }

/-! ### Frames (R312, R313, R321) -/

/-- A big-endian 16-bit number in a frame. -/
def be16 (l : List Byte) (i : Nat) : Nat := byteAt l i * 256 + byteAt l (i + 1)

/-- The outer VLAN tag's TCI, if the frame has one. -/
def frameTci (l : List Byte) : Option Nat := if be16 l 12 = 0x8100 && 18 ≤ l.length then some (be16 l 14) else none

/-- A frame without its outer tag. -/
def untagged (l : List Byte) : List Byte := if (frameTci l).isSome then l.take 12 ++ l.drop 16 else l

/-- A frame that is stamped when ts_all is 0: EtherType 0x88F7, or UDP to port 319 or 320 (R321). -/
def frameTimed (l : List Byte) : Bool :=
  let u := untagged l
  let udp := fun (h : Nat) => be16 u (h + 2) = 319 || be16 u (h + 2) = 320
  be16 u 12 = 0x88F7 || (be16 u 12 = 0x0800 && byteAt u 23 = 17 && udp (14 + 4 * (byteAt u 14 % 16))) || (be16 u 12 = 0x86DD && byteAt u 20 = 17 && udp 54)

/-- MAC_CFG.max_len with its bounds. -/
def State.ethMax (s : State) (n : Nat) : Nat := max 64 (min 9204 (s.rd (Pg.eth n) ETH.MAC_CFG_max_len))

/-- The MAC runs in one of its modes (R310). -/
def State.ethRuns (s : State) (n : Nat) : Bool := let m := s.rd (Pg.eth n) ETH.MAC_CFG_mode; s.bayOn n && 1 ≤ m && m ≤ 4

/-- An address in a frame as a number, its first byte least significant (DESIGN CHOICE, log entry 34). -/
def macOf (l : List Byte) (i : Nat) : Nat := numAt l i 6

/-- A frame's destination is accepted (R312). -/
def State.ethAccepts (s : State) (n : Nat) (l : List Byte) : Bool :=
  let p := Pg.eth n
  let d := macOf l 0
  s.on p ETH.MAC_CFG_promisc || d = s.rd p ETH.MAC_ADDR_LO_mac_lo + 2 ^ 32 * s.rd p ETH.MAC_ADDR_HI_mac_hi || d = 2 ^ 48 - 1
    || (s.on p ETH.MAC_CFG_mc_all && byteAt l 0 % 2 = 1)

/-- A PAUSE frame (R312). -/
def isPause (l : List Byte) : Bool := be16 l 12 = 0x8808 && be16 l 14 = 1

/-- Whether the bay stamps a frame (R321). -/
def State.ethStamps (s : State) (n : Nat) (l : List Byte) : Bool :=
  s.on (Pg.eth n) ETH.TS_CFG_en && (s.on (Pg.eth n) ETH.TS_CFG_ts_all || frameTimed l)

/-! ### The receive FIFO and PAUSE (R312, R314) -/

/-- Bytes that a bay's MAC still holds: frames that wait for tokens, and cells that wait for the bay's Granary account. -/
def State.fifoFill (s : State) (n : Nat) : Nat :=
  sumNat ((s.sched.shaped.filter (fun x => x.src = n + 2 && x.cell.cls = clsE)).map (fun x => x.bytes.length))
    + sumNat ((s.gran.waiting.filter (fun w => w.src = n + 2 && w.buf.cell.cls = clsE)).map (fun w => w.buf.cell.payload.length))

def State.ethXoff (s : State) (n : Nat) : Nat := 1024 * s.rd1 (Pg.eth n) ETH.MAC_CFG_xoff_kib

/-- PAUSE leaves with some quanta. -/
def State.sendPause (s : State) (n q : Nat) : State := s.emit (.bay n "pause" [q])

/-- PAUSE is sent when the FIFO reaches xoff_kib, and ended when it falls below half of it (R312). -/
def State.pauseCheck (s : State) (n : Nat) : State :=
  let x := s.eth1 n
  let f := s.fifoFill n
  if !s.on (Pg.eth n) ETH.MAC_CFG_pause_tx then s
  else if !x.xoff && s.ethXoff n ≤ f then (s.setEth n { x with xoff := true }).sendPause n 0xFFFF
  else if x.xoff && 2 * f < s.ethXoff n then (s.setEth n { x with xoff := false }).sendPause n 0
  else s

/-- The fill of every bay's FIFO falls as its frames leave. -/
def State.pauseEnds (s : State) : State := s.each [0, 1, 2, 3] (fun s n => if s.ethRuns n && (s.eth1 n).xoff then s.pauseCheck n else s)

def State.pauseRepeat (s : State) (n : Nat) : State :=
  let x := s.eth1 n
  if !s.ethRuns n || !x.xoff || !s.on (Pg.eth n) ETH.MAC_CFG_pause_tx then s
  else if s.ethXoff n < s.fifoFill n then s.sendPause n 0xFFFF
  else s.pauseCheck n

def execPauseRepeat (n : Bay) (s : State) : Host.Outcome State Fault Refusal := s.run (fun s => s.pauseRepeat n.val)

/-! ### Frames toward the wire (R315, R320) -/

/-- The transmit timestamp event (R320). -/
def State.stampEvent (s : State) (n : Nat) (c : Cell) (stamp : Option Nat) : State :=
  s.bayEvent (n + 1) c.vhc c.gen
    ([0x43, 2] ++ leBytes 1 (byteAt c.payload 3) ++ [0] ++ leBytes 2 (numAt c.payload 6 2) ++ leBytes 1 (b2n stamp.isSome) ++ [0] ++ leBytes 8 (stamp.getD 0))

/-- A dequeued frame is padded, tagged and sent, or discarded. -/
def State.ethSend (s : State) (n : Nat) (good : Bool) (c : Cell) : State :=
  let p := Pg.eth n
  let flags := byteAt c.payload 2
  let req := flags % 2 = 1
  let l := (c.payload.drop 16).take (numAt c.payload 0 2)
  let l := l ++ List.replicate (60 - l.length) 0
  let l := if bitOf flags 1 = 1 then l.take 12 ++ ([0x81, 0x00, BitVec.ofNat 8 (byteAt c.payload 5), BitVec.ofNat 8 (byteAt c.payload 4)] ++ l.drop 12) else l
  let lost := fun (s : State) => if req then s.stampEvent n c none else s
  if !s.on p ETH.MAC_STAT_link then lost (s.bump p ETH.ETH_CNT1_tx_nolink 1)
  else if s.ethMax n < l.length + 4 then lost (s.bump p ETH.ETH_CNT2_tx_long 1)
  else
    let s := (s.bump p ETH.TX_FRAMES_tx_frames 1).emit (.frame n l good)
    if req then s.stampEvent n c (if s.ethStamps n l then some (s.chain.time - s.rd p ETH.TS_CFG_tx_adj_ns) else none) else s

def State.ethTx (s : State) (n : Nat) (good : Bool) (c : Cell) : State :=
  let x := s.eth1 n
  if !s.bayOn n then s
  else if x.paused then s.setEth n { x with hold := x.hold ++ [(good, c)] }
  else s.ethSend n good c

def execEthTxFrame (n : Bay) (good : Bool) (c : Cell) (s : State) : Host.Outcome State Fault Refusal := s.run (fun s => s.ethTx n.val good c)

/-- The MAC transmits again after a pause. -/
def State.pauseEnd (s : State) (n : Nat) : State :=
  let x := s.eth1 n
  if !x.paused then s
  else (((s.setEth n { x with paused := false, hold := [] }).each x.hold (fun s h => s.ethSend n h.1 h.2))).pauseCheck n

def execPauseTimerExpiry (n : Bay) (s : State) : Host.Outcome State Fault Refusal := s.run (fun s => s.pauseEnd n.val)

/-! ### Frames from the wire (R313, R314, R322) -/

/-- The E tunnel from a bay's NIC function to the head, with its half. -/
def State.nicUp (s : State) (n : Nat) : Option (Nat × Nat) :=
  let me := if s.mode = .head then 0 else s.addr
  (s.sched.tun.flatMap (fun e => ([0, 1].filter (fun h => let w := e.2.half h
    Tun.v w && Tun.cls w = clsE && Tun.shub w = me && Tun.sport w = n + 1 && Tun.dhub w = 0 && Tun.dport w = 8)).map (fun h => (e.1, h)))).head?

/-- The frame header (R313). -/
def frameHead (len b2 q tci idx stamp : Nat) : List Byte := leBytes 2 len ++ leBytes 1 b2 ++ leBytes 1 q ++ leBytes 2 tci ++ leBytes 2 idx ++ leBytes 8 stamp

/-- A packet leaves in an E tunnel of this bay. -/
def State.ethSource (s : State) (n t h : Nat) (bytes : List Byte) : State := match s.tunCell t h with
  | some c => s.source (n + 2) (s.portFor h) c bytes
  | none => s.noEntry

/-- The hairpin entry that a frame matches (R322). -/
def State.hairpin (s : State) (n : Nat) (l : List Byte) : Option Nat :=
  let p := Pg.eth n
  (List.range 8).find? (fun k =>
    s.on p (ETH.HP_HI_en k) && macOf l 0 = s.rd p (ETH.HP_LO_mac_lo k) + 2 ^ 32 * s.rd p (ETH.HP_HI_mac_hi k)
      && (!s.on p (ETH.HP_HI_vid_match k) || (match frameTci l with
        | some t => t % 4096 = s.rd p (ETH.HP_TUN_vid k)
        | none => false)))

/-- An accepted frame goes to the head, in aux_up; `nic` is the function's NIC_CFG as the bay knows it (log entry 35). -/
def State.frameUp (s : State) (n nic : Nat) (l : List Byte) (stamp : Option Nat) : State :=
  match s.nicUp n with
  | none => s
  | some (t, h) =>
    if !s.fnRuns n t then s
    else
      let strip := s.on (Pg.eth n) ETH.MAC_CFG_vlan_strip && (frameTci l).isSome
      let q := match frameTci l with
        | some w => bitsOf nic (2 * (w / 8192 % 8) + 17) (2 * (w / 8192 % 8) + 16)
        | none => nic % 4
      let d := if strip then untagged l else l
      s.ethSource n t h (frameHead d.length (b2n stamp.isSome + 2 * b2n strip) q (if strip then (frameTci l).getD 0 else 0) 0 (stamp.getD 0) ++ d)

/-- A frame goes into a hairpin tunnel: an E tunnel whose source is this bay. The header is the one toward a bay (log entry 36). -/
def State.frameAcross (s : State) (n t : Nat) (l : List Byte) : State :=
  let me := if s.mode = .head then 0 else s.addr
  let h := s.ownHalf t
  let w := s.half t h
  if !(Tun.v w && Tun.cls w = clsE && Tun.shub w = me && Tun.sport w = n + 1) then (s.bump (Pg.eth n) ETH.ETH_CNT2_hp_bad 1).raise (Pg.eth n) ETH.ev_hp_bad
  else
    let strip := s.on (Pg.eth n) ETH.MAC_CFG_vlan_strip && (frameTci l).isSome
    let d := if strip then untagged l else l
    s.ethSource n t h (frameHead d.length (2 * b2n strip) 0 (if strip then (frameTci l).getD 0 else 0) 0 0 ++ d)

/-- A frame arrives: `l` without its FCS, `fcs` whether that was good. -/
def State.ethRx (s : State) (n : Nat) (l : List Byte) (fcs : Bool) (nic : Nat) : State :=
  let p := Pg.eth n
  if !s.ethRuns n || !s.on p ETH.MAC_STAT_link then s
  else if 32768 < s.fifoFill n + l.length then (s.bump p ETH.ETH_CNT1_rx_ovf 1).raise p ETH.ev_rx_ovf
  else if !fcs || l.length + 4 < 64 || s.ethMax n < l.length + 4 then s.bump p ETH.ETH_CNT0_rx_fcs 1
  else if isPause l && s.on p ETH.MAC_CFG_pause_rx then
    let s := s.raise p ETH.ev_pause_rx
    if be16 l 16 = 0 then s.pauseEnd n else s.setEth n { s.eth1 n with paused := true }
  else if !s.ethAccepts n l then s.bump p ETH.ETH_CNT0_rx_filt 1
  else
    let s := s.bump p ETH.RX_FRAMES_rx_frames 1
    let stamp := if s.ethStamps n l then some (s.chain.time + s.rd p ETH.TS_CFG_rx_adj_ns) else none
    let s := match s.hairpin n l with
      | none => s.frameUp n nic l stamp
      | some k =>
        let s := s.frameAcross n (s.rd p (ETH.HP_TUN_tunnel k)) l
        if s.on p (ETH.HP_HI_copy k) then s.frameUp n nic l stamp else s
    s.pauseCheck n

def execEthRxFrame (n : Bay) (frame : List Byte) (fcs : Bool) (nic : Nat) (s : State) : Host.Outcome State Fault Refusal :=
  s.run (fun s => s.ethRx n.val frame fcs nic)

/-! ### The link and MDIO (R310, R311, R315) -/

/-- The PCS comes up; `an` says that auto-negotiation ended, `speed` what an SGMII partner's control word gives. -/
def State.ethUp (s : State) (n : Nat) (an : Bool) (speed : Nat) : State :=
  let p := Pg.eth n
  let m := s.rd p ETH.MAC_CFG_mode
  if !s.ethRuns n || s.on p ETH.MAC_STAT_link then s
  else
    let s := (s.wr p ETH.MAC_STAT_link 1).wr p ETH.MAC_STAT_speed (if m = 1 then min 2 speed else if m = 2 then 2 else 3)
    let s := if an && (m = 1 || (m = 2 && s.on p ETH.MAC_CFG_an_en)) then s.raise p ETH.ev_an_done else s
    s.raise p ETH.ev_link_up

def execEthLinkUp (n : Bay) (an : Bool) (speed : Fin 4) (s : State) : Host.Outcome State Fault Refusal := s.run (fun s => s.ethUp n.val an speed.val)

/-- The PCS drops; a frame in progress ends with its FCS inverted. -/
def State.ethDown (s : State) (n : Nat) (cut : Option (List Byte)) : State :=
  let p := Pg.eth n
  if !s.bayOn n || !s.on p ETH.MAC_STAT_link then s
  else
    let s := (s.wr p ETH.MAC_STAT_link 0).raise p ETH.ev_link_down
    match cut with
    | some l => ((s.bump p ETH.ETH_CNT2_tx_abort 1).raise p ETH.ev_tx_abort).emit (.frame n l false)
    | none => s

def execEthLinkDown (n : Bay) (cut : Option (List Byte)) (s : State) : Host.Outcome State Fault Refusal := s.run (fun s => s.ethDown n.val cut)

/-- MAC_CFG.mode is written (R310): the link of another mode is not this one's, and a MAC that is off neither pauses nor is paused (log entry 161). -/
def State.ethCfg (s : State) (n was : Nat) : State :=
  let m := s.rd (Pg.eth n) ETH.MAC_CFG_mode
  if m = was then s else if s.ethRuns n then s.ethDown n none else ((s.pauseEnd n).ethDown n none).setEth n {}

/-- A write of MDIO_CMD (R311). -/
def State.mdioCmd (s : State) (n w : Nat) : State :=
  let p := Pg.eth n
  if !s.alive p || s.on p ETH.MDIO_STAT_busy || bitOf w 31 = 0 then s
  else
    let s := (s.wr p ETH.MDIO_CMD_c45 (bitOf w 30)).wr p ETH.MDIO_CMD_op (bitsOf w 29 28)
    let s := ((s.wr p ETH.MDIO_CMD_phy (bitsOf w 25 21)).wr p ETH.MDIO_CMD_reg (bitsOf w 20 16)).wr p ETH.MDIO_CMD_data (bitsOf w 15 0)
    (s.wr p ETH.MDIO_STAT_busy 1).emit (.bay n "mdio" [bitOf w 30, bitsOf w 29 28, bitsOf w 25 21, bitsOf w 20 16, bitsOf w 15 0])

def execMdioCmd (n : Bay) (w : Nat) (s : State) : Host.Outcome State Fault Refusal := s.run (fun s => s.mdioCmd n.val w)

def State.mdioDone (s : State) (n data : Nat) : State :=
  let p := Pg.eth n
  if !s.alive p || !s.on p ETH.MDIO_STAT_busy then s
  else
    let s := s.wr p ETH.MDIO_STAT_busy 0
    if 2 ≤ s.rd p ETH.MDIO_CMD_op then s.wr p ETH.MDIO_STAT_data data else s

def execMdioDone (n : Bay) (data : Nat) (s : State) : Host.Outcome State Fault Refusal := s.run (fun s => s.mdioDone n.val data)

/-! ### NIC queue sets: TX (R317, R318) -/

def State.nicCtx (s : State) (k : Nat) : NicCtx := (Tab.find k s.nic).getD {}

def State.setNic (s : State) (k : Nat) (x : NicCtx) : State := { s with nic := Tab.put k x s.nic }

/-- log2 of a ring's descriptors: 4–12. -/
def ringLog (n : Nat) : Nat := if 4 ≤ n ∧ n ≤ 12 then n else 4

def State.txSize (s : State) (k q : Nat) : Nat := 2 ^ ringLog (s.rd (Pg.nic k) (NIC.TX_CFG_size q))
def State.rxSize (s : State) (k q : Nat) : Nat := 2 ^ ringLog (s.rd (Pg.nic k) (NIC.RX_CFG_size q))
def State.txBase (s : State) (k q : Nat) : Nat := 16 * s.rd (Pg.nic k) (NIC.TX_BASE_LO_base_lo q) + 2 ^ 32 * s.rd (Pg.nic k) (NIC.TX_BASE_HI_base_hi q)
def State.rxBase (s : State) (k q : Nat) : Nat := 16 * s.rd (Pg.nic k) (NIC.RX_BASE_LO_base_lo q) + 2 ^ 32 * s.rd (Pg.nic k) (NIC.RX_BASE_HI_base_hi q)

/-- The chain half of a function's tunnels: those of the head's own bays are looked up where they are. -/
def State.fnHalf (s : State) (v f : Nat) : Nat := let w := s.dirCfg v f; if dirHub w = 0 then s.sourceHalf (bitsOf (s.rd (Pg.vhc v) (VHC.DIR_AUX_aux f)) 27 16) v else dirChain w

/-- Frames of a ring have completed: its vector is signalled each irq_ivl frames (R319); rings are queue for TX, queue + 4 for RX. -/
def State.ringDone (s : State) (v f ring : Nat) : State :=
  let k := fnKey v f
  let p := Pg.nic k
  let rx := 4 ≤ ring
  let q := ring % 4
  let x := s.nicCtx k
  let n := (Tab.find ring x.quiet).getD 0 + 1
  let lim := 4 ^ s.rd p (if rx then NIC.RX_CFG_irq_ivl q else NIC.TX_CFG_irq_ivl q)
  if n < lim then s.setNic k { x with quiet := Tab.put ring n x.quiet }
  else (s.setNic k { x with quiet := Tab.del ring x.quiet }).fnSignal v f (s.rd p (if rx then NIC.RX_CFG_vector q else NIC.TX_CFG_vector q))

/-- TX descriptors are written back: bytes 0–7 the timestamp on the eop descriptor, the rest as fetched, then the flags (R317). -/
def State.txBack (s : State) (v f q first : Nat) (ds : List TxDesc) (stamp : Option Nat) (err : Bool) : State :=
  let k := fnKey v f
  let n := s.txSize k q
  let s := s.each (List.range ds.length) (fun s i =>
    let d := ds.getD i ⟨0, 0, 0, 0, none⟩
    let eop := i + 1 = ds.length
    let ts := if eop then stamp else none
    let word := 2 ^ 15 + b2n ts.isSome * 2 ^ 14 + b2n err * 2 ^ 13
    s.emit (.hostWrite (v + 1) (s.txBase k q + 16 * ((first + i) % n)) (leBytes 8 (ts.getD 0) ++ leBytes 2 d.len ++ leBytes 1 d.flags ++ [0] ++ leBytes 2 d.tci ++ leBytes 2 word)))
  s.ringDone v f q

/-- The descriptors up to the next eop, if the ring holds one. -/
def frameDescs (l : List TxDesc) : Option (List TxDesc × List TxDesc) := match l.findIdx? (fun d => d.flags % 2 = 1) with
  | some i => some (l.take (i + 1), l.drop (i + 1))
  | none => none

/-- Cells of a tunnel that the head sources wait for the head's Granary. -/
def State.cellsWait (s : State) (t : Nat) : Bool := s.gran.waiting.any (fun w => w.src = 7 && w.buf.cell.tunnel = t)

/-- Frames whose last cell has entered the Granary by now are written back (R318). -/
def State.txEntered (s : State) (v f : Nat) : State :=
  let x := s.nicCtx (fnKey v f)
  if x.back.isEmpty || s.cellsWait (bitsOf (s.rd (Pg.vhc v) (VHC.DIR_AUX_aux f)) 27 16) then s
  else (s.setNic (fnKey v f) { x with back := [] }).each x.back (fun s w => s.txBack v f w.q w.first w.descs none false)

/-- One frame of a TX ring is fetched and sent in aux_dn, or written back with err. -/
def State.txFrame (s : State) (v f q : Nat) (ds rest : List TxDesc) : State :=
  let k := fnKey v f
  let p := Pg.nic k
  let x := s.nicCtx k
  let first := s.rd p (NIC.TX_HEAD_head q)
  let s := s.setNic k { x with tx := Tab.put q rest x.tx, last := q }
  let s := s.wr p (NIC.TX_HEAD_head q) ((first + ds.length) % s.txSize k q)
  let s := s.each ds (fun s d => s.emit (.hostRead (v + 1) d.addr d.len 0))
  let bytes := ds.flatMap (fun d => d.data.getD [])
  let e := ds.getLastD ⟨0, 0, 0, 0, none⟩
  let h := s.fnHalf v f
  if ds.any (fun d => d.data.isNone) || 9200 < bytes.length then (s.bump p (NIC.TX_CNT_drops q) 1).txBack v f q first ds none true
  else match s.tunCell (bitsOf (s.rd (Pg.vhc v) (VHC.DIR_AUX_aux f)) 27 16) h with
    | none => s.noEntry
    | some c =>
      let s := s.bump p (NIC.TX_CNT_frames q) 1
      let req := bitOf e.flags 1
      let s := s.source 7 (s.portFor h) c (frameHead bytes.length (req + 2 * bitOf e.flags 2) q e.tci ((first + ds.length - 1) % s.txSize k q) 0 ++ bytes)
      if req = 1 then s.setNic k { s.nicCtx k with wait := (s.nicCtx k).wait ++ [⟨q, first, ds.length, ds⟩] }
      else if s.cellsWait c.tunnel then s.setNic k { s.nicCtx k with back := (s.nicCtx k).back ++ [⟨q, first, ds.length, ds⟩] }
      else s.txBack v f q first ds none false

/-- A function's rings are served in round robin while the shaper of aux_dn holds a token; structural on the fuel. -/
def nicServe (v f : Nat) : Nat → State → State
  | 0, s => s
  | fuel + 1, s =>
    let k := fnKey v f
    let x := s.nicCtx k
    let t := bitsOf (s.rd (Pg.vhc v) (VHC.DIR_AUX_aux f)) 27 16
    if s.tokensOf t < tokenUnit || s.sched.shaped.any (fun y => y.cell.tunnel = t) || s.vState v != Machine.vActive then s
    else
      let order := (List.range 4).map (fun i => (x.last + 1 + i) % 4)
      match order.find? (fun q => s.on (Pg.nic k) (NIC.TX_CFG_en q) && (frameDescs ((Tab.find q x.tx).getD [])).isSome) with
      | none => s
      | some q => match frameDescs ((Tab.find q x.tx).getD []) with
        | none => s
        | some (ds, rest) => nicServe v f fuel (s.txFrame v f q ds rest)

/-- Every NIC function takes up what its tokens allow. -/
def State.nicPump (s : State) : State :=
  s.each s.nic (fun s x => nicServe (x.1 / 16) (x.1 % 16) (sumNat (x.2.tx.map (fun q => q.2.length))) (s.txEntered (x.1 / 16) (x.1 % 16)))

def txDescOf (b : List Byte) (d : Option (List Byte)) : TxDesc :=
  ⟨numAt b 0 8, numAt b 8 2, byteAt b 10, numAt b 12 2, d.map (fun l => l.take (numAt b 8 2))⟩

/-- A TX tail is written; `descs` are the ring's descriptors from the old tail on, each with its buffer's bytes, none where its fetch will fail. -/
def State.txTail (s : State) (v f q tail : Nat) (descs : List (List Byte × Option (List Byte))) : State :=
  if !s.apertureOn v f 2 then s.urWrite v
  else
    let k := fnKey v f
    let p := Pg.nic k
    let n := s.txSize k q
    let old := s.rd p (NIC.TX_TAIL_tail q) % n
    let s := s.wr p (NIC.TX_TAIL_tail q) tail
    if !s.on p (NIC.TX_CFG_en q) then s
    else
      let cnt := (tail % n + n - old) % n
      let s := s.each (List.range cnt) (fun s i => s.emit (.hostRead (v + 1) (s.txBase k q + 16 * ((old + i) % n)) 16 0))
      let x := s.nicCtx k
      let new := (descs.take cnt).map (fun d => txDescOf d.1 d.2)
      let all := (Tab.find q x.tx).getD [] ++ new
      nicServe v f (sumNat (x.tx.map (fun e => e.2.length)) + new.length) (s.setNic k { x with tx := Tab.put q all x.tx })

def execNicTxTailWrite (v : Vhc) (f : Fin 16) (q : Fin 4) (tail : Nat) (descs : List (List Byte × Option (List Byte))) (s : State) : Host.Outcome State Fault Refusal :=
  s.run (fun s => s.txTail v.val f.val q.val (tail % 4096) descs)

/-- A TX frame that waited is written back. -/
def State.txStamped (s : State) (v f q idx : Nat) (stamp : Option Nat) : State :=
  let k := fnKey v f
  let x := s.nicCtx k
  let n := s.txSize k q
  match x.wait.find? (fun w => w.q = q && (w.first + w.n - 1) % n = idx) with
  | none => s
  | some w => (s.setNic k { x with wait := x.wait.filter (fun y => !(y.q = q && (y.first + y.n - 1) % n = idx)) }).txBack v f q w.first w.descs stamp false

/-- A transmit timestamp event at the head (R320). -/
def State.stampIn (s : State) (p : Port) (c : Cell) : State :=
  if s.mode != .head || byteAt c.payload 0 != 0x43 then s
  else if c.gen != s.vGen c.vhc || s.vState c.vhc = vFree || s.vState c.vhc = vDisabled then s.evDropped
  else match s.evEntry c.vhc (chainOf p) c.shub c.sport 2 with
    | none => s.evDropped
    | some f => s.txStamped c.vhc f (byteAt c.payload 2 % 4) (numAt c.payload 4 2) (if byteAt c.payload 6 % 2 = 1 then some (numAt c.payload 8 8) else none)

def execTimestampEventRx (p : Port) (c : Cell) (s : State) : Host.Outcome State Fault Refusal := s.run (fun s => s.msgIn p c (fun s => s.stampIn p c))

def execTimestampTimeout (v : Vhc) (f : Fin 16) (q : Fin 4) (idx : Nat) (s : State) : Host.Outcome State Fault Refusal :=
  s.run (fun s => s.txStamped v.val f.val q.val idx none)

/-! ### NIC queue sets: RX (R319) -/

/-- The VHC and entry of a NIC function whose aux_up is a tunnel on a chain. -/
def State.nicFn (s : State) (ch tunnel : Nat) : Option (Nat × Nat) :=
  ((List.range 64).flatMap (fun v => (List.range 16).map (fun f => (v, f)))).find? (fun x =>
    let w := s.dirCfg x.1 x.2
    dirV w && dirKind w = 2 && (dirHub w = 0 || dirChain w = ch) && bitsOf (s.rd (Pg.vhc x.1) (VHC.DIR_AUX_aux x.2)) 11 0 = tunnel && tunnel != 0)

/-- RX buffer bytes. -/
def State.rxBuf (s : State) (k q : Nat) : Nat := 1024 * max 1 (min 16 (s.rd (Pg.nic k) (NIC.RX_CFG_buf q)))

/-- A frame is placed into a ring: data first, then the descriptors, the eop one last; `bufs` are the buffer addresses that the ring's descriptors hold from its head on. -/
def State.rxPlace (s : State) (v f q : Nat) (c : Cell) (bufs : List Nat) : State :=
  let k := fnKey v f
  let p := Pg.nic k
  let l := (c.payload.drop 16).take (numAt c.payload 0 2)
  let size := s.rxBuf k q
  let n := s.rxSize k q
  let need := max 1 (ceilDiv l.length size)
  let head := s.rd p (NIC.RX_HEAD_head q) % n
  let free := (s.rd p (NIC.RX_TAIL_tail q) % n + n - head) % n
  if !s.on p (NIC.RX_CFG_en q) || free < need then s.bump p (NIC.RX_CNT_drops q) 1
  else
    let s := s.each (List.range need) (fun s i => s.emit (.hostRead (v + 1) (s.rxBase k q + 16 * ((head + i) % n)) 16 0))
    let s := s.each (List.range need) (fun s i => s.emit (.hostWrite (v + 1) (bufs.getD i 0) ((l.drop (size * i)).take size)))
    let flags := byteAt c.payload 2
    let s := s.each (List.range need) (fun s i =>
      let eop := i + 1 = need
      let len := ((l.drop (size * i)).take size).length
      s.emit (.hostWrite (v + 1) (s.rxBase k q + 16 * ((head + i) % n))
        (leBytes 8 (if eop && flags % 2 = 1 then numAt c.payload 8 8 else 0) ++ leBytes 2 len ++ leBytes 2 (if eop then numAt c.payload 4 2 else 0)
          ++ leBytes 1 (if eop then 1 + 2 * (flags % 4) else 0) ++ [0] ++ leBytes 2 (2 ^ 15))))
    let s := (s.wr p (NIC.RX_HEAD_head q) ((head + need) % n)).bump p (NIC.RX_CNT_frames q) 1
    s.ringDone v f (4 + q)

/-- A received frame at the head; one that is spoiled is discarded. -/
def State.nicRx (s : State) (p : Port) (good : Bool) (c : Cell) (bufs : List Nat) : State :=
  if s.mode != .head then s
  else match s.nicFn (chainOf p) c.tunnel with
    | none => s
    | some (v, f) =>
      let q := byteAt c.payload 3 % 4
      if c.gen != s.vGen v || s.vState v != Machine.vActive then s
      else if !good then s.bump (Pg.nic (fnKey v f)) (NIC.RX_CNT_drops q) 1
      else s.rxPlace v f q c bufs

def execNicFrameRx (p : Port) (good : Bool) (c : Cell) (bufs : List Nat) (s : State) : Host.Outcome State Fault Refusal := s.run (fun s => s.nicRx p good c bufs)

/-- 50 µs after the first unsignalled frame (R319). -/
def State.rxIrq (s : State) (v f q : Nat) : State :=
  let k := fnKey v f
  let x := s.nicCtx k
  if (Tab.find (4 + q) x.quiet).getD 0 = 0 then s
  else (s.setNic k { x with quiet := Tab.del (4 + q) x.quiet }).fnSignal v f (s.rd (Pg.nic k) (NIC.RX_CFG_vector q))

def execRxIrqTimer (v : Vhc) (f : Fin 16) (q : Fin 4) (s : State) : Host.Outcome State Fault Refusal := s.run (fun s => s.rxIrq v.val f.val q.val)

/-! ### Ring registers (R329) -/

/-- BASE_LO (0), BASE_HI (1) or CFG (2) of a ring is written: only while en = 0, or to clear en; setting en clears the ring's head. -/
def State.ringCfg (s : State) (v f : Nat) (rx : Bool) (q r w : Nat) : State :=
  if !s.apertureOn v f 2 then s.urWrite v
  else
    let k := fnKey v f
    let p := Pg.nic k
    let en := if rx then NIC.RX_CFG_en q else NIC.TX_CFG_en q
    let was := s.on p en
    if was && !(r = 2 && bitOf w 31 = 0) then s
    else if r = 0 then s.wr p (if rx then NIC.RX_BASE_LO_base_lo q else NIC.TX_BASE_LO_base_lo q) (bitsOf w 31 4)
    else if r = 1 then s.wr p (if rx then NIC.RX_BASE_HI_base_hi q else NIC.TX_BASE_HI_base_hi q) w
    else
      let s := (s.wr p en (bitOf w 31)).wr p (if rx then NIC.RX_CFG_size q else NIC.TX_CFG_size q) (bitsOf w 19 16)
      let s := if rx then s.wr p (NIC.RX_CFG_buf q) (bitsOf w 12 8) else s
      let s := (s.wr p (if rx then NIC.RX_CFG_irq_ivl q else NIC.TX_CFG_irq_ivl q) (bitsOf w 7 6)).wr p (if rx then NIC.RX_CFG_vector q else NIC.TX_CFG_vector q) (bitsOf w 5 0)
      if !was && bitOf w 31 = 1 then
        let s := s.wr p (if rx then NIC.RX_HEAD_head q else NIC.TX_HEAD_head q) 0
        if rx then s else let x := s.nicCtx k; s.setNic k { x with tx := Tab.del q x.tx }
      else s

def execNicRingCfgWrite (v : Vhc) (f : Fin 16) (rx : Bool) (q : Fin 4) (r : Fin 3) (w : Nat) (s : State) : Host.Outcome State Fault Refusal :=
  s.run (fun s => s.ringCfg v.val f.val rx q.val r.val w)

/-- A NIC function starts from reset: its registers, its rings. -/
def State.resetNic (s : State) (v f : Nat) : State :=
  let k := fnKey v f
  let lo := Pg.nic k * 4096 * 32
  { s with nic := Tab.del k s.nic, regs := s.regs.filter (fun e => e.1 < lo || lo + 4096 * 32 ≤ e.1) }

end Sys2Proof.Machine
end

