-- ==== Sys2Proof/Machine/Pcie.lean ====
section
/-!
DEFINITION. Sys2Proof/Machine/Pcie.lean: the PCIe root ports of a hub's bays (R323–R328, R331).
-/
namespace Sys2Proof.Machine

open Sys2Proof

def State.pcx (s : State) (n : Nat) : PcieCtx := (Tab.find n s.pcie).getD {}

def State.setPcx (s : State) (n : Nat) (x : PcieCtx) : State := { s with pcie := Tab.put n x s.pcie }

/-- The bay has a working root port (R323). -/
def State.pcieThere (s : State) (n : Nat) : Bool := s.mode = .hub && s.bayOn n

/-! ### Answers toward the head (R325, R326) -/

/-- The device's answer to a request: a non-posted one completes toward the head; a posted one that failed is logged and reported (R197). -/
def State.devAnswer (s : State) (o : DevOut) (st cause : Nat) (data : List Byte) : State :=
  if !o.req.posted then s.replyT (s.chainIn o.port) o.req st 0 data
  else if st = stSC then s
  else s.erlFail cause o.req

def State.dropDev (s : State) (n id : Nat) : State :=
  let x := s.pcx n
  s.setPcx n { x with outs := x.outs.filter (fun o => o.id != id) }

def State.findDev (s : State) (n id : Nat) : Option DevOut := (s.pcx n).outs.find? (fun o => o.id = id)

/-- A request leaves toward the device. -/
def State.devEmit (s : State) (n : Nat) (o : DevOut) : State :=
  s.emit (.bay n (if o.cfg then "config" else "memory") (o.id :: o.req.op :: o.req.addr :: o.req.count :: o.req.data.map BitVec.toNat))

/-! ### PERST_N, the clock and the link (R324, R328) -/

/-- The LTSSM state that the link reports: the spec gives no codes (a free value). -/
def State.ltssm (s : State) (n : Nat) : State :=
  let (v, s) := s.draw 6
  s.wr (Pg.pcie n) PCIE.PCIE_STAT_ltssm v

/-- The link is down. -/
def State.pcieLow (s : State) (n : Nat) : State :=
  let p := Pg.pcie n
  ((((s.wr p PCIE.PCIE_STAT_link_up 0).wr p PCIE.PCIE_STAT_gen 0).wr p PCIE.PCIE_STAT_width 0).wr p PCIE.PCIE_STAT_bar_fit 0).ltssm n

def State.perst (s : State) (n : Nat) (v : Bool) : State := (s.setPcx n { s.pcx n with perst := v, wait := false }).emit (.bay n "perst" [b2n v])

/-- PERST_N is asserted; the link goes down by it. -/
def State.perstHold (s : State) (n : Nat) : State :=
  let s := if (s.pcx n).perst then s.setPcx n { s.pcx n with wait := false, retrain := false } else (s.perst n true)
  let s := s.setPcx n { s.pcx n with retrain := false, bars := [], ones := [] }
  if s.on (Pg.pcie n) PCIE.PCIE_STAT_link_up then s.pcieLow n else s

/-- The start at a bay enable with PCIE_CFG.en = 1: the clock runs, PERST_N is released 100 ms later. -/
def State.pcieStart (s : State) (n : Nat) : State :=
  if !s.pcieThere n || !s.on (Pg.pcie n) PCIE.PCIE_CFG_en then s
  else (s.setPcx n { s.pcx n with clock := true, wait := true }).emit (.bay n "refclk" [1])

/-- PCIE_CFG has been written: en starts or stops the port (DEDUCED, log entry 40). -/
def State.pcieCfg (s : State) (n : Nat) : State :=
  let en := s.on (Pg.pcie n) PCIE.PCIE_CFG_en
  if en && !(s.pcx n).clock then s.pcieStart n
  else if !en && (s.pcx n).clock then let s := s.perstHold n; (s.setPcx n { s.pcx n with clock := false }).emit (.bay n "refclk" [0])
  else s

/-- 100 ms after the clock's start. -/
def State.perstRelease (s : State) (n : Nat) : State :=
  let x := s.pcx n
  if !s.pcieThere n || !x.wait then s
  else if s.on (Pg.pcie n) PCIE.PCIE_CTL_perst then s.setPcx n { x with wait := false }
  else s.perst n false

def execPerstRelease (n : Bay) (s : State) : Host.Outcome State Fault Refusal := s.run (fun s => s.perstRelease n.val)

def State.perstWrite (s : State) (n : Nat) (v : Bool) : State :=
  if !s.pcieThere n then s
  else
    let s := s.wr (Pg.pcie n) PCIE.PCIE_CTL_perst (b2n v)
    let x := s.pcx n
    if v then s.perstHold n
    else if x.clock && !x.wait && x.perst then s.perst n false
    else s

def execPciePerstWrite (n : Bay) (v : Bool) (s : State) : Host.Outcome State Fault Refusal := s.run (fun s => s.perstWrite n.val v)

/-- BARs packed in their order from 0x4000_0000, each aligned to its size, within 2 MiB; an I/O BAR (bit 0) and what does not fit get nothing. -/
def packBars : Nat → List (Nat × Nat) → List (Nat × Nat × Nat)
  | _, [] => []
  | at_, (size, low) :: t =>
    let a := ceilDiv at_ (max 1 size) * max 1 size
    if size = 0 || low % 2 = 1 || 0x40200000 < a + size then (size, low, 0) :: packBars at_ t else (size, low, a) :: packBars (a + size) t

/-- The link comes up; the device's BARs, as size and low four bits, are assigned. -/
def State.pcieUp (s : State) (n gen width : Nat) (bars : List (Nat × Nat)) : State :=
  let p := Pg.pcie n
  let x := s.pcx n
  if !s.pcieThere n || !x.clock || x.perst || s.on p PCIE.PCIE_STAT_link_up then s
  else
    let bs := packBars 0x40000000 (bars.take 6)
    let fit := bs.all (fun b => b.1 = 0 || b.2.2 != 0)
    let s := s.setPcx n { x with bars := bs, ones := [], retrain := false }
    let s := (s.wr p PCIE.PCIE_STAT_link_up 1).wr p PCIE.PCIE_STAT_gen (max 1 (min gen (s.rd p PCIE.PCIE_CFG_max_gen + 1)))
    let s := ((s.wr p PCIE.PCIE_STAT_width (max 1 (min width (s.rd p PCIE.PCIE_CFG_max_width + 1)))).ltssm n).wr p PCIE.PCIE_STAT_bar_fit (b2n fit)
    let s := s.raise p PCIE.ev_link_up
    if fit then s else s.raise p PCIE.ev_bar_fail

def execPcieLinkUp (n : Bay) (gen width : Nat) (bars : List (Nat × Nat)) (s : State) : Host.Outcome State Fault Refusal := s.run (fun s => s.pcieUp n.val gen width bars)

/-- The device's own reads end without the trunk's answer; their tags rest (R188, DEDUCED, log entry 41). -/
def State.devReadsEnd (s : State) (n : Nat) : State :=
  let own := s.xbr.outst.filter (fun o => o.init = 1 + n)
  let s : State := { s with xbr := { s.xbr with
    outst := s.xbr.outst.filter (fun o => o.init != 1 + n), waitl := s.xbr.waitl.filter (fun o => o.init != 1 + n),
    quar := s.xbr.quar ++ own.map (fun o => { init := 1 + n, vhc := o.req.vhc, tag := o.req.tag }) } }
  s.each own (fun s o => s.finish o stCA [])

/-- The link goes down other than by PERST_N (R328). -/
def State.pcieDown (s : State) (n : Nat) : State :=
  let p := Pg.pcie n
  if !s.on p PCIE.PCIE_STAT_link_up then s
  else
    let outs := (s.pcx n).outs
    let s := ((s.pcieLow n).bump p PCIE.PCIE_CNT2_downs 1).raise p PCIE.ev_link_down
    let s := s.setPcx n { s.pcx n with retrain := true, outs := [] }
    let s := s.each outs (fun s o => s.devAnswer o stCA erCa [])
    s.devReadsEnd n

def execPcieLinkDown (n : Bay) (s : State) : Host.Outcome State Fault Refusal := s.run (fun s => s.pcieDown n.val)

/-- The link trains. -/
def State.pcieTrain (s : State) (n : Nat) : State := (s.setPcx n { s.pcx n with retrain := false }).emit (.bay n "pcie train" [])

def execPcieRetrainTimer (n : Bay) (s : State) : Host.Outcome State Fault Refusal :=
  s.run (fun s => if s.pcieThere n.val && (s.pcx n.val).retrain then s.pcieTrain n.val else s)

def execPcieHotReset (n : Bay) (s : State) : Host.Outcome State Fault Refusal :=
  s.run (fun s => if s.pcieThere n.val && s.on (Pg.pcie n.val) PCIE.PCIE_STAT_link_up then s.emit (.bay n.val "pcie hot reset" []) else s)

def execPcieRetrain (n : Bay) (s : State) : Host.Outcome State Fault Refusal :=
  s.run (fun s => if s.pcieThere n.val && (s.pcx n.val).clock && !(s.pcx n.val).perst then s.pcieTrain n.val else s)

/-! ### Requests toward the device (R325, R326) -/

/-- A request is handed to the device; a write-confirmed memory write is complete once it has gone. -/
def State.devIssue (s : State) (n : Nat) (p : Port) (r : TReq) (cfg : Bool) : State :=
  let x := s.pcx n
  let o : DevOut := { id := x.next, port := p, req := r, cfg := cfg }
  let s := (s.setPcx n { x with next := x.next + 1 }).devEmit n o
  if !cfg && r.op = opMemWr then s.devAnswer o stSC 0 []
  else s.setPcx n { s.pcx n with outs := (s.pcx n).outs ++ [o] }

/-- The bytes that a BAR register reads: the assigned value, or the size mask after a write of all ones; the word above a 64-bit BAR is its upper half. -/
def PcieCtx.barWord (x : PcieCtx) (k : Nat) : Nat :=
  let b := x.bars.getD k (0, 0, 0)
  let upper := 0 < k && (x.bars.getD (k - 1) (0, 0, 0)).2.1 / 2 % 4 = 2 && (x.bars.getD (k - 1) (0, 0, 0)).2.1 % 2 = 0
  if x.ones.contains k then (if upper then 2 ^ 32 - 1 else if b.1 = 0 then 0 else 2 ^ 32 - b.1 % 2 ^ 32 + b.2.1)
  else if b.1 = 0 then 0 else b.2.2 + b.2.1

/-- A configuration access to a BAR register of the device is served at the port. -/
def State.barAccess (s : State) (n : Nat) (p : Port) (r : TReq) (write : Bool) : State :=
  let x := s.pcx n
  let k := (r.addr % 4096 - 0x10) / 4
  let o : DevOut := { id := 0, port := p, req := r, cfg := true }
  if write then
    let all := r.count = 4 && r.data = [0xFF, 0xFF, 0xFF, 0xFF]
    (s.setPcx n { x with ones := if all then (if x.ones.contains k then x.ones else x.ones ++ [k]) else x.ones.filter (· != k) }).devAnswer o stSC 0 []
  else s.devAnswer o stSC 0 (((leBytes 4 (x.barWord k)).drop (r.addr % 4)).take r.count)

/-- A request of a passthrough aperture for the device: configuration space, or device memory at its bus address (R325); while the link is down it ends as those that a link
down meets (DESIGN CHOICE, log entry 42). -/
def State.pcieReq (s : State) (n : Nat) (p : Port) (r : TReq) : State :=
  let cfgOp := r.op = opCfgRd || r.op = opCfgWr
  let cfg := cfgOp || r.addr < 0x1000
  let o : DevOut := { id := 0, port := p, req := r, cfg := cfg }
  let bar := 0x10 ≤ r.addr % 4096 && r.addr % 4096 < 0x28 && (!cfgOp || r.addr < 0x1000)
  if cfg && (r.count = 0 || 4 < r.addr % 4 + r.count) then s.devAnswer o stUR erUr []
  else if !s.on (Pg.pcie n) PCIE.PCIE_STAT_link_up then s.devAnswer o stCA erCa []
  else if cfg && bar then s.barAccess n p r (r.op = opMemWr || r.op = opCfgWr)
  else s.devIssue n p (if cfg then r else { r with addr := r.addr - 0x200000 + 0x40000000 }) cfg

/-- The device completes a request; CRS of a configuration request makes it wait for its next issue. -/
def State.devComplete (s : State) (n id st : Nat) (data : List Byte) : State := match s.findDev n id with
  | none => s
  | some o =>
    if o.crs then s
    else if o.cfg && st = stCRS then
      let x := s.pcx n
      s.setPcx n { x with outs := x.outs.map (fun y => if y.id = id then { y with crs := true } else y) }
    else (s.dropDev n id).devAnswer o st (if st = stCRS then erDevice else if st = stUR then erUr else erCa) (if st = stSC && o.req.reads then data.take o.req.count else [])

def execDeviceCompletionRx (n : Bay) (id : Nat) (st : Fin 4) (data : List Byte) (s : State) : Host.Outcome State Fault Refusal :=
  s.run (fun s => s.devComplete n.val id st.val data)

/-- 1 ms after a CRS: the request is issued again, or, dev_cto_ms after its first issue, ends with CRS. -/
def State.crsRetry (s : State) (n id : Nat) (expired : Bool) : State := match s.findDev n id with
  | none => s
  | some o =>
    if !o.crs then s
    else if expired then (s.dropDev n id).devAnswer o stCRS erDevice []
    else
      let x := s.pcx n
      (s.setPcx n { x with outs := x.outs.map (fun y => if y.id = id then { y with crs := false } else y) }).devEmit n o

def execConfigCrsRetry (n : Bay) (id : Nat) (expired : Bool) (s : State) : Host.Outcome State Fault Refusal := s.run (fun s => s.crsRetry n.val id expired)

/-- dev_cto_ms has passed without the device's completion (R326). -/
def State.devTimeout (s : State) (n id : Nat) : State := match s.findDev n id with
  | none => s
  | some o =>
    let p := Pg.pcie n
    let s := ((s.dropDev n id).bump p PCIE.PCIE_CNT0_cto 1).raise p PCIE.ev_dev_err
    if o.req.posted then s.erlFail erDevice o.req else (s.erlLog erDevice o.req).devAnswer o stCA 0 []

def execDeviceCompletionTimeout (n : Bay) (id : Nat) (s : State) : Host.Outcome State Fault Refusal := s.run (fun s => s.devTimeout n.val id)

/-! ### Requests of the device (R327, R328) -/

/-- MSG_BASE. -/
def State.msgBase (s : State) (n : Nat) : Nat := 256 * s.rd (Pg.pcie n) PCIE.MSG_BASE_LO_base_lo + 2 ^ 32 * s.rd (Pg.pcie n) PCIE.MSG_BASE_HI_base_hi

/-- A request or a message of the device, of a function that runs; `t` is its T tunnel toward the head. -/
def State.devServe (s : State) (n t : Nat) (r : DevReq) : State :=
  let v := s.fnVhc t
  let send := fun (s : State) (q : TReq) (tag : Nat) => s.issue { init := 1 + n, req := { q with tunnel := t, vhc := v, gen := s.genFor v }, chain := s.ownHalf t, slot := tag }
  match r with
  | .read addr len tag => s.each (List.range (ceilDiv len 4096)) (fun s i => send s { op := opMemRd, count := min 4096 (len - 4096 * i), addr := addr + 4096 * i } tag)
  | .write addr d =>
    if s.msgBase n ≤ addr && addr < s.msgBase n + 256 then s.bayIrq 3 n v ((addr - s.msgBase n) / 4) t
    else
      let ps := chunks 512 (d.length / 512 + 1) d
      s.each (List.range ps.length) (fun s i => let b := ps.getD i []; if b = [] then s else send s { op := opMemWr, count := b.length, addr := addr + 512 * i, data := b } 0)
  | .intx => s.bayIrq 3 n v 0 t
  | .errCor => s
  | .errNonfatal => s
  | .errFatal => s

/-- An error message of the device is counted, logged with cause DEVICE and reported. -/
def State.devError (s : State) (n t : Nat) (f : Fld) : State :=
  let p := Pg.pcie n
  let w := s.ownWord t
  let v := s.fnVhc t
  ((s.bump p f 1).raise p PCIE.ev_dev_err).erlFail erDevice { op := opMsg, tunnel := t, shub := Tun.shub w, sport := Tun.sport w, dport := Tun.dport w, vhc := v, gen := s.genFor v }

/-- What a parked function does with the device's requests: reads get UR, the rest is discarded (R328). -/
def State.devParked (s : State) (n : Nat) (r : DevReq) : State :=
  let p := Pg.pcie n
  let s := (s.bump p PCIE.PCIE_CNT0_park_drop 1).raise p PCIE.ev_park_drop
  match r with
  | .read addr _ tag => s.emit (.bay n "device completion" [addr, tag, stUR])
  | _ => s

/-- Something comes from the device. -/
def State.devIn (s : State) (n t : Nat) (r : DevReq) : State :=
  let v := s.fnVhc t
  if !s.pcieThere n || !s.on (Pg.pcie n) PCIE.PCIE_STAT_link_up || !Tun.v (s.ownWord t) then s
  else match r with
    | .errCor => s.devError n t PCIE.PCIE_CNT1_err_cor
    | .errNonfatal => s.devError n t PCIE.PCIE_CNT1_err_nonfatal
    | .errFatal => s.devError n t PCIE.PCIE_CNT1_err_fatal
    | _ =>
      if s.fns.parked.contains v then s.devParked n r
      else if s.fns.frozen.contains v then let x := s.pcx n; s.setPcx n { x with held := x.held ++ [(t, r)] }
      else s.devServe n t r

def execDeviceMemoryRequest (n : Bay) (t : Nat) (r : DevReq) (s : State) : Host.Outcome State Fault Refusal := s.run (fun s => s.devIn n.val t r)

/-- What was held while a VHC's functions were stopped goes on (R227). -/
def State.devThaw (s : State) (v : Nat) : State :=
  s.each (List.range 4) (fun s n =>
    let x := s.pcx n
    let mine := x.held.filter (fun h => s.fnVhc h.1 = v)
    if mine.isEmpty then s
    else (s.setPcx n { x with held := x.held.filter (fun h => s.fnVhc h.1 != v) }).each mine (fun s h => s.devIn n h.1 h.2))

end Sys2Proof.Machine
end

