-- ==== Sys2Proof/Machine/Svc.lean ====
section
/-!
DEFINITION. Sys2Proof/Machine/Svc.lean: the service port's device function (R304–R307): connection, bus reset, suspend, the standard requests and the descriptors.
-/
namespace Sys2Proof.Machine

open Sys2Proof

/-- The attach condition (R305). Without the companion die the U2 balls are high impedance (R485). -/
def State.svcCond (s : State) : Bool :=
  s.pw.on && s.on Pg.svc SVC.SVC_CFG_en && (s.rd Pg.svc SVC.SVC_CFG_attach_src = 0 || (s.on (Pg.trk .tu) TRK.TTC_STAT_attached && s.rd (Pg.trk .tu) TRK.TTC_STAT_partner_term = 2))

/-- Something is told to engine E15 or answered on the bus. -/
def State.svcNote (s : State) (what : String) (args : List Nat) : State := s.emit (.note what args)

def State.svcAttach (s : State) : State :=
  if s.svc.up || !s.svcCond then s
  else (({ s with svc := { up := true } } : State).wr Pg.svc SVC.SVC_STAT_state 1).raise Pg.svc SVC.ev_attach |>.emit (.pin "SVC_PULLUP" 1)

def execSvcAttach (s : State) : Host.Outcome State Fault Refusal := s.run State.svcAttach

/-- The pull-up is removed (R305). -/
def State.svcDown (s : State) : State :=
  if !s.svc.up then s
  else
    let s := ((s.wr Pg.svc SVC.SVC_STAT_state 0).wr Pg.svc SVC.SVC_STAT_suspended 0).wr Pg.svc SVC.SVC_STAT_address 0
    let s := (s.wr Pg.svc SVC.SVC_STAT_speed 0).raise Pg.svc SVC.ev_detach
    (({ s with svc := {} } : State).svcNote "svc detach" []).emit (.pin "SVC_PULLUP" 0)

def execSvcDetach (s : State) : Host.Outcome State Fault Refusal := s.run (fun s => if s.svcCond then s else s.svcDown)

/-- A bus reset (R307). -/
def State.svcReset (s : State) (hs : Bool) : State :=
  if !s.svc.up then s
  else
    let s := (s.bump Pg.svc SVC.SVC_CNT_resets 1).raise Pg.svc SVC.ev_bus_reset
    let s := if s.svc.ctl.isSome then ((s.bump Pg.svc SVC.SVC_CNT_aborts 1).raise Pg.svc SVC.ev_ctl_abort).svcNote "svc abort" [] else s
    let s := ((s.wr Pg.svc SVC.SVC_STAT_state 1).wr Pg.svc SVC.SVC_STAT_suspended 0).wr Pg.svc SVC.SVC_STAT_address 0
    let s := s.wr Pg.svc SVC.SVC_STAT_speed (1 + b2n hs)
    ({ s with svc := { up := true } } : State).svcNote "svc reset" [b2n hs]

def execSvcBusReset (hs : Bool) (s : State) : Host.Outcome State Fault Refusal := s.run (fun s => s.svcReset hs)

def execSvcSuspend (s : State) : Host.Outcome State Fault Refusal :=
  s.run (fun s => if s.svc.up && !s.on Pg.svc SVC.SVC_STAT_suspended then (s.wr Pg.svc SVC.SVC_STAT_suspended 1).raise Pg.svc SVC.ev_suspend else s)

def execSvcResume (s : State) : Host.Outcome State Fault Refusal :=
  s.run (fun s => if s.svc.up && s.on Pg.svc SVC.SVC_STAT_suspended then (s.wr Pg.svc SVC.SVC_STAT_suspended 0).raise Pg.svc SVC.ev_resume else s)

/-! ### Descriptors (R306) -/

/-- The part is a P4816. -/
def State.is4816 (s : State) : Bool := s.rd Pg.fus FUS.PART_part = 1

def State.svcDevice (s : State) : List Byte :=
  let st := s.rd Pg.fus FUS.PART_stepping
  [18, 1] ++ leBytes 2 0x0200 ++ [0xFF, 0, 0, 64] ++ leBytes 2 (s.rd Pg.fus FUS.VENDOR_vendor) ++ leBytes 2 (if s.is4816 then 0x4816 else 0x4808)
    ++ leBytes 2 (st / 16 * 256 + st % 16) ++ [1, 2, 3, 1]

def svcQualifier : List Byte := [10, 6] ++ leBytes 2 0x0200 ++ [0xFF, 0, 0, 64, 1, 0]

/-- The configuration for a speed, with its descriptor type. -/
def svcConfig (type : Byte) (hs : Bool) : List Byte :=
  let bulk := leBytes 2 (if hs then 512 else 64)
  [9, type] ++ leBytes 2 39 ++ [1, 1, 0, 0xC0, 0] ++ [9, 4, 0, 0, 3, 0xFF, 1, 0, 0] ++ [7, 5, 0x01, 2] ++ bulk ++ [0] ++ [7, 5, 0x81, 2] ++ bulk ++ [0]
    ++ [7, 5, 0x82, 3, 64, 0, if hs then 4 else 1]

/-- A digit in uppercase hexadecimal. -/
def hexDigit (n : Nat) : Nat := if n < 10 then 48 + n else 55 + n

/-- A string descriptor: each character in 16 bits. -/
def svcString (cs : List Nat) : List Byte := [BitVec.ofNat 8 (2 + 2 * cs.length), 3] ++ cs.flatMap (leBytes 2)

def charsOf (t : String) : List Nat := (ascii t).map BitVec.toNat

def State.svcStrings (s : State) (i : Nat) : Option (List Byte) := match i with
  | 0 => some (svcString [0x0409])
  | 1 => some (svcString (charsOf "Ulsyn Devices"))
  | 2 => some (svcString (charsOf (if s.is4816 then "Plinos P4816" else "Plinos P4808")))
  | 3 => some (svcString ((List.range 16).map (fun k => hexDigit (s.devId / 16 ^ (15 - k) % 16))))
  | _ => none

/-- GET_DESCRIPTOR. -/
def State.svcDescriptor (s : State) (type i : Nat) : Option (List Byte) :=
  let hs := s.rd Pg.svc SVC.SVC_STAT_speed = 2
  match type with
  | 1 => some s.svcDevice
  | 2 => if i = 0 then some (svcConfig 2 hs) else none
  | 3 => s.svcStrings i
  | 6 => some svcQualifier
  | 7 => if i = 0 then some (svcConfig 7 (!hs)) else none
  | _ => none

/-! ### Standard requests (R306; the requests of USB 2.0 chapter 9 are PRESUMED, log entry 33) -/

/-- Endpoint addresses of the function. -/
def svcEps : List Nat := [0x00, 0x80, 0x01, 0x81, 0x82]

/-- What a request answers, none for STALL: its data, and the function after its status stage. -/
def State.svcServe (s : State) (setup : List Byte) : Option (List Byte × State) :=
  let type := byteAt setup 0
  let val := numAt setup 2 2
  let idx := numAt setup 4 2
  let len := numAt setup 6 2
  let st := s.rd Pg.svc SVC.SVC_STAT_state
  let x := s.svc
  match byteAt setup 1 with
  | 0 =>
    if type = 0x80 then some (([1, 0] : List Byte).take len, s)
    else if type = 0x81 && st = 3 && idx = 0 then some (([0, 0] : List Byte).take len, s)
    else if type = 0x82 && svcEps.contains idx then some ((leBytes 2 (b2n (x.halts.contains idx))).take len, s)
    else none
  | 1 => if type = 0x02 && val = 0 && svcEps.contains idx then some ([], { s with svc := { x with halts := x.halts.filter (· != idx) } }) else none
  | 3 =>
    if type = 0x02 && val = 0 && svcEps.contains idx then some ([], { s with svc := { x with halts := if x.halts.contains idx then x.halts else x.halts ++ [idx] } })
    else if type = 0x00 && val = 2 && s.rd Pg.svc SVC.SVC_STAT_speed = 2 then some ([], s.svcNote "svc test mode" [idx / 256])
    else none
  | 5 =>
    if type = 0x00 && val ≤ 127 && st != 3 then some ([], (s.wr Pg.svc SVC.SVC_STAT_address val).wr Pg.svc SVC.SVC_STAT_state (if val = 0 then 1 else 2))
    else none
  | 6 => if type = 0x80 then (s.svcDescriptor (val / 256) (val % 256)).map (fun d => (d.take len, s)) else none
  | 8 => if type = 0x80 then some (([if st = 3 then 1 else 0] : List Byte).take len, s) else none
  | 9 =>
    if type != 0x00 || st < 2 then none
    else if val % 256 = 0 then some ([], ({ s with svc := { x with halts := [] } } : State).wr Pg.svc SVC.SVC_STAT_state 2)
    else if val % 256 = 1 then some ([], (({ s with svc := { x with halts := [] } } : State).wr Pg.svc SVC.SVC_STAT_state 3).raise Pg.svc SVC.ev_configured)
    else none
  | 10 => if type = 0x81 && st = 3 && idx = 0 then some (([0] : List Byte).take len, s) else none
  | 11 => if type = 0x01 && st = 3 && idx = 0 && val = 0 then some ([], { s with svc := { x with halts := [] } }) else none
  | _ => none

/-- A control request; without an acknowledged status stage the transfer stays open and changes nothing (R306, R307). -/
def State.svcControl (s : State) (setup : List Byte) (acked : Bool) : State :=
  if !s.svc.up || s.rd Pg.svc SVC.SVC_STAT_speed = 0 || s.on Pg.svc SVC.SVC_STAT_suspended then s
  else match s.svcServe setup with
    | none => ((({ s with svc := { s.svc with ctl := none } } : State).bump Pg.svc SVC.SVC_CNT1_stalls 1).svcNote "svc stall" [])
    | some (d, t) =>
      if acked then ({ t with svc := { t.svc with ctl := none } } : State).svcNote "svc data" (d.map BitVec.toNat)
      else ({ s with svc := { s.svc with ctl := some setup } } : State).svcNote "svc data" (d.map BitVec.toNat)

def execSvcControlRequest (setup : List Byte) (acked : Bool) (s : State) : Host.Outcome State Fault Refusal := s.run (fun s => s.svcControl setup acked)

end Sys2Proof.Machine
end

