-- ==== Sys2Proof/Machine/Feeds.lean ====
section
/-!
DEFINITION. Sys2Proof/Machine/Feeds.lean: the power companion die (R361–R376): feeds and FEED_WARN_N, the main eFuse, the bay switches, and the supervised link
(R13, R21). The die serves its commands while it has power, whatever the main die does.
-/
namespace Sys2Proof.Machine

open Sys2Proof

/-- The outcome of a command of the companion die, which serves it while it has power. -/
def State.comp (s : State) (f : State → State) : Host.Outcome State Fault Refusal := s.served (if s.pw.on then f s else s)

/-- The outcome of a command that the running main die serves, and without it the companion die, while it has power. -/
def State.dual (s : State) (f g : State → State) : Host.Outcome State Fault Refusal := s.served (if s.life = .running then f s else if s.pw.on then g s else s)

/-! ### Engines (R381, R383, R403) -/

def engRunning : Nat := 2

def State.engState (s : State) (e : Nat) : Nat := s.rd (Pg.eng (e / 4)) (ENG.ENG_STAT_state (e % 4))

/-- An engine restarts, or its restart has failed: it answers nothing (R382, R383). -/
def State.engDown (s : State) (e : Nat) : Bool := s.engState e = 3 || s.engState e = 4

/-! ### Feeds (R362, R363) -/

/-- A feed's flags: 3 present, 2 conducting, 1 reversed, 0 low. -/
def feedFlags (f : Nat) : Fld := if f = 0 then PWP.FEED_FLAGS_a_flags else PWP.FEED_FLAGS_b_flags

def State.feedFlag (s : State) (f b : Nat) : Bool := bitOf (s.rd Pg.pwp (feedFlags f)) b = 1

def State.setFeed (s : State) (f b : Nat) (v : Bool) : State :=
  let w := s.rd Pg.pwp (feedFlags f)
  s.wr Pg.pwp (feedFlags f) (w - bitOf w b * 2 ^ b + b2n v * 2 ^ b)

/-- A feed warns: it is used, and low or turned off in reverse. -/
def State.feedBad (s : State) (f : Nat) : Bool := s.on Pg.pwp (PWP.FEED_CFG_used f) && (s.feedFlag f 0 || s.feedFlag f 1)

/-- FEED_WARN_N follows the feeds; a falling edge starts the dying gasp with the flags of that edge. -/
def State.feedWarn (s : State) : State :=
  let low := s.feedBad 0 || s.feedBad 1
  let was := !s.on Pg.pwp PWP.FEED_FLAGS_warn_n
  if low = was then s
  else
    let s := (s.wr Pg.pwp PWP.FEED_FLAGS_warn_n (b2n !low)).emit (.pin "FEED_WARN_N" (b2n !low))
    let used := [0, 1].filter (fun f => s.on Pg.pwp (PWP.FEED_CFG_used f))
    let cause := b2n (s.feedFlag 0 0) + 2 * b2n (s.feedFlag 1 0) + 4 * b2n (s.feedFlag 0 1) + 8 * b2n (s.feedFlag 1 1) + 128 * b2n (used.all s.feedBad)
    if low && s.life = .running then s.gasp cause else s

/-- A feed changes; a_warn or b_warn when it begins to warn, a_ok or b_ok when it ends. -/
def State.feedChange (s : State) (f : Nat) (g : State → State) : State :=
  let t := g s
  let t := if !s.feedBad f && t.feedBad f then t.raise Pg.pwp (if f = 0 then PWP.ev_a_warn else PWP.ev_b_warn)
    else if s.feedBad f && !t.feedBad f then t.raise Pg.pwp (if f = 0 then PWP.ev_a_ok else PWP.ev_b_ok) else t
  t.feedWarn

/-- A feed's gate. -/
def State.feedGate (s : State) (f : Nat) (v : Bool) : State := (s.setFeed f 2 v).emit (.pin (if f = 0 then "FEEDA_GATE" else "FEEDB_GATE") (b2n v))

def State.feedForward (s : State) (f : Nat) : State :=
  if !s.on Pg.pwp (PWP.FEED_CFG_en f) then s
  else s.feedChange f (fun s => ((s.setFeed f 3 true).setFeed f 1 false).feedGate f true)

def execFeedForward (f : Fin 2) (s : State) : Host.Outcome State Fault Refusal := s.comp (fun s => s.feedForward f.val)

def State.feedReverse (s : State) (f : Nat) : State :=
  if !s.on Pg.pwp (PWP.FEED_CFG_en f) || !s.feedFlag f 2 then s
  else s.feedChange f (fun s => ((s.setFeed f 1 true).feedGate f false).bump Pg.pwp (if f = 0 then PWP.EF_CNT1_rev_a else PWP.EF_CNT1_rev_b) 1)

def execFeedReverse (f : Fin 2) (s : State) : Host.Outcome State Fault Refusal := s.comp (fun s => s.feedReverse f.val)

/-- A feed is low; below 8.0 V its gate is off. -/
def State.feedLow (s : State) (f : Nat) (below8 : Bool) : State :=
  s.feedChange f (fun s =>
    let s := s.setFeed f 0 true
    if below8 then (if s.feedFlag f 2 then (s.setFeed f 3 false).feedGate f false else s.setFeed f 3 false) else s)

def execFeedLow (f : Fin 2) (below8 : Bool) (s : State) : Host.Outcome State Fault Refusal := s.comp (fun s => s.feedLow f.val below8)

def execFeedRecover (f : Fin 2) (s : State) : Host.Outcome State Fault Refusal := s.comp (fun s => s.feedChange f.val (fun s => (s.setFeed f.val 0 false).setFeed f.val 3 true))

/-- FEEDx_CFG.en = 0 leaves the feed's FET off and clears its reverse report (R362). -/
def State.feedCfg (s : State) (f : Nat) : State :=
  s.feedChange f (fun s => if s.on Pg.pwp (PWP.FEED_CFG_en f) then s else let s := s.setFeed f 1 false; if s.feedFlag f 2 then s.feedGate f false else s)

/-! ### The main eFuse (R364–R370) -/

/-- EF_STAT.state codes (R378). -/
def efOff : Nat := 0
def efWait : Nat := 1
def efPre : Nat := 2
def efRamp : Nat := 3
def efPgWait : Nat := 4
def efOn : Nat := 5
def efLimit : Nat := 6
def efCool : Nat := 7
def efLatched : Nat := 8

def State.ef (s : State) : Nat := s.rd Pg.pwp PWP.EF_STAT_state

def State.setEf (s : State) (v : Nat) : State := s.wr Pg.pwp PWP.EF_STAT_state v

/-- FLT_N. -/
def State.efFlt (s : State) (low : Bool) : State := if s.on Pg.pwp PWP.EF_STAT_flt = low then s else (s.wr Pg.pwp PWP.EF_STAT_flt (b2n low)).emit (.pin "FLT_N" (b2n !low))

/-- PG. -/
def State.efPg (s : State) (v : Bool) : State := if s.on Pg.pwp PWP.EF_STAT_pg = v then s else (s.wr Pg.pwp PWP.EF_STAT_pg (b2n v)).emit (.pin "PG" (b2n v))

def State.efPcg (s : State) (v : Bool) : State := s.emit (.pin "EF_PCG" (b2n v))
def State.efGate (s : State) (v : Bool) : State := s.emit (.pin "EF_GATE" (b2n v))

/-- Step 1 of R364: WAIT, once its conditions hold; else the eFuse stays off. -/
def State.efStart (s : State) : State :=
  let s := s.efFlt false
  if s.on Pg.pwp PWP.EF_CTL_off || s.pw.ov || s.pw.hot then s.setEf efOff else s.setEf efWait

/-- A curve's points up to the first that does not ascend (R365). -/
def curvePts : List (Nat × Nat) → List (Nat × Nat)
  | [] => []
  | [p] => [p]
  | p :: q :: t => if p.1 < q.1 then p :: curvePts (q :: t) else [p]

def State.cdnPts (s : State) : List (Nat × Nat) := curvePts ((List.range 8).map (fun k => (s.rd Pg.pwp (PWP.CDN_e k), s.rd Pg.pwp (PWP.CDN_t k))))

def State.coolMin (s : State) : Nat := s.rd1 Pg.pwp PWP.EF_COOLMIN_cool_min

/-- EF_TIM0.t_pc_ms with its bounds. -/
def State.tPc (s : State) : Nat := max 1 (min 500 (s.rd Pg.pwp PWP.EF_TIM0_t_pc_ms))

/-- A fault ends the eFuse's run (R369): LATCHED, or COOLDOWN for t_cool in 10 ms units. -/
def State.efFault (s : State) (cause tCool : Nat) : State :=
  let s := (((s.efGate false).efPcg false).efPg false).efFlt true
  let s := ((s.wr Pg.pwp PWP.EF_STAT_cause cause).bump Pg.pwp PWP.EF_CNT0_faults 1).wr Pg.pwp PWP.EF_COOL_t_cool (min 65535 (max s.coolMin tCool))
  let lim := s.rd1 Pg.pwp PWP.EF_CFG_retry_max
  if !s.on Pg.pwp PWP.EF_CFG_auto || (lim != 15 && lim ≤ s.rd Pg.pwp PWP.EF_STAT_retries) then (s.setEf efLatched).raise Pg.pwp PWP.ev_latched
  else s.setEf efCool

/-- A fault with the energy of its ramp or limit episode. -/
def State.efFaultE (s : State) (cause e : Nat) : State :=
  let s := s.wr Pg.pwp PWP.EF_COOL_e_mj (min e 65535)
  s.efFault cause ((curveAt (s.cdnPts.map (fun x => ((x.1 : Int), (x.2 : Int)))) (min e 65535 : Nat)).toNat)

def execEfuseWaitExpiry (s : State) : Host.Outcome State Fault Refusal :=
  s.comp (fun s => if s.ef = efWait then (s.setEf efPre).efPcg true else s)

def execPrechargeDone (s : State) : Host.Outcome State Fault Refusal :=
  s.comp (fun s => if s.ef = efPre then (s.setEf efRamp).efGate true else s)

def State.prechargeTimeout (s : State) : State :=
  if s.ef != efPre then s
  else ((s.bump Pg.pwp PWP.EF_CNT0_prechg_tmo 1).raise Pg.pwp PWP.ev_prechg_tmo).wr Pg.pwp PWP.EF_COOL_e_mj 0 |>.efFault 1 s.tPc

def execPrechargeTimeout (s : State) : Host.Outcome State Fault Refusal := s.comp State.prechargeTimeout

def execGateEnhanced (s : State) : Host.Outcome State Fault Refusal :=
  s.comp (fun s => if s.ef = efRamp then (s.setEf efPgWait).efPcg false else s)

def State.pgDone (s : State) : State :=
  if s.ef != efPgWait then s else (((s.setEf efOn).efPg true).wr Pg.pwp PWP.EF_STAT_retries 0).raise Pg.pwp PWP.ev_pg_up

def execPgDeglitchDone (s : State) : Host.Outcome State Fault Refusal := s.comp State.pgDone

/-- A limit episode starts (R365, R367). -/
def State.limitStart (s : State) : State :=
  if s.ef = efRamp || s.ef = efPgWait || s.ef = efOn then
    let s : State := { s with pw := { s.pw with from_ := if s.ef = efOn then efOn else efRamp } }
    ((((s.setEf efLimit).efFlt true).wr Pg.pwp PWP.EF_STAT_ew 1).bump Pg.pwp PWP.EF_CNT1_limits 1).raise Pg.pwp PWP.ev_ef_limit
  else s

def execLimitStart (s : State) : Host.Outcome State Fault Refusal := s.comp State.limitStart

def execLimitEnd (s : State) : Host.Outcome State Fault Refusal :=
  s.comp (fun s => if s.ef = efLimit then (s.setEf s.pw.from_).efFlt false else s)

def execFaultTimerExpiry (e : Nat) (s : State) : Host.Outcome State Fault Refusal :=
  s.comp (fun s => if s.ef = efLimit then (s.raise Pg.pwp PWP.ev_ef_fault).efFaultE 2 e else s)

/-- The fast trip, armed from RAMP on (R366). -/
def State.fastTrip (s : State) (e : Nat) : State :=
  if efRamp ≤ s.ef && s.ef ≤ efLimit then ((s.bump Pg.pwp PWP.EF_CNT0_fast_trips 1).raise Pg.pwp PWP.ev_fast_trip).efFaultE 3 e else s

def execFastTrip (e : Nat) (s : State) : Host.Outcome State Fault Refusal := s.comp (fun s => s.fastTrip e)

/-- EF_OUT leaves the PG window while PG is high (R367); the gate stays, and PG waits for the window again. -/
def State.pgExit (s : State) : State :=
  if !s.on Pg.pwp PWP.EF_STAT_pg then s
  else
    let s := (s.efPg false).raise Pg.pwp PWP.ev_pg_down
    if s.ef = efOn then s.setEf efPgWait else { s with pw := { s.pw with from_ := efRamp } }

def execPgWindowExit (s : State) : Host.Outcome State Fault Refusal := s.comp State.pgExit

/-- t_cool ends (R369). -/
def State.coolEnd (s : State) : State :=
  if s.ef != efCool then s
  else ((s.wr Pg.pwp PWP.EF_STAT_retries (min 15 (s.rd Pg.pwp PWP.EF_STAT_retries + 1))).raise Pg.pwp PWP.ev_retry).efStart

def execCooldownEnd (s : State) : Host.Outcome State Fault Refusal := s.comp State.coolEnd

def execEfClr (s : State) : Host.Outcome State Fault Refusal :=
  s.comp (fun s => if !s.hvLink then s.bump Pg.hvd HVD.LINK_CNT_wr_drop 1 else if s.ef = efLatched then s.efStart else s)

/-- A write of EF_CTL.off (R369). -/
def State.efOffWrite (s : State) (v : Bool) : State :=
  if !s.hvLink then s.bump Pg.hvd HVD.LINK_CNT_wr_drop 1
  else
    let was := s.on Pg.pwp PWP.EF_CTL_off
    let s := s.wr Pg.pwp PWP.EF_CTL_off (b2n v)
    if v then ((((s.efGate false).efPcg false).efPg false).efFlt false).setEf efOff
    else if was then s.efStart
    else s

def execEfOffWrite (v : Bool) (s : State) : Host.Outcome State Fault Refusal := s.comp (fun s => s.efOffWrite v)

/-- VOR_S rises above ov (R370). -/
def State.efOv (s : State) : State :=
  let k := s.ef
  let s : State := { s with pw := { s.pw with ov := true } }
  if k = efOff || k = efLatched || k = efCool then s.raise Pg.pwp PWP.ev_ov
  else (((((s.efGate false).efPcg false).efPg false).efFlt true).setEf efOff).wr Pg.pwp PWP.EF_STAT_cause 4 |>.raise Pg.pwp PWP.ev_ov

def execEfuseOv (s : State) : Host.Outcome State Fault Refusal := s.comp State.efOv

def execEfuseOvRecover (s : State) : Host.Outcome State Fault Refusal :=
  s.comp (fun s =>
    let s : State := { s with pw := { s.pw with ov := false } }
    if s.ef = efOff then s.efStart else s)

/-! ### Bay switches (R371–R376) -/

/-- VBS_STAT.state codes (R380). -/
def vbOff : Nat := 0
def vbOn : Nat := 1
def vbMove : Nat := 2
def vbDisch : Nat := 3
def vbTrip : Nat := 4
def vbHeld : Nat := 5

def State.vb (s : State) (n : Nat) : Nat := s.rd (Pg.vbs n) VBS.VBS_STAT_state

/-- The switch conducts. -/
def State.vbConducts (s : State) (n : Nat) : Bool := s.vb n = vbOn || s.vb n = vbMove || s.vb n = vbHeld

/-- The bay's engine writes the regulator over AUX1 (R373). Whether the regulator stretches the clock beyond 10 ms is its own affair, a free value; the transfer then ends with a STOP and the
engine is told of a bus error (R504). -/
def State.i2cSet (s : State) (n v : Nat) : State :=
  let (slow, s) := s.draw 1
  let s := s.emit (.bay n "regulator i2c" [v])
  if slow = 1 then (s.emit (.bay n "regulator i2c STOP" [])).emit (.note "i2c bus error" [3 + n]) else s

/-- Duty of a setpoint in 20 mV units: the line through VSET_CAL (R373). -/
def State.vbDuty (s : State) (n : Nat) : Nat :=
  let a := s.rd (Pg.vbs n) VBS.VSET_CAL_duty_5v
  let b := s.rd (Pg.vbs n) VBS.VSET_CAL_duty_20v
  ((a : Int) + ((b : Int) - a) * ((s.rd (Pg.vbs n) VBS.VBS_SET_vset : Int) - 250) / 750).toNat

/-- The duty of VSET: the setpoint's, trimmed. -/
def State.vbPwm (s : State) (n : Nat) : Nat := min 65535 ((s.vbDuty n : Int) + signed 16 (s.rd (Pg.vbs n) VBS.VBS_TRIM_trim)).toNat

/-- VSET is driven with its duty, unless the regulator is written over I2C (R373). -/
def State.vbDrive (s : State) (n : Nat) : State := if s.on (Pg.vbs n) VBS.VBS_CFG_i2c then s else s.emit (.bay n "vset" [s.vbPwm n])

/-- The setpoint moves: by the PWM of VSET, or by the engine over I2C (R373). -/
def State.vbSet (s : State) (n v : Nat) : State :=
  let s := s.wr (Pg.vbs n) VBS.VBS_SET_vset v
  if s.on (Pg.vbs n) VBS.VBS_CFG_i2c then s.i2cSet n v else s.vbDrive n

/-- The window and the limit of a contract (R371): lo and hi in 20 mV units, the limit in 10 mA units. -/
def State.vbWin (s : State) (n lo hi ilim : Nat) : State :=
  ((s.wr (Pg.vbs n) VBS.VBS_WIN_lo lo).wr (Pg.vbs n) VBS.VBS_WIN_hi hi).wr (Pg.vbs n) VBS.VBS_SET_ilim ilim

/-- The switch turns on; not while the bay still discharges (R374). -/
def State.vbTurnOn (s : State) (n : Nat) (sink : Bool) : State :=
  if !s.hvLink || s.pw.hot || s.vb n = vbDisch || s.vb n = vbTrip then s
  else if s.vbConducts n then (s.wr (Pg.vbs n) VBS.VBS_STAT_state vbOn).wr (Pg.vbs n) VBS.VBS_STAT_sink (b2n sink)
  else
    let s := (s.wr (Pg.vbs n) VBS.VBS_STAT_state vbOn).wr (Pg.vbs n) VBS.VBS_STAT_sink (b2n sink)
    (s.raise (Pg.vbs n) VBS.ev_on).emit (.bay n "gate" [1])

/-- The switch turns off and VBUS discharges (R374). -/
def State.vbTurnOff (s : State) (n cause : Nat) (trip : Bool) : State :=
  if !s.vbConducts n then s
  else
    let p := Pg.vbs n
    let s := (s.wr p VBS.VBS_STAT_state (if trip then vbTrip else vbDisch)).wr p VBS.VBS_STAT_sink 0
    let s := (s.wr p VBS.VBS_STAT_cause cause).bump p VBS.VBS_CNT_discharges 1
    let s := (((s.vbSet n 250).vbWin n 0 0 0).emit (.bay n "gate" [0])).emit (.bay n "disch" [1])
    s.raise p VBS.ev_off

/-- The switch is held on in P2 or P3 (R376). -/
def State.vbKeepOn (s : State) (n : Nat) : State := (s.wr (Pg.vbs n) VBS.VBS_STAT_state vbHeld).raise (Pg.vbs n) VBS.ev_held

/-- A trip (R372): cause 1 OC, 2 FAST_OC, 3 OV, 4 UV. The undervoltage timer does not run during a transition. -/
def State.vbTripped (s : State) (n cause : Nat) : State :=
  if !s.vbConducts n || (cause = 4 && s.vb n = vbMove) then s
  else ((s.vbTurnOff n cause true).bump (Pg.vbs n) VBS.VBS_CNT_trips 1).raise (Pg.vbs n) VBS.ev_trip

/-- Discharge has failed so far (R374). -/
def State.dischFail (s : State) (n : Nat) : State := if s.vb n = vbDisch || s.vb n = vbTrip then s.raise (Pg.vbs n) VBS.ev_disch_fail else s

def execDischargeFail (n : Bay) (s : State) : Host.Outcome State Fault Refusal := s.comp (fun s => s.dischFail n.val)

/-- The trim takes a value within its envelope; at a bound it pins (R373). -/
def State.vbTrim (s : State) (n : Nat) (v : Int) : State :=
  let p := Pg.vbs n
  let b : Int := ((s.vbDuty n * s.rd1 p VBS.VBS_TRIM_trim_max / 400 : Nat) : Int)
  let c := if b < v then b else if v < -b then -b else v
  let moved := c != signed 16 (s.rd p VBS.VBS_TRIM_trim)
  let s := s.wr p VBS.VBS_TRIM_trim (unsigned 16 c)
  let s := if moved then s.vbDrive n else s
  if c = v || s.on p VBS.VBS_STAT_trim_pin then s else (s.wr p VBS.VBS_STAT_trim_pin 1).raise p VBS.ev_trim_pinned

/-- One trim step toward the setpoint. -/
def State.vbTrimStep (s : State) (n : Nat) (up : Bool) : State :=
  let p := Pg.vbs n
  if !s.vbConducts n || s.on p VBS.VBS_CFG_i2c || s.on p VBS.VBS_TRIM_hold then s
  else s.vbTrim n (signed 16 (s.rd p VBS.VBS_TRIM_trim) + (if up then 1 else -1))

def execVbusTrimStep (n : Bay) (up : Bool) (s : State) : Host.Outcome State Fault Refusal := s.comp (fun s => s.vbTrimStep n.val up)

/-- VBS_TRIM.trim is written (R373); a disabled bay ignores it (R470), and so does a lost link, which counts it (R361). -/
def State.vbTrimWrite (s : State) (n v : Nat) : State :=
  if !s.alive (Pg.vbs n) then s else if !s.hvLink then s.bump Pg.hvd HVD.LINK_CNT_wr_drop 1 else s.vbTrim n (signed 16 v)

def execVbsTrimWrite (n : Bay) (v : Nat) (s : State) : Host.Outcome State Fault Refusal := s.comp (fun s => s.vbTrimWrite n.val v)

/-! ### Power and the supervised link (R13, R21, R361) -/

/-- The companion pages at their reset values. -/
def State.compReset (s : State) : State :=
  { s with regs := Store.hold companionEntries (s.regs.filter (fun e => !isCompanion (e.1 / 131072))) }

/-- The companion die has power; the service port may show itself again (R485). -/
def State.compOn (s : State) : State :=
  if s.pw.on then s
  else
    let s := ({ s.compReset with pw := { on := true } }).efStart
    if s.life = .running then s.svcAttach else s

def execCompanionPowerOn (s : State) : Host.Outcome State Fault Refusal := s.always State.compOn

/-- The companion die loses power: every output of it is off, and the U2 balls are high impedance (R485). -/
def State.compOff (s : State) : State :=
  if !s.pw.on then s
  else
    let s := (((s.efGate false).efPcg false).efPg false).each (List.range 4) (fun s n => if s.vbConducts n then s.emit (.bay n "gate" [0]) else s)
    let s := if s.life = .running then (s.each (List.range 4) State.u2Gone).svcDown else s
    { s.compReset with pw := {} }

def execCompanionPowerOff (s : State) : Host.Outcome State Fault Refusal := s.always State.compOff

/-- The companion die receives no valid frame for 1 ms in P0 or P1, in a reset of the main die too, and declares the link lost: outputs hold, and reads return what was mirrored while the
link was up (R13, R21, R361). In P2 and P3 it is idle by design. -/
def State.linkLost (s : State) : State :=
  if s.life = .p2 || s.life = .p3 || s.on Pg.hvd HVD.HVD_STAT_held then s
  else
    let m := if s.hvLink then some (s.regs.filter (fun e => isCompanion (e.1 / 131072))) else s.pw.mirror
    let s := ((s.wr Pg.hvd HVD.HVD_STAT_link 0).wr Pg.hvd HVD.HVD_STAT_held 1).bump Pg.hvd HVD.LINK_CNT_losses 1
    { s with pw := { s.pw with mirror := m } }

def execCompanionLinkLost (s : State) : Host.Outcome State Fault Refusal := s.comp State.linkLost

/-- Page events of the companion die that waited for the link. -/
def State.companionDue (s : State) : State :=
  let l := s.evt.due.filter (fun p => isCompanion p && !s.evt.hold.contains p)
  { s with evt := { s.evt with due := s.evt.due.filter (fun p => !l.contains p), fresh := s.evt.fresh ++ l } }

/-- The link is up, and the companion die reports a loss that it had declared (R21). -/
def State.hvUp (s : State) : State :=
  let lost := s.on Pg.hvd HVD.HVD_STAT_held
  let s := ((s.wr Pg.hvd HVD.HVD_STAT_link 1).wr Pg.hvd HVD.HVD_STAT_held 0).companionDue
  let s : State := { s with pw := { s.pw with mirror := none } }
  if lost then (s.raise Pg.hvd HVD.ev_link_lost).raise Pg.hvd HVD.ev_link_back else s

/-- Engine E7 has established the link again. A bay that was disabled meanwhile turns its switch off now (DESIGN CHOICE, log entry 153). -/
def State.linkBack (s : State) : State :=
  if s.life != .running || s.hvLink || s.engDown 7 then s
  else s.hvUp.each (List.range 4) (fun s n => if s.bayOn n then s else s.vbTurnOff n 7 false)

def execCompanionLinkRestored (s : State) : Host.Outcome State Fault Refusal := s.comp State.linkBack

end Sys2Proof.Machine
end

