-- ==== Sys2Proof/Machine/TypeC.lean ====
section
/-!
DEFINITION. Sys2Proof/Machine/TypeC.lean: the Type-C ports of the bays and their PD policy (R332–R360), and PORTSC.PP (R291). The front ends stand on the companion
die: a port sees and does nothing while the supervised link is down, but for the detach that the companion die serves by itself in sleep (R357).
-/
namespace Sys2Proof.Machine

open Sys2Proof

/-- TC_STAT.st codes (R360). -/
def tcUnattached : Nat := 0
def tcAttachWait : Nat := 1
def tcTypeC : Nat := 2
def tcNegotiating : Nat := 3
def tcTransition : Nat := 4
def tcReady : Nat := 5
def tcHardReset : Nat := 6
def tcErrRecovery : Nat := 7
def tcDryWait : Nat := 8
def tcSwap : Nat := 9
def tcDisabled : Nat := 10

def State.tcSt (s : State) (n : Nat) : Nat := s.rd (Pg.tc n) TC.TC_STAT_st
def State.setTcSt (s : State) (n v : Nat) : State := s.wr (Pg.tc n) TC.TC_STAT_st v
def State.tcWet (s : State) (n : Nat) : Bool := s.rd (Pg.tc n) TC.TC_STAT_moist = 2
def State.tcSink (s : State) (n : Nat) : Bool := s.on (Pg.tc n) TC.TC_STAT_prole
def State.tcAttached (s : State) (n : Nat) : Bool := s.on (Pg.tc n) TC.TC_STAT_attached

/-- The port's policy works: the bay is enabled and the supervised link is up. -/
def State.tcLive (s : State) (n : Nat) : Bool := s.bayOn n && s.hvLink

/-- The bay's engine restarts: the port's policy answers nothing, and a hook that is asked gives none (R383). -/
def State.polDown (s : State) (n : Nat) : Bool := s.engDown (3 + n)

/-- A PD message leaves the port. -/
def State.pdSend (s : State) (n : Nat) (msg : String) (data : List Nat) : State := s.emit (.pd n msg data)

/-- TC_CAUSE. -/
def State.tcCause (s : State) (n c : Nat) : State := s.wr (Pg.tc n) TC.TC_CAUSE_cause c

/-! ### Terminations, the mux, VCONN (R332, R333, R347, R350) -/

/-- The port presents Rp while unattached. -/
def State.tcRp (s : State) (n : Nat) : Bool := match s.rd (Pg.tc n) TC.TC_CFG_cc_mode with
  | 1 => !(s.tc n).rd
  | 2 => false
  | _ => true

/-- Rp's level code as TC_CFG asks. -/
def State.rpLevel (s : State) (n : Nat) : Nat := min 2 (s.rd (Pg.tc n) TC.TC_CFG_rp_lvl)

/-- The current that an Rp level advertises, in 10 mA units (PRESUMED for Default USB, log entry 38). -/
def rpCurrent (l : Nat) : Nat := match l with
  | 0 => 90
  | 1 => 150
  | _ => 300

/-- The port waits for an attach again, with the configuration that TC_CFG asks for (R332); a wet port is in DRY_WAIT (R353). -/
def State.tcIdle (s : State) (n : Nat) : State :=
  let p := Pg.tc n
  let x := s.tc n
  let cfg := s.rd p TC.TC_CFG_bay_cfg
  let s := s.setTc n { cfg := cfg, wetN := x.wetN, dryN := x.dryN, ppOff := x.ppOff }
  let off := cfg = 1 || cfg = 3 || x.ppOff
  let s := s.setTcSt n (if off then tcDisabled else if s.tcWet n then tcDryWait else tcUnattached)
  let s := ((s.wr p TC.TC_STAT_attached 0).wr p TC.TC_STAT_orient 0).wr p TC.TC_STAT_partner 0
  let s := ((s.wr p TC.TC_STAT_prole 0).wr p TC.TC_STAT_pd_rev 0).wr p TC.TC_STAT_rp_adv (if off || s.tcWet n || !s.tcRp n then 0 else s.rpLevel n)
  if cfg = 1 || cfg = 3 then s.ssGone n else s

/-- TC_CFG has been written: it takes effect in UNATTACHED (R332). -/
def State.tcApply (s : State) (n : Nat) : State := if s.tcSt n = tcUnattached then s.tcIdle n else s

/-- The mux takes a state (R350). -/
def State.tcMux (s : State) (n m : Nat) : State := if s.rd (Pg.tc n) TC.TC_ALT_mux = m then s else ((s.wr (Pg.tc n) TC.TC_ALT_mux m).emit (.bay n "mux" [m])).ssGone n

/-- Alternate mode ends: the mux returns to USB, the display head sees unplug (R351). -/
def State.altOff (s : State) (n : Nat) : State :=
  let p := Pg.tc n
  let was := s.on p TC.TC_ALT_entered
  let s := s.setTc n { s.tc n with alt := 0 }
  let s := s.tcMux n 0
  let s := (s.wr p TC.TC_ALT_entered 0).wr p TC.TC_ALT_hpd 0
  if was then (s.raise p TC.ev_alt_exit).hpdUnplug n else s

def State.vconn (s : State) (n : Nat) (v : Bool) : State :=
  if s.on (Pg.tc n) TC.TC_STAT_vconn_on = v then s else (s.wr (Pg.tc n) TC.TC_STAT_vconn_on (b2n v)).emit (.bay n "vconn" [b2n v])

/-- No contract is in force. -/
def State.noContract (s : State) (n : Nat) : State :=
  let p := Pg.tc n
  let s := ((s.wr p TC.CONTRACT_v 0).wr p TC.CONTRACT_i 0).wr p TC.CON_INFO_pos 0
  ((s.wr p TC.CON_INFO_kind 0).wr p TC.TC_STAT_epr 0).wr p TC.TC_STAT_pps 0

/-- vSafe5V at the Type-C current (R341 step 3, R371). -/
def State.sourceOn (s : State) (n : Nat) : State :=
  ((s.vbSet n 250).vbWin n 200 300 (ceilDiv (5 * rpCurrent (s.rpLevel n)) 4)).vbTurnOn n false

/-! ### Attach and detach (R333, R334, R355) -/

def State.tcToggle (s : State) (n : Nat) : State :=
  let x := s.tc n
  if s.tcLive n && s.tcSt n = tcUnattached && s.rd (Pg.tc n) TC.TC_CFG_cc_mode = 1 then
    let s := s.setTc n { x with rd := !x.rd }
    s.wr (Pg.tc n) TC.TC_STAT_rp_adv (if x.rd then s.rpLevel n else 0)
  else s

def execCcToggle (n : Bay) (s : State) : Host.Outcome State Fault Refusal := s.run (fun s => s.tcToggle n.val)

/-- The opposite termination is on exactly one CC line (`line` 1 or 2), or on none. -/
def State.ccChange (s : State) (n line : Nat) (ra : Bool) : State :=
  let x := s.tc n
  if !s.tcLive n then s
  else if s.tcSt n = tcUnattached && line != 0 then (s.setTcSt n tcAttachWait).setTc n { x with seen := line, ra := ra }
  else if s.tcSt n = tcAttachWait then
    (if line = 0 then (s.setTcSt n tcUnattached).setTc n { x with seen := 0, ra := false } else s.setTc n { x with seen := line, ra := ra })
  else if s.tcSt n = tcDryWait && s.on (Pg.tc n) TC.TC_MCFG_sink_wet then s.setTc n { x with seen := line, ra := ra }
  else s

def execCcTerminationChange (n : Bay) (line : Fin 3) (ra : Bool) (s : State) : Host.Outcome State Fault Refusal := s.run (fun s => s.ccChange n.val line.val ra)

/-- Attach (R334): steps 1 to 4 of R341 as Source; as Sink the port awaits capabilities. -/
def State.tcAttach (s : State) (n : Nat) : State :=
  let p := Pg.tc n
  let x := s.tc n
  let wet := s.tcSt n = tcDryWait && s.on p TC.TC_MCFG_sink_wet
  if !s.tcLive n || x.seen = 0 || !(s.tcSt n = tcAttachWait || wet) then s
  else
    let sink := wet || !s.tcRp n
    let s := ((s.wr p TC.TC_STAT_attached 1).wr p TC.TC_STAT_orient (x.seen - 1)).wr p TC.TC_STAT_partner (if sink then 2 else 1)
    let s := (s.wr p TC.TC_STAT_prole (b2n sink)).emit (.bay n "crossbar" [x.seen - 1])
    let s := ((s.wr p TC.TC_CABLE_emarked 0).wr p TC.TC_CABLE_a5 0).wr p TC.TC_CABLE_v50 0
    let s := (s.wr p TC.TC_CABLE_dp_max 4).wr p TC.TC_CABLE_ss 0
    let s := s.raise p TC.ev_attach
    let s := s.setTcSt n (if s.on p TC.TC_CFG_pd_en then tcNegotiating else tcTypeC)
    if sink then s
    else
      let vc := x.ra && s.on p TC.TC_CFG_vconn_en
      let s := if vc then s.vconn n true else s
      let s := s.sourceOn n
      if vc && s.on p TC.TC_CFG_pd_en then (s.setTc n { s.tc n with cableAsk := true }).pdSend n "SOP' Discover Identity" [] else s

def execCcAttach (n : Bay) (s : State) : Host.Outcome State Fault Refusal := s.run (fun s => s.tcAttach n.val)

/-- Detach (R355). -/
def State.tcDetach (s : State) (n : Nat) : State :=
  let p := Pg.tc n
  let st := s.tcSt n
  if !(s.tcAttached n || st = tcHardReset || st = tcErrRecovery) then s
  else
    let mid := st = tcTransition || st = tcSwap || st = tcHardReset
    let s := s.altOff n
    let s := s.vbTurnOff n 5 false
    let s := (s.vconn n false).noContract n
    let s := (s.tcCause n (if mid then 2 else 1)).raise p TC.ev_detach
    let s := if mid then s.raise p TC.ev_det_transition else s
    s.tcIdle n

/-- The termination is gone. A Sink leaves by its VBUS (R334), but in a swap there is none. In sleep the companion die acts by R355 alone (R357). -/
def execCcDetach (n : Bay) (s : State) : Host.Outcome State Fault Refusal :=
  s.dual (fun s => if s.tcLive n.val && !(s.tcSink n.val && s.tcSt n.val != tcSwap) then s.tcDetach n.val else s) (fun s => if s.life = .inReset then s else s.vbTurnOff n.val 5 false)

def execSinkDisconnect (n : Bay) (s : State) : Host.Outcome State Fault Refusal :=
  s.run (fun s => if s.tcLive n.val && s.tcSink n.val && s.tcAttached n.val then s.tcDetach n.val else s)

/-! ### Error recovery and hard reset (R341, R356, R360) -/

/-- ERROR_RECOVERY: CC open. -/
def State.errRecovery (s : State) (n : Nat) : State :=
  let p := Pg.tc n
  let s := s.altOff n
  let s := s.vbTurnOff n 0 false
  let s := ((s.vconn n false).noContract n).setTcSt n tcErrRecovery
  let s := (s.wr p TC.TC_STAT_attached 0).wr p TC.TC_STAT_rp_adv 0
  s.setTc n { cfg := (s.tc n).cfg, wetN := (s.tc n).wetN, dryN := (s.tc n).dryN, ppOff := (s.tc n).ppOff }

def execTcErrRecovery (n : Bay) (s : State) : Host.Outcome State Fault Refusal := s.run (fun s => if s.tcLive n.val then s.errRecovery n.val else s)

def execErrorRecoveryEnd (n : Bay) (s : State) : Host.Outcome State Fault Refusal :=
  s.run (fun s => if s.tcLive n.val && s.tcSt n.val = tcErrRecovery then s.tcIdle n.val else s)

def State.vbusOnTimeout (s : State) (n : Nat) : State :=
  if s.tcLive n && s.tcAttached n && !s.tcSink n && (s.tcSt n = tcTypeC || s.tcSt n = tcNegotiating || s.tcSt n = tcHardReset) then (s.tcCause n 5).errRecovery n else s

def execVbusOnTimeout (n : Bay) (s : State) : Host.Outcome State Fault Refusal := s.run (fun s => s.vbusOnTimeout n.val)

/-- A hard reset, received or sent (R356). A Sink has no VBUS to drive; it awaits capabilities again. -/
def State.hardReset (s : State) (n cause : Nat) (sent : Bool) : State :=
  let p := Pg.tc n
  if !s.tcAttached n then s
  else
    let s := if sent then s.pdSend n "Hard Reset" [] else s
    let s := (s.bump p TC.TC_CNT0_hard_resets 1).raise p TC.ev_hard_reset
    let s := (s.altOff n).vconn n false
    let s := (s.vbTurnOff n 6 false).noContract n
    let x := s.tc n
    let s := s.tcCause n cause
    let y : TcCtx := { cfg := x.cfg, rd := x.rd, seen := x.seen, ra := x.ra, hardN := x.hardN + 1, wetN := x.wetN, dryN := x.dryN }
    let s := if s.tcSink n then s else s.wr p TC.TC_STAT_rp_adv (s.rpLevel n)
    (s.setTc n y).setTcSt n (if s.tcSink n then tcNegotiating else tcHardReset)

/-- In sleep the companion die runs the VBUS cycle by itself (R357). -/
def execPdHardResetRx (n : Bay) (s : State) : Host.Outcome State Fault Refusal :=
  s.dual (fun s => if s.tcLive n.val then s.hardReset n.val 3 false else s) (fun s => if s.life = .inReset then s else s.vbTurnOff n.val 6 false)

def execTcHardReset (n : Bay) (s : State) : Host.Outcome State Fault Refusal := s.run (fun s => if s.tcLive n.val then s.hardReset n.val 4 true else s)

/-- tSrcRecover ends: vSafe5V and VCONN return; after two hard resets without a contract the port stays in TYPEC_ONLY. -/
def State.srcRecover (s : State) (n : Nat) : State :=
  if !s.tcLive n || s.tcSt n != tcHardReset then s
  else
    let x := s.tc n
    let s := s.sourceOn n
    let vc := x.ra && s.on (Pg.tc n) TC.TC_CFG_vconn_en
    let s := if vc then s.vconn n true else s
    if 2 ≤ x.hardN then s.setTcSt n tcTypeC
    else
      let s := s.setTcSt n tcNegotiating
      if vc then (s.setTc n { s.tc n with cableAsk := true }).pdSend n "SOP' Discover Identity" [] else s

def execSrcRecoverExpiry (n : Bay) (s : State) : Host.Outcome State Fault Refusal :=
  s.dual (fun s => s.srcRecover n.val) (fun s =>
    if s.life != .inReset && s.vb n.val = vbOff && s.rd (Pg.vbs n.val) VBS.VBS_STAT_cause = 6 then (s.vbKeepOn n.val).emit (.bay n.val "gate" [1]) else s)

/-- A protection trip (R339, R372): the companion die turns the switch off, the engine ends the contract. -/
def State.switchTrip (s : State) (n cause : Nat) : State :=
  let on := s.vbConducts n
  let t := s.vbTripped n cause
  if !on || t.vbConducts n || t.life != .running || !t.tcLive n || !t.tcAttached n then t
  else if t.tcSt n = tcTypeC then (t.tcCause n 5).errRecovery n
  else t.hardReset n 5 true

def execBaySwitchTrip (n : Bay) (cause : Fin 4) (s : State) : Host.Outcome State Fault Refusal := s.comp (fun s => s.switchTrip n.val (cause.val + 1))

/-! ### Policy tables (R358, R394, R395) -/

/-- A policy rule (R394): hook, bays, flags and which of them must match, voltages in 50 mV units, current in 10 mA units, action and its argument. -/
structure Rule where
  hook  : Nat
  bays  : Nat
  flags : Nat
  fmask : Nat
  vLo   : Nat
  vHi   : Nat
  iHi   : Nat
  act   : Nat
  arg   : Nat
deriving DecidableEq, Repr

def ruleOf (l : List Byte) : Rule :=
  { hook := numAt l 0 1, bays := numAt l 1 1, flags := numAt l 2 1, fmask := numAt l 3 1, vLo := numAt l 4 2, vHi := numAt l 6 2, iHi := numAt l 8 2, act := numAt l 10 1, arg := numAt l 12 4 }

/-- The flags of a bay's port, as R394 numbers them. -/
def State.ruleFlags (s : State) (n : Nat) : Nat :=
  let p := Pg.tc n
  b2n (s.tcSink n) + 2 * b2n (s.rd p TC.TC_STAT_pd_rev = 1) + 4 * b2n (s.on p TC.TC_CABLE_emarked) + 8 * b2n (s.on p TC.TC_STAT_epr) + 16 * b2n (s.tcWet n)

/-- An object or a request, if the hook concerns one, fits a rule: its voltage in 20 mV units within the range, of which 0 and 0xFFFF mean any, its current in 10 mA units at or below. -/
def Rule.fits (r : Rule) (x : Option (Nat × Nat)) : Bool := match x with
  | none => true
  | some (v, i) => (r.vLo = 0 || r.vLo = 0xFFFF || 50 * r.vLo ≤ 20 * v) && (r.vHi = 0 || r.vHi = 0xFFFF || 20 * v ≤ 50 * r.vHi) && i ≤ r.iHi

/-- The first rule of a bay's hook whose conditions all hold, in table order (R394): its action and argument; action 0, the default, when none does. A hook without an object puts no
condition on voltage and current (DEDUCED, log entry 150). -/
def State.policy (s : State) (n hook : Nat) (x : Option (Nat × Nat)) : Nat × Nat :=
  match ((tblEntries s.eng.tbl 0x01 (some n)).map ruleOf).find? (fun r =>
      r.hook = hook && bitOf r.bays n = 1 && s.ruleFlags n &&& r.fmask = r.flags &&& r.fmask && r.fits x) with
  | some r => (r.act, r.arg)
  | none => (0, 0)

/-- The allowed-contract entries of a bay (R395). -/
def State.allowed (s : State) (n : Nat) : List (List Byte) := (tblEntries s.eng.tbl 0x02 (some n)).filter (fun e => bitOf (numAt e 0 1) n = 1)

/-- An entry permits an object or a request of a kind, from voltage `v0` to `v`, at a current. -/
def entryPermits (e : List Byte) (kind v0 v i : Nat) : Bool :=
  numAt e 1 1 = kind && 50 * numAt e 2 2 ≤ 20 * v0 && 20 * v ≤ 50 * numAt e 4 2 && i ≤ numAt e 6 2

/-- A bay without entries is not restricted (R395). -/
def State.permits (s : State) (n kind v0 v i : Nat) : Bool := (s.allowed n).isEmpty || (s.allowed n).any (fun e => entryPermits e kind v0 v i)

/-- The answer of a hook that accepts, rejects or waits; its default where no rule decides. -/
def State.hookSays (s : State) (n hook : Nat) (x : Option (Nat × Nat)) (default : Hook) : Hook := match (s.policy n hook x).1 with
  | 1 => .reject
  | 2 => .wait
  | 3 => .accept
  | _ => default

/-- The dry_wait hook sets TC_MCFG where a rule decides (R358, R394); where none does the register stays as it stands (DESIGN CHOICE, log entry 151). -/
def State.dryHook (s : State) (n : Nat) : State :=
  let p := Pg.tc n
  let r := s.policy n 8 none
  if r.1 = 7 then ((s.wr p TC.TC_MCFG_dry_wait_s (r.2 % 256)).wr p TC.TC_MCFG_dry_cnt (r.2 / 256 % 256)).wr p TC.TC_MCFG_sink_wet (r.2 / 65536 % 2) else s

/-! ### Source capabilities (R337, R338, R348) -/

def State.pdpW (s : State) (n : Nat) : Nat := max 15 (min 240 (s.rd (Pg.tc n) TC.TC_PWR_pdp_w))
/-- vmax in 20 mV units, imax in 10 mA units. -/
def State.tcVmax (s : State) (n : Nat) : Nat := 5 * max 50 (min 480 (s.rd (Pg.tc n) TC.TC_PWR_vmax))
def State.tcImax (s : State) (n : Nat) : Nat := 5 * max 1 (min 100 (s.rd (Pg.tc n) TC.TC_PWR_imax))

/-- The objects of the Power Rules for a PDP: fixed ones, and PPS ones (PRESUMED, log entry 39). -/
def powerRules (w : Nat) (pps : Bool) : List Pdo :=
  [⟨0, 250, 250, 300⟩] ++ (if 15 < w then [⟨0, 450, 450, 300⟩] else []) ++ (if 27 < w then [⟨0, 750, 750, 300⟩] else [])
    ++ (if 45 < w then [⟨0, 1000, 1000, if 60 < w then 500 else 300⟩] else [])
    ++ (if !pps then [] else if w ≤ 15 then [⟨1, 165, 295, 300⟩] else [⟨1, 165, 550, 300⟩])
    ++ (if pps && 27 < w then [⟨1, 165, 800, 300⟩] else []) ++ (if pps && 45 < w then [⟨1, 165, 1050, if 60 < w then 500 else 300⟩] else [])

/-- The limits of TC_PWR and of the cable on an object: none when its voltage exceeds them. The 5 V object stays, at 0.5 A at least. -/
def State.capPdo (s : State) (n : Nat) (d : Pdo) : Option Pdo :=
  let p := Pg.tc n
  let ci := if s.on p TC.TC_CABLE_a5 then 500 else 300
  let cv := if s.on p TC.TC_CABLE_v50 then 2500 else if d.kind = 1 then 1050 else 1000
  let i := min (min d.i (s.tcImax n)) (min ci (s.pdpW n * 5000 / max 1 d.v))
  if d.kind = 0 && d.v = 250 then some { d with i := max 50 i }
  else if s.tcVmax n < d.v || cv < d.v then none
  else some { d with i := i }

/-- The bay's source capabilities; in EPR mode the EPR objects stand from position 8 on. -/
def State.srcCaps (s : State) (n : Nat) : List Pdo :=
  let spr := (powerRules (s.pdpW n) (s.on (Pg.tc n) TC.TC_CFG_pps_en)).filterMap (s.capPdo n)
  if s.on (Pg.tc n) TC.TC_STAT_epr then
    spr ++ List.replicate (7 - spr.length) ⟨0, 0, 0, 0⟩ ++ ([⟨2, 1400, 1400, 500⟩, ⟨2, 1800, 1800, 500⟩, ⟨2, 2400, 2400, 500⟩] : List Pdo).filterMap (s.capPdo n)
  else spr

/-- What a src_caps hook may leave of the bay's objects: objects of its own list, at no more current; anything beyond is cut and counted (R359). -/
def State.hookCaps (s : State) (n : Nat) (own ans : List Pdo) : List Pdo × State :=
  let fit := ans.filterMap (fun d => (own.find? (fun o => o.kind = d.kind && o.v = d.v && o.vmin = d.vmin)).map (fun o => { o with i := min o.i d.i }))
  let fit := if fit.any (fun d => d.v = 250 && d.kind = 0) then fit else own.filter (fun d => d.v = 250 && d.kind = 0) ++ fit
  (fit, if fit = ans then s else (s.bump (Pg.tc n) TC.TC_CNT2_hook_tmo 1).raise (Pg.tc n) TC.ev_hook_tmo)

/-- The objects that the bay's allowed-contract entries permit (R395). -/
def State.permitted (s : State) (n : Nat) (l : List Pdo) : List Pdo :=
  l.filter (fun d => d.v = 0 || s.permits n d.kind (if d.kind = 1 then d.vmin else d.v) d.v d.i)

/-- What the src_caps hook makes of the bay's objects (R358, R394): a rule removes an object or caps its current, and what no allowed-contract entry permits goes (R395). -/
def State.policyCaps (s : State) (n : Nat) (own : List Pdo) : List Pdo :=
  s.permitted n (own.filterMap (fun d => if d.v = 0 then some d else match s.policy n 1 (some (d.v, d.i)) with
    | (4, _) => none
    | (5, a) => some { d with i := min d.i a }
    | _ => some d))

/-- The objects that the bay offers, within R338 (R359). -/
def State.offer (s : State) (n : Nat) : List Pdo × State := s.hookCaps n (s.srcCaps n) (s.policyCaps n (s.srcCaps n))

/-- Source_Capabilities leave; after nCapsCount without GoodCRC the port stays in TYPEC_ONLY (R337). -/
def State.capsOut (s : State) (n : Nat) (acked : Bool) (l : List Pdo) : State :=
  let x := s.tc n
  let s := s.pdSend n (if s.on (Pg.tc n) TC.TC_STAT_epr then "EPR_Source_Capabilities" else "Source_Capabilities") (l.flatMap (fun d => [d.kind, d.vmin, d.v, d.i]))
  if acked then s.setTc n { x with capsN := 0, offered := l, wait := true, hook := 0, hookCaps := [] }
  else
    let s := s.bump (Pg.tc n) TC.TC_CNT1_tx_fail 1
    let s := s.setTc n { x with capsN := x.capsN + 1, offered := l, wait := false, hook := 0, hookCaps := [] }
    if 50 ≤ x.capsN + 1 then s.setTcSt n tcTypeC else s

/-- A cable that has not answered by the first capabilities (R348). -/
def State.cableNone (s : State) (n : Nat) : State :=
  let x := s.tc n
  if !x.cableAsk then s
  else
    let s := ((s.setTc n { x with cableAsk := false }).pdSend n "SOP' Discover Identity" []).pdSend n "SOP' Discover Identity" []
    s.raise (Pg.tc n) TC.ev_cable_found

/-- The bay sends Source_Capabilities; `late` says that the src_caps hook gives no answer in time. -/
def State.capsSend (s : State) (n : Nat) (acked late : Bool) : State :=
  let x := s.tc n
  if !s.tcLive n || s.polDown n || s.tcSt n != tcNegotiating || s.tcSink n || x.wait || x.hook != 0 then s
  else
    let s := s.cableNone n
    let s := if s.rd (Pg.tc n) TC.TC_STAT_pd_rev = 2 then s.wr (Pg.tc n) TC.TC_STAT_rp_adv 1 else s
    if late then s.setTc n { s.tc n with hook := 1, hookArg := [b2n acked], hookCaps := s.permitted n (s.srcCaps n) }
    else (s.offer n).2.capsOut n acked (s.offer n).1

def execSourceCapsSend (n : Bay) (acked late : Bool) (s : State) : Host.Outcome State Fault Refusal := s.run (fun s => s.capsSend n.val acked late)

def execSenderResponseTimeout (n : Bay) (s : State) : Host.Outcome State Fault Refusal :=
  s.run (fun s => if s.tcLive n.val && (s.tc n.val).wait then s.hardReset n.val 0x0A true else s)

/-! ### Own sequences (R344, R345) -/

/-- The message of the alternate-mode stage. -/
def altMsg (k : Nat) : String := match k with
  | 1 => "Discover Identity"
  | 2 => "Discover SVIDs"
  | 3 => "Discover Modes"
  | 4 => "Enter Mode"
  | 5 => "DP Status"
  | _ => "DP Configure"

/-- An own sequence starts on the wire. -/
def State.ownStart (s : State) (n code : Nat) : State :=
  let x := s.tc n
  match code with
  | 1 => (s.setTc n { x with capsN := 0, wait := false }).setTcSt n tcNegotiating
  | 2 => (s.setTc n { x with swap := 1 }).pdSend n "PR_Swap" []
  | 3 => (s.setTc n { x with swap := 6 }).pdSend n "VCONN_Swap" []
  | 4 => s.pdSend n (altMsg x.alt) (if x.alt = 6 then [b2n x.pinD] else [0xFF01])
  | _ => s

/-- The bay wants to start a sequence (R344): a PD 3.x Source sets SinkTxNG and waits tSinkTx first, a Sink waits until it sees SinkTxOK (DEDUCED, log entry 162). -/
def State.ownSeq (s : State) (n code : Nat) : State :=
  if s.rd (Pg.tc n) TC.TC_STAT_pd_rev != 2 then s.ownStart n code
  else
    let s := s.setTc n { s.tc n with deferred := code }
    if s.tcSink n then s else s.wr (Pg.tc n) TC.TC_STAT_rp_adv 1

def State.sinkTxEnd (s : State) (n : Nat) : State :=
  let x := s.tc n
  if !s.tcLive n || x.deferred = 0 then s else (s.setTc n { x with deferred := 0 }).ownStart n x.deferred

def execSinktxWaitEnd (n : Bay) (s : State) : Host.Outcome State Fault Refusal := s.run (fun s => s.sinkTxEnd n.val)

/-- An own sequence has ended: SinkTxOK returns. -/
def State.seqEnd (s : State) (n : Nat) : State :=
  if s.rd (Pg.tc n) TC.TC_STAT_pd_rev = 2 && !s.tcSink n && (s.tc n).deferred = 0 then s.wr (Pg.tc n) TC.TC_STAT_rp_adv 2 else s

/-- A partner's message: one that comes during tSinkTx defers the bay's own start. -/
def State.partnerMsg (s : State) (n : Nat) : State :=
  if (s.tc n).deferred = 0 then s else (s.bump (Pg.tc n) TC.TC_CNT2_collisions 1).raise (Pg.tc n) TC.ev_collision

/-- The specification revision that the partner shows (R336). -/
def State.pdRev (s : State) (n : Nat) (rev3 : Bool) : State := s.wr (Pg.tc n) TC.TC_STAT_pd_rev (if rev3 then 2 else 1)

/-- An alternate-mode VDM is due. -/
def State.altSend (s : State) (n k : Nat) : State := (s.setTc n { s.tc n with alt := k }).ownSeq n 4

/-! ### The contract (R341–R343, R371) -/

/-- The window and limit of a contract. -/
def State.contractWin (s : State) (n kind v i : Nat) : State :=
  if kind = 1 then s.vbWin n 150 (v + 25) (ceilDiv (5 * i) 4) else s.vbWin n (v * 85 / 100) (ceilDiv (v * 115) 100) (ceilDiv (5 * i) 4)

/-- Voltage and current in force: the contract's, else vSafe5V at the Type-C current. -/
def State.inForceV (s : State) (n : Nat) : Nat := let v := s.rd (Pg.tc n) TC.CONTRACT_v; if v = 0 then 250 else v
def State.inForceI (s : State) (n : Nat) : Nat := if s.rd (Pg.tc n) TC.CONTRACT_v = 0 then rpCurrent (s.rpLevel n) else s.rd (Pg.tc n) TC.CONTRACT_i

/-- The object that a Request names, if it was offered and is not exceeded: kind, voltage. -/
def State.reqObject (s : State) (n pos v i : Nat) : Option (Nat × Nat) :=
  if pos = 0 then none
  else match (s.tc n).offered[pos - 1]? with
    | none => none
    | some d => if d.v = 0 || d.i < i || (d.kind = 1 && (v < d.vmin || d.v < v)) then none else some (d.kind, if d.kind = 1 then v else d.v)

/-- Step 6a: what was in force stays. -/
def State.reqRefuse (s : State) (n : Nat) (msg : String) : State :=
  let s := ((s.pdSend n msg []).raise (Pg.tc n) TC.ev_contract_fail).seqEnd n
  s.setTcSt n (if s.rd (Pg.tc n) TC.CONTRACT_v = 0 then tcNegotiating else tcReady)

/-- Step 7. -/
def State.reqAccept (s : State) (n pos kind v i : Nat) : State :=
  let v0 := s.inForceV n
  let i0 := s.inForceI n
  let s := (s.pdSend n "Accept" []).vbWin n (min v0 v * 85 / 100) (ceilDiv (max v0 v * 115) 100) (ceilDiv (5 * max i0 i) 4)
  let s := s.wr (Pg.vbs n) VBS.VBS_STAT_state (if s.vbConducts n then vbMove else s.vb n)
  (s.setTc n { s.tc n with target := some (pos, kind, v, i), moved := v = v0 }).setTcSt n tcTransition

/-- A Request is answered as the request hook says; one outside the allowed contracts is rejected (R395). -/
def State.reqAnswer (s : State) (n pos v i : Nat) (ans : Hook) : State :=
  match s.reqObject n pos v i with
  | none => s.reqRefuse n "Reject"
  | some (kind, u) => match (if ans = .accept && !s.permits n kind u u i then Hook.reject else ans) with
    | .accept => s.reqAccept n pos kind u i
    | .reject => s.reqRefuse n "Reject"
    | .wait => s.reqRefuse n "Wait"
    | .late => s.setTc n { s.tc n with hook := 2, hookArg := [pos, v, i] }

/-- A Request (R341 step 6); `late` says that the request hook gives no answer in time. -/
def State.requestRx (s : State) (n : Nat) (rev3 : Bool) (pos v i : Nat) (late : Bool) : State :=
  let st := s.tcSt n
  if !s.tcLive n || s.tcSink n || !(st = tcNegotiating || st = tcReady) || (s.tc n).hook != 0 then s
  else
    let s := (s.partnerMsg n).pdRev n rev3
    let u := ((s.reqObject n pos v i).map (·.2)).getD v
    (s.setTc n { s.tc n with wait := false }).reqAnswer n pos v i (if late || s.polDown n then .late else s.hookSays n 2 (some (u, i)) .accept)

def execPdRequestRx (n : Bay) (rev3 : Bool) (pos v i : Nat) (late : Bool) (s : State) : Host.Outcome State Fault Refusal :=
  s.run (fun s => s.requestRx n.val rev3 pos v i late)

/-- Step 8. -/
def State.srcTransition (s : State) (n : Nat) : State :=
  let x := s.tc n
  if !s.tcLive n || s.tcSt n != tcTransition || x.moved then s
  else match x.target with
    | some (_, _, v, _) => (s.vbSet n v).setTc n { x with moved := true }
    | none => s

def execSrcTransitionExpiry (n : Bay) (s : State) : Host.Outcome State Fault Refusal := s.run (fun s => s.srcTransition n.val)

/-- A contract is recorded (R341 step 9). -/
def State.contractMade (s : State) (n pos kind v i : Nat) : State :=
  let p := Pg.tc n
  let s := (((s.wr p TC.CONTRACT_v v).wr p TC.CONTRACT_i i).wr p TC.CON_INFO_pos pos).wr p TC.CON_INFO_kind kind
  let s := (s.wr p TC.TC_STAT_pps (b2n (kind = 1))).bump p TC.TC_CNT0_contracts 1
  let s := (s.raise p TC.ev_contract).setTcSt n tcReady
  s.setTc n { s.tc n with target := none, asked := none, moved := false, hardN := 0 }

/-- The first explicit contract starts alternate mode (R349). -/
def State.altStart (s : State) (n : Nat) : State :=
  let x := s.tc n
  if x.cfg = 0 && s.on (Pg.tc n) TC.TC_CFG_alt_en && !x.altTried then (s.setTc n { x with altTried := true }).altSend n 1 else s

/-- PS_RDY: step 9 of R341, or the end of a swap to Source (R346). -/
def State.psRdySend (s : State) (n : Nat) : State :=
  let x := s.tc n
  if !s.tcLive n then s
  else if s.tcSt n = tcTransition && x.moved then
    match x.target with
    | some (pos, kind, v, i) =>
      let s := (s.pdSend n "PS_RDY" []).contractWin n kind v i
      let s := s.wr (Pg.vbs n) VBS.VBS_STAT_state (if s.vbConducts n then vbOn else s.vb n)
      (((s.contractMade n pos kind v i).seqEnd n)).altStart n
    | none => s
  else if s.tcSt n = tcSwap && x.swap = 5 then
    ((s.pdSend n "PS_RDY" []).setTc n { x with swap := 0, capsN := 0, wait := false }).setTcSt n tcNegotiating |>.raise (Pg.tc n) TC.ev_swap
  else s

def execPsRdySend (n : Bay) (s : State) : Host.Outcome State Fault Refusal := s.run (fun s => s.psRdySend n.val)

def execPpsTimeout (n : Bay) (s : State) : Host.Outcome State Fault Refusal :=
  s.run (fun s => if s.tcLive n.val && s.on (Pg.tc n.val) TC.TC_STAT_pps && !s.tcSink n.val then s.hardReset n.val 7 true else s)

/-- EPR_Mode (R343). -/
def State.eprMode (s : State) (n : Nat) (enter : Bool) : State :=
  let p := Pg.tc n
  if !s.tcLive n || s.tcSink n || s.tcSt n != tcReady then s
  else
    let s := s.partnerMsg n
    if !enter then ((s.wr p TC.TC_STAT_epr 0).setTc n { s.tc n with capsN := 0, wait := false }).setTcSt n tcNegotiating
    else if s.on p TC.TC_CFG_epr_en && 100 < s.pdpW n && 1400 ≤ s.tcVmax n && s.on p TC.TC_CABLE_v50 && s.on p TC.TC_CABLE_a5 then
      let s := ((s.pdSend n "EPR_Mode Enter Acknowledged" []).pdSend n "EPR_Mode Enter Succeeded" []).wr p TC.TC_STAT_epr 1
      let (l, s) := s.offer n
      let s := s.pdSend n "EPR_Source_Capabilities" (l.flatMap (fun d => [d.kind, d.vmin, d.v, d.i]))
      (s.setTc n { s.tc n with offered := l, wait := true }).setTcSt n tcNegotiating
    else (s.pdSend n "EPR_Mode Enter Failed" []).raise p TC.ev_contract_fail

def execPdEprModeRx (n : Bay) (enter : Bool) (s : State) : Host.Outcome State Fault Refusal := s.run (fun s => s.eprMode n.val enter)

def execEprKeepaliveRx (n : Bay) (s : State) : Host.Outcome State Fault Refusal :=
  s.run (fun s => if s.tcLive n.val && s.on (Pg.tc n.val) TC.TC_STAT_epr then (s.partnerMsg n.val).pdSend n.val "EPR_KeepAlive_Ack" [] else s)

def execEprKeepaliveTimeout (n : Bay) (s : State) : Host.Outcome State Fault Refusal :=
  s.run (fun s => if s.tcLive n.val && s.on (Pg.tc n.val) TC.TC_STAT_epr then s.hardReset n.val 8 true else s)

/-! ### As Sink (R340) -/

/-- The object without a table: the highest voltage at or below vmax. Position and object. -/
def State.sinkPick (s : State) (n : Nat) (caps : List Pdo) : Nat × Pdo :=
  let ok := (List.range caps.length).filterMap (fun k => match caps[k]? with
    | some d => if d.kind = 0 && d.v ≤ s.tcVmax n then some (k + 1, d) else none
    | none => none)
  ok.foldl (fun b x => if b.2.v < x.2.v then x else b) (1, caps.headD ⟨0, 250, 250, 0⟩)

/-- A Request leaves. -/
def State.sinkAsk (s : State) (n : Nat) (x : Nat × Pdo) : State :=
  let i := min x.2.i (s.tcImax n)
  (s.setTc n { s.tc n with asked := some (x.1, x.2.kind, x.2.v, i), hook := 0, hookCaps := [] }).pdSend n "Request" [x.1, x.2.v, i]

/-- The objects that the sink_select hook leaves, each with its position (R358, R394): a rule rejects or removes an object or caps its current; one that it accepts is taken before the others
(DESIGN CHOICE, log entry 152). -/
def State.sinkChoose (s : State) (n : Nat) (caps : List Pdo) : Nat × Pdo :=
  let rows := (List.range caps.length).filterMap (fun k => match caps[k]? with
    | none => none
    | some d => match s.policy n 3 (some (d.v, d.i)) with
      | (1, _) => none
      | (4, _) => none
      | (5, a) => some (k + 1, { d with i := min d.i a }, false)
      | (3, _) => some (k + 1, d, true)
      | _ => some (k + 1, d, false))
  let ok := rows.filter (fun x => x.2.1.kind = 0 && x.2.1.v ≤ s.tcVmax n)
  match (if ok.any (·.2.2) then ok.filter (·.2.2) else ok) with
  | [] => s.sinkPick n caps
  | x :: t => let y := t.foldl (fun b z => if b.2.1.v < z.2.1.v then z else b) x; (y.1, y.2.1)

/-- Capabilities of a Source partner; `late` says that the sink_select hook gives no answer in time. -/
def State.sourceCapsRx (s : State) (n : Nat) (rev3 : Bool) (caps : List Pdo) (late : Bool) : State :=
  if !s.tcLive n || !s.tcSink n || !s.tcAttached n || !(s.tcSt n = tcNegotiating || s.tcSt n = tcReady) then s
  else
    let s := (s.partnerMsg n).pdRev n rev3
    if late || s.polDown n then s.setTc n { s.tc n with hook := 3, hookCaps := caps } else s.sinkAsk n (s.sinkChoose n caps)

def execPdSourceCapsRx (n : Bay) (rev3 : Bool) (caps : List Pdo) (late : Bool) (s : State) : Host.Outcome State Fault Refusal :=
  s.run (fun s => s.sourceCapsRx n.val rev3 caps late)

/-! ### Swaps (R346, R347) -/

/-- An accepted PR_Swap begins; the mux has returned to USB before VBUS changes (R351). -/
def State.prSwapGo (s : State) (n : Nat) : State :=
  let s := s.altOff n
  let s := (s.noContract n).setTcSt n tcSwap
  if s.tcSink n then (s.vbTurnOff n 0 false).setTc n { s.tc n with swap := 4 }
  else (s.vbTurnOff n 0 false).setTc n { s.tc n with swap := 2 }

/-- A PD 2.0 bay waits for the answer to a sequence of its own: a swap, a VDM of alternate mode, or capabilities. If the partner starts one too, the Source continues its own and answers Wait,
the Sink yields (R345). -/
def State.crossed (s : State) (n : Nat) : Bool :=
  let x := s.tc n
  s.rd (Pg.tc n) TC.TC_STAT_pd_rev != 2 && (x.swap = 1 || x.swap = 6 || x.alt != 0 || (s.tcSt n = tcNegotiating && x.wait))

def State.crossCount (s : State) (n : Nat) : State := (s.bump (Pg.tc n) TC.TC_CNT2_collisions 1).raise (Pg.tc n) TC.ev_collision

/-- A swap request by the partner, with what its answer does. -/
def State.swapRx (s : State) (n : Nat) (f : State → State) : State :=
  if !s.tcLive n || !(s.tcSt n = tcReady || (s.tcSt n = tcNegotiating && s.crossed n)) || (s.tc n).hook != 0 then s
  else
    let s := s.partnerMsg n
    if s.crossed n then
      (if s.tcSink n then f ((s.crossCount n).setTc n { s.tc n with swap := 0, alt := 0 }) else (s.crossCount n).pdSend n "Wait" [])
    else f s

def State.prSwapAns (s : State) (n : Nat) (ans : Hook) : State :=
  if s.tcWet n then s.pdSend n "Reject" []
  else match ans with
    | .accept => (s.pdSend n "Accept" []).prSwapGo n
    | .reject => s.pdSend n "Reject" []
    | .wait => s.pdSend n "Wait" []
    | .late => s.setTc n { s.tc n with hook := 4 }

/-- `late` says that the pr_swap hook gives no answer in time. -/
def execPdPrSwapRx (n : Bay) (late : Bool) (s : State) : Host.Outcome State Fault Refusal :=
  s.run (fun s => s.swapRx n.val (fun s => s.prSwapAns n.val (if late || s.polDown n.val then .late else s.hookSays n.val 4 none .reject)))

def execPdDrSwapRx (n : Bay) (s : State) : Host.Outcome State Fault Refusal :=
  s.run (fun s => if s.tcLive n.val && s.tcAttached n.val then (s.partnerMsg n.val).pdSend n.val "Reject" [] else s)

/-- An accepted VCONN_Swap: the bay turns VCONN on before its own PS_RDY, or off after the partner's (R347). -/
def State.vconnSwapGo (s : State) (n : Nat) : State :=
  if s.on (Pg.tc n) TC.TC_STAT_vconn_on then (s.setTc n { s.tc n with swap := 7 }).setTcSt n tcSwap
  else
    let s := (s.vconn n true).pdSend n "PS_RDY" []
    ((s.setTc n { s.tc n with swap := 0 }).raise (Pg.tc n) TC.ev_swap).seqEnd n

def State.vconnSwapAns (s : State) (n : Nat) (ans : Hook) : State := match ans with
  | .accept => (s.pdSend n "Accept" []).vconnSwapGo n
  | .reject => s.pdSend n "Reject" []
  | .wait => s.pdSend n "Wait" []
  | .late => s.setTc n { s.tc n with hook := 5 }

/-- The vconn_swap hook accepts or rejects (R358); `late` says that it gives no answer in time. -/
def execPdVconnSwapRx (n : Bay) (late : Bool) (s : State) : Host.Outcome State Fault Refusal :=
  s.run (fun s => s.swapRx n.val (fun s => s.vconnSwapAns n.val (if late || s.polDown n.val then .late else if s.hookSays n.val 5 none .accept = .reject then .reject else .accept)))

/-- TC_CTL.pr_swap: only where the pr_swap hook lets the bay initiate, and never while wet (R346, R354). -/
def State.ownPrSwap (s : State) (n : Nat) (late : Bool) : State :=
  if !s.tcLive n || s.tcSt n != tcReady || s.tcWet n || (s.tc n).hook != 0 then s
  else if late || s.polDown n then s.setTc n { s.tc n with hook := 7 }
  else if (s.policy n 4 none).1 = 8 then s.ownSeq n 2
  else s

def execTcPrSwap (n : Bay) (late : Bool) (s : State) : Host.Outcome State Fault Refusal := s.run (fun s => s.ownPrSwap n.val late)

def execTcVconnSwap (n : Bay) (s : State) : Host.Outcome State Fault Refusal :=
  s.run (fun s => if s.tcLive n.val && s.tcSt n.val = tcReady then s.ownSeq n.val 3 else s)

/-- The partner answers a Request or a swap of the bay. -/
def State.response (s : State) (n : Nat) (a : PdAns) : State :=
  let x := s.tc n
  if !s.tcLive n then s
  else
    let s := s.partnerMsg n
    if x.swap = 1 then (match a with
      | .accept => s.prSwapGo n
      | _ => (s.setTc n { x with swap := 0 }).seqEnd n)
    else if x.swap = 6 then (match a with
      | .accept => s.vconnSwapGo n
      | _ => (s.setTc n { x with swap := 0 }).seqEnd n)
    else if x.asked.isSome then (match a with
      | .accept => s
      | _ => s.setTc n { x with asked := none })
    else s

def execPdResponseRx (n : Bay) (a : PdAns) (s : State) : Host.Outcome State Fault Refusal := s.run (fun s => s.response n.val a)

/-- The partner's PS_RDY. -/
def State.psRdyRx (s : State) (n : Nat) : State :=
  let p := Pg.tc n
  let x := s.tc n
  if !s.tcLive n then s
  else match x.swap with
    | 3 => ((s.setTc n { x with swap := 0, wait := false }).setTcSt n tcNegotiating).raise p TC.ev_swap
    | 4 => (((s.wr p TC.TC_STAT_prole 0).wr p TC.TC_STAT_partner 1).wr p TC.TC_STAT_rp_adv (s.rpLevel n)).sourceOn n |>.setTc n { x with swap := 5 }
    | 7 => ((((s.vconn n false).setTc n { x with swap := 0 }).setTcSt n tcReady).raise p TC.ev_swap).seqEnd n
    | _ => match x.asked with
      | some (pos, kind, v, i) =>
        if !s.tcSink n then s
        else (((s.vbWin n (v * 85 / 100) (ceilDiv (v * 115) 100) (ceilDiv (5 * i) 4)).vbTurnOn n true).contractMade n pos kind v i).altStart n
      | none => s

def execPdPsRdyRx (n : Bay) (s : State) : Host.Outcome State Fault Refusal := s.run (fun s => s.psRdyRx n.val)

def execSwapPsRdyTimeout (n : Bay) (s : State) : Host.Outcome State Fault Refusal :=
  s.run (fun s => if s.tcLive n.val && ((s.tc n.val).swap = 3 || (s.tc n.val).swap = 4) then s.errRecovery n.val else s)

/-- Discharge has ended (R374); an old Source of a PR_Swap then sends PS_RDY and is a Sink. -/
def State.dischDone (s : State) (n : Nat) : State :=
  if !(s.vb n = vbDisch || s.vb n = vbTrip) then s
  else
    let s := ((s.wr (Pg.vbs n) VBS.VBS_STAT_state vbOff).emit (.bay n "disch" [0])).raise (Pg.vbs n) VBS.ev_disch_done
    let x := s.tc n
    if s.life = .running && s.tcLive n && x.swap = 2 then
      (((s.wr (Pg.tc n) TC.TC_STAT_prole 1).wr (Pg.tc n) TC.TC_STAT_partner 2).wr (Pg.tc n) TC.TC_STAT_rp_adv 0).pdSend n "PS_RDY" [] |>.setTc n { x with swap := 3 }
    else s

def execDischargeDone (n : Bay) (s : State) : Host.Outcome State Fault Refusal := s.comp (fun s => s.dischDone n.val)

/-- TC_CTL.renegotiate: Source_Capabilities are sent again (R337); after two hard resets without a contract TYPEC_ONLY stays until detach (R356). -/
def State.renegotiate (s : State) (n : Nat) : State :=
  if s.tcLive n && s.tcAttached n && !s.tcSink n && (s.tcSt n = tcReady || (s.tcSt n = tcTypeC && (s.tc n).hardN < 2)) then s.ownSeq n 1 else s

def execTcRenegotiate (n : Bay) (s : State) : Host.Outcome State Fault Refusal := s.run (fun s => s.renegotiate n.val)

/-! ### VCONN and VDMs (R347–R351) -/

def State.vconnOc (s : State) (n : Nat) : State :=
  let p := Pg.tc n
  if !s.tcLive n || !s.on p TC.TC_STAT_vconn_on then s
  else
    let s := (((s.vconn n false).raise p TC.ev_vconn_err).wr p TC.TC_CABLE_emarked 0).wr p TC.TC_CABLE_a5 0
    let s := ((s.wr p TC.TC_CABLE_v50 0).wr p TC.TC_CABLE_dp_max 4).wr p TC.TC_CABLE_ss 0
    s.setTc n { s.tc n with cableAsk := false, ra := false }

def execVconnOvercurrent (n : Bay) (s : State) : Host.Outcome State Fault Refusal := s.run (fun s => s.vconnOc n.val)

/-- HPD as the partner reports it. -/
def State.altHpd (s : State) (n : Nat) (hpd irq : Bool) : State :=
  let p := Pg.tc n
  let was := s.on p TC.TC_ALT_hpd
  let s := if was = hpd then s else (s.wr p TC.TC_ALT_hpd (b2n hpd)).raise p TC.ev_hpd
  let s := if was && !hpd then s.hpdUnplug n else s
  if irq then s.emit (.bay n "irq hpd" []) else s

/-- Enter Mode is sent, unless the hook declines; `c` and `d` are what the partner's mode offers. -/
def State.altEnter (s : State) (n : Nat) (enter pinD : Bool) : State :=
  let x := s.tc n
  if !enter || !(if pinD then x.modeD else x.modeC) then (s.setTc n { x with alt := 0, hook := 0 }).seqEnd n
  else (s.setTc n { x with pinD := pinD, hook := 0 }).altSend n 4

/-- The alt_mode hook's answer to modes of which C is one or not (R358, R394): whether to enter, and with pin assignment D. -/
def State.altHook (s : State) (n : Nat) (c d : Bool) : Bool × Bool := match s.policy n 6 none with
  | (1, _) => (false, false)
  | (6, a) => (true, a = 4)
  | _ => (true, !c && d)

/-- A VDM (R348, R349); `late` says that the alt_mode hook gives no answer in time. -/
def State.vdmRx (s : State) (n : Nat) (m : Vdm) (late : Bool) : State :=
  let p := Pg.tc n
  let x := s.tc n
  let off := fun (s : State) => (s.setTc n { s.tc n with alt := 0 }).seqEnd n
  if !s.tcLive n || !s.tcAttached n then s
  else match m with
    | .cable a5 v50 dpMax ss =>
      if !x.cableAsk then s
      else
        let s := ((s.wr p TC.TC_CABLE_emarked 1).wr p TC.TC_CABLE_a5 (b2n a5)).wr p TC.TC_CABLE_v50 (b2n v50)
        let s := ((s.wr p TC.TC_CABLE_dp_max dpMax).wr p TC.TC_CABLE_ss ss).raise p TC.ev_cable_found
        s.setTc n { x with cableAsk := false }
    | .identity ack => if x.alt != 1 then s else if ack then (s.partnerMsg n).altSend n 2 else off s
    | .svids dp => if x.alt != 2 then s else if dp then (s.partnerMsg n).altSend n 3 else off s
    | .modes c d =>
      if x.alt != 3 then s
      else
        let s := (s.partnerMsg n).setTc n { x with modeC := c, modeD := d }
        if late || s.polDown n then s.setTc n { s.tc n with hook := 6 } else s.altEnter n (s.altHook n c d).1 (s.altHook n c d).2
    | .enter ack => if x.alt != 4 then s else if ack then (s.partnerMsg n).altSend n 5 else off s
    | .status hpd irq => if x.alt != 5 then s else ((s.partnerMsg n).altHpd n hpd irq).altSend n 6
    | .configure ack =>
      if x.alt != 6 then s
      else if !ack then off s
      else
        let s := (s.partnerMsg n).wr p TC.TC_ALT_entered 1
        let s := if x.pinD then s.tcMux n 3 else (s.tcMux n 1).tcMux n 2
        off (s.raise p TC.ev_alt_enter)
    | .attention hpd irq => if s.on p TC.TC_ALT_entered then (s.partnerMsg n).altHpd n hpd irq else s
    | .exitMode => (s.partnerMsg n).altOff n
    | .other => s.partnerMsg n

def execPdVdmRx (n : Bay) (m : Vdm) (late : Bool) (s : State) : Host.Outcome State Fault Refusal := s.run (fun s => s.vdmRx n.val m late)

def execTcExitAlt (n : Bay) (s : State) : Host.Outcome State Fault Refusal :=
  s.run (fun s => if s.tcLive n.val && s.on (Pg.tc n.val) TC.TC_ALT_entered then (s.pdSend n.val "Exit Mode" [0xFF01]).altOff n.val else s)

/-! ### Moisture (R352, R353) -/

/-- A bay's moisture threshold at a die temperature in °C: the curve 0x24 of the running table image; without one the register's reset value 0 (R352, R392, R393). -/
def State.moistThr (s : State) (n : Nat) (temp : Int) : Nat :=
  (curveAt ((tblEntries s.eng.tbl 0x24 (some n)).map (fun e => (signed 16 (numAt e 0 2), (numAt e 2 2 : Int)))) temp).toNat

/-- The readings of a measurement. -/
def State.moistRead (s : State) (n cc sbu thr : Nat) : State :=
  ((s.wr (Pg.tc n) TC.TC_MOIST_cc_kohm (min cc 65535)).wr (Pg.tc n) TC.TC_MOIST_sbu_kohm (min sbu 65535)).wr (Pg.tc n) TC.TC_MCFG_thr_kohm (min thr 65535)

/-- The port becomes wet; `late` says that the dry_wait hook gives no answer in time: its default are 10 s, 3 and 0 then (R358). -/
def State.becomeWet (s : State) (n : Nat) (late : Bool) : State :=
  let p := Pg.tc n
  let s := ((s.wr p TC.TC_STAT_moist 2).bump p TC.TC_CNT2_wet_entries 1).raise p TC.ev_wet
  let s := ((s.setTcSt n tcDryWait).tcCause n 6).wr p TC.TC_STAT_rp_adv 0
  let s := s.setTc n { s.tc n with wetN := 0, dryN := 0, seen := 0 }
  if late then
    let s := ((s.wr p TC.TC_MCFG_dry_wait_s 10).wr p TC.TC_MCFG_dry_cnt 3).wr p TC.TC_MCFG_sink_wet 0
    (s.bump p TC.TC_CNT2_hook_tmo 1).raise p TC.ev_hook_tmo
  else s.dryHook n

/-- A measurement while unattached: `term` says that a termination appeared in its window; `temp` is the die temperature. -/
def State.moistMeasure (s : State) (n : Nat) (term : Bool) (cc sbu : Nat) (temp : Int) (late : Bool) : State :=
  let thr := s.moistThr n temp
  let p := Pg.tc n
  let x := s.tc n
  if !s.tcLive n || s.tcSt n != tcUnattached || x.seen != 0 || term then s
  else
    let s := s.moistRead n cc sbu thr
    if min cc sbu < thr then
      (if 1 ≤ x.wetN then s.becomeWet n (late || s.polDown n) else (s.setTc n { x with wetN := 1 }).wr p TC.TC_STAT_moist 1)
    else (s.setTc n { x with wetN := 0 }).wr p TC.TC_STAT_moist 0

def execMoistureMeasure (n : Bay) (term : Bool) (cc sbu : Nat) (temp : Int) (late : Bool) (s : State) : Host.Outcome State Fault Refusal :=
  s.run (fun s => s.moistMeasure n.val term cc sbu temp late)

def State.dryMeasure (s : State) (n cc sbu : Nat) (temp : Int) : State :=
  let thr := s.moistThr n temp
  let x := s.tc n
  if !s.tcLive n || s.tcSt n != tcDryWait || x.seen != 0 then s
  else
    let s := s.moistRead n cc sbu thr
    let k := if 5 * thr < 4 * min cc sbu then x.dryN + 1 else 0
    if s.rd1 (Pg.tc n) TC.TC_MCFG_dry_cnt ≤ k then
      (((s.setTc n { x with dryN := 0 }).wr (Pg.tc n) TC.TC_STAT_moist 0).raise (Pg.tc n) TC.ev_dry).tcIdle n
    else s.setTc n { x with dryN := k }

def execDryWaitMeasure (n : Bay) (cc sbu : Nat) (temp : Int) (s : State) : Host.Outcome State Fault Refusal := s.run (fun s => s.dryMeasure n.val cc sbu temp)

/-! ### Late hooks (R358) -/

/-- A hook without an answer takes its default; while the bay's engine restarts nothing goes to the partner (R383). -/
def State.hookTimeout (s : State) (n : Nat) : State :=
  let x := s.tc n
  if !s.tcLive n || x.hook = 0 then s
  else
    let s := (s.bump (Pg.tc n) TC.TC_CNT2_hook_tmo 1).raise (Pg.tc n) TC.ev_hook_tmo
    let s := s.setTc n { x with hook := 0, hookArg := [], hookCaps := [] }
    if s.polDown n then s
    else match x.hook with
    | 1 => s.capsOut n (x.hookArg.headD 0 = 1) x.hookCaps
    | 2 => s.reqAnswer n (x.hookArg.getD 0 0) (x.hookArg.getD 1 0) (x.hookArg.getD 2 0) .accept
    | 3 => s.sinkAsk n (s.sinkPick n x.hookCaps)
    | 4 => s.prSwapAns n .reject
    | 5 => s.vconnSwapAns n .accept
    | 6 => s.altEnter n true (!x.modeC && x.modeD)
    | _ => s

def execHookTimeout (n : Bay) (s : State) : Host.Outcome State Fault Refusal := s.run (fun s => s.hookTimeout n.val)

/-! ### PORTSC.PP (R290, R291, R356) -/

/-- PP = 0 with pp_link: CC opens, the partner sees a detach, and the bay follows R355 with cause PP_OFF. -/
def State.ppClear (s : State) (n : Nat) : State :=
  if !s.on (Pg.tc n) TC.TC_CFG_pp_link then s
  else
    let s := s.setTc n { s.tc n with ppOff := true }
    if s.tcAttached n then (s.tcDetach n).tcCause n 9
    else if s.tcSt n = tcUnattached || s.tcSt n = tcAttachWait then s.tcIdle n else s

/-- PP = 1: an opened port presents its termination again; an attached Source whose switch is off turns it on, within its contract and its moisture state. -/
def State.ppSet (s : State) (n : Nat) : State :=
  let x := s.tc n
  if x.ppOff then
    let s := s.setTc n { x with ppOff := false }
    if s.tcSt n = tcDisabled && (x.cfg = 0 || x.cfg = 2) then s.tcIdle n else s
  else if s.tcAttached n && !s.tcSink n && !s.vbConducts n && (s.tcSt n = tcTypeC || s.tcSt n = tcNegotiating) then s.sourceOn n
  else s

def State.portscPp (s : State) (n port : Nat) (v : Bool) : State :=
  if !s.bayOn n then s
  else if port = 3 then
    (if !s.on (Pg.usb n) USB.USB_CFG_p3_en then s
     else
      let s := s.setUfn n { s.ufn n with pp3 := v }
      if v then s else s.portGone n 3)
  else if port = 1 && !s.portThere n 1 then s
  else if !s.tcLive n || s.tcWet n then s
  else if v then s.ppSet n else s.ppClear n

def execPortscPpWrite (n : Bay) (port : Fin 3) (v : Bool) (s : State) : Host.Outcome State Fault Refusal := s.run (fun s => s.portscPp n.val (port.val + 1) v)

/-! ### Over-temperature of the companion die (R370) -/

/-- The eFuse gate, every bay switch and VCONN turn off. -/
def State.compHot (s : State) : State :=
  let s : State := { s with pw := { s.pw with hot := true } }
  let s := (((s.efGate false).efPcg false).efPg false).efFlt true
  let s := ((s.setEf efOff).wr Pg.pwp PWP.EF_STAT_cause 5).raise Pg.hvd HVD.ev_thermal_sd
  s.each (List.range 4) (fun s n =>
    let s := s.vbTurnOff n 8 false
    if s.life = .running && s.tcAttached n then s.errRecovery n else s.vconn n false)

def execCompanionThermalShutdown (s : State) : Host.Outcome State Fault Refusal := s.comp State.compHot

/-- Below 110 °C: the eFuse restarts after the cooldown, the bays restart from UNATTACHED. -/
def State.compCool (s : State) : State :=
  if !s.pw.hot then s
  else
    let s : State := { s with pw := { s.pw with hot := false } }
    let s := if s.on Pg.pwp PWP.EF_CTL_off then s.efFlt false else (s.wr Pg.pwp PWP.EF_COOL_t_cool s.coolMin).setEf efCool
    if s.life != .running then s else s.each (List.range 4) (fun s n => if s.bayOn n then s.tcIdle n else s)

def execCompanionThermalRecover (s : State) : Host.Outcome State Fault Refusal := s.comp State.compCool

end Sys2Proof.Machine
end

