-- ==== Sys2Proof/Machine/Bays.lean ====
section
/-!
DEFINITION. Sys2Proof/Machine/Bays.lean: a bay is disabled and enabled (R470).
-/
namespace Sys2Proof.Machine

open Sys2Proof

/-- The bay's pages but for BAYn, and for VBSn, which `vbusReset` serves, hold their reset values. -/
def State.bayRegs (s : State) (n : Nat) : State :=
  let mine := fun (p : Nat) => Pg.bay n < p && p ≤ Pg.stg n && p != Pg.vbs n
  let away := fun (t : Store) => t.filter (fun e => !mine (e.1 / 131072))
  { s with regs := away s.regs, snap := away s.snap, evt := { s.evt with hold := s.evt.hold.filter (fun p => !mine p), due := s.evt.due.filter (fun p => !mine p), fresh := s.evt.fresh.filter (fun p => !mine p) } }

/-- Cells that a local function can send no more: an abort cell with its cause closes each packet that has begun, under the number of the first cell left out (R79; log entry 157). -/
def State.abortOpen (s : State) (cause : Nat) (l : List Wait) : State :=
  s.each ((l.map (fun w => (w.half, streamKey w.buf.cell))).eraseDups) (fun s k => match l.find? (fun w => (w.half, streamKey w.buf.cell) = k) with
    | none => s
    | some w =>
      let c := w.buf.cell
      let more := c.ctype != 1 && c.ctype != 4
      let s : State := { s with gran := { s.gran with seqs := Tab.put (seqKey c.tunnel c.dhub w.half) ((c.tseq + b2n more) % 65536) s.gran.seqs } }
      if more then s.fromLocal w.src (s.portFor w.half) ({ c with ctype := 0xF, psn := false, payload := [BitVec.ofNat 8 cause] } : Cell).seal else s)

/-- The bay's blocks are in reset: staging is empty, controllers, MAC and ports hold nothing; the Loft keeps its contents. -/
def State.bayClear (s : State) (n : Nat) : State :=
  let d := s.dh n
  let gone := s.gran.waiting.filter (fun w => w.src = n + 2)
  let s : State := { s with
    disp := Tab.put n { slot0 := d.slot0, slot1 := d.slot1 } s.disp, tcs := Tab.del n s.tcs, usb := Tab.del n s.usb, eth := Tab.del n s.eth, pcie := Tab.del n s.pcie,
    sched := { s.sched with shaped := s.sched.shaped.filter (fun x => x.src != n + 2) }, gran := { s.gran with waiting := s.gran.waiting.filter (fun w => w.src != n + 2) },
    xbr := { s.xbr with outst := s.xbr.outst.filter (fun o => o.init != 1 + n && o.init != 5 + n), waitl := s.xbr.waitl.filter (fun o => o.init != 1 + n && o.init != 5 + n), quar := s.xbr.quar.filter (fun q => q.init != 1 + n && q.init != 5 + n) } }
  (s.each gone (fun s w => s.release w.buf)).abortOpen 2 gone

/-- The bay's VBUS page at a main-die reset (R22, R361, R375): the switch turns off and discharges with cause MAIN_RESET; every register returns to its reset value, while state and cause of a switch that is
not off yet stand. -/
def State.vbusReset (s : State) (n : Nat) : State :=
  let p := Pg.vbs n
  let s := s.vbTurnOff n 7 false
  let st := s.vb n
  let c := s.rd p VBS.VBS_STAT_cause
  let away := fun (t : Store) => t.filter (fun e => e.1 / 131072 != p)
  let s : State := { s with regs := away s.regs, snap := away s.snap, evt := { s.evt with fresh := s.evt.fresh.filter (· != p) } }
  if st = vbOff then s else (s.wr p VBS.VBS_STAT_state st).wr p VBS.VBS_STAT_cause c

/-- The bay is held in reset as at a main-die reset (R470); while the supervised link is lost its switch holds (R21, R375). -/
def State.bayReset (s : State) (n : Nat) : State := ((if s.hvLink then s.vbusReset n else s).bayClear n).bayRegs n

def State.bayDisable (s : State) (n : Nat) : State := if !s.bayOn n then s else (s.bayReset n).wr (Pg.bay n) HDR.PG_CTL_en 0

def execBayDisable (n : Bay) (s : State) : Host.Outcome State Fault Refusal := s.run (fun s => s.bayDisable n.val)

/-- The bay starts as after a main-die reset. -/
def State.bayEnable (s : State) (n : Nat) : State :=
  if !s.present (Pg.bay n) || s.bayOn n then s else (((s.wr (Pg.bay n) HDR.PG_CTL_en 1).tcIdle n).pcieStart n)

def execBayEnable (n : Bay) (s : State) : Host.Outcome State Fault Refusal := s.run (fun s => s.bayEnable n.val)

end Sys2Proof.Machine
end

