-- ==== Sys2Proof/Machine/Mailbox.lean ====
section
/-!
DEFINITION. Sys2Proof/Machine/Mailbox.lean: the engines, their mailboxes and operations (R382–R387, R397, R400, R401, R410, R417), the service port's bulk endpoints (R384).
-/
namespace Sys2Proof.Machine

open Sys2Proof

/-- Operation codes (R386, R410). -/
def mbOp : MbReq → Nat
  | .getInfo => 0x01
  | .loadTiming _ => 0x10
  | .loadWindow _ _ _ => 0x11
  | .loadFreeze _ => 0x12
  | .updBegin _ _ => 0x20
  | .updData _ _ => 0x21
  | .updVerify => 0x22
  | .updCommit => 0x23
  | .updAbort => 0x24
  | .confirm => 0x25
  | .profilePin _ => 0x30
  | .keyWrite _ _ _ _ => 0x40
  | .keyDerive _ _ _ _ _ => 0x41
  | .keyInvalidate _ => 0x42
  | .keyMac _ _ => 0x43
  | .keyUpdate _ => 0x44
  | .gateClose => 0x45
  | .attest _ => 0x46
  | .unknown op _ => op

/-- The payload of a request (R386, R410). -/
def mbPayload : MbReq → List Byte
  | .loadTiming id => leBytes 4 0 ++ leBytes 4 id
  | .loadWindow w id _ => leBytes 4 w ++ leBytes 4 id
  | .loadFreeze id => leBytes 4 0 ++ leBytes 4 id
  | .updBegin k n => leBytes 4 k ++ leBytes 4 n
  | .updData o d => leBytes 8 o ++ d
  | .profilePin id => leBytes 2 id
  | .keyWrite k u b key => leBytes 1 k ++ leBytes 1 u ++ leBytes 6 (b2n b) ++ key
  | .keyDerive k p u l c => leBytes 1 k ++ leBytes 1 p ++ leBytes 2 u ++ l.take 4 ++ leBytes 8 c.length ++ c
  | .keyInvalidate k => leBytes 1 k
  | .keyMac k d => leBytes 4 k ++ leBytes 4 d.length ++ d
  | .keyUpdate m => m
  | .attest n => n
  | .unknown _ d => d
  | _ => []

/-- A message (R385). -/
def mbMsg (op seq status : Nat) (d : List Byte) : List Byte := leBytes 1 op ++ leBytes 1 seq ++ leBytes 1 status ++ [0] ++ leBytes 2 d.length ++ [0, 0] ++ d

/-! ### Operations (R386, R387) -/

/-- A word of block registers is written: the fields that software may write take its bits. -/
def State.wrWord (s : State) (p off v : Nat) : State := match pageKind p with
  | none => s
  | some k => s.each (k.rows.filterMap (fun r => r.at? off)) (fun s f => if f.acc = .rw || f.acc = .rwl then s.wr p f (v / 2 ^ f.lsb) else s)

def State.opGetInfo (s : State) : MbAns :=
  let x := s.eng
  if x.noProf then (mbProfile, [], s)
  else (mbOk, leBytes 4 (fwVersion x.fw) ++ leBytes 4 (fwSecVer x.fw) ++ leBytes 2 s.profileId ++ leBytes 1 x.lock ++ leBytes 1 (b2n x.rolled) ++ leBytes 4 (tblVersion x.tbl)
    ++ fwMeasure x.fw ++ (if x.tbl.isEmpty then List.replicate 48 0 else tblMeasure x.tbl), s)

def State.opLoadTiming (s : State) (n id : Nat) : MbAns :=
  let p := Pg.disp n
  if s.on p DISP.DISP_CTL_run then (mbState, [], s)
  else match tblFormat s.eng.tbl 0x10 (some n) id with
    | none => (mbNotFound, [], s)
    | some e => (mbOk, [], if s.alive p then (s.each (List.range 6) (fun s i => s.wrWord p (0x48 + 4 * i) (numAt e (4 * i) 4))).each (List.range 8) (fun s w => s.winCheck n w) else s)

/-- `stuck` says that the PX bus stayed in a cycle for 10 ms. -/
def State.opLoadWindow (s : State) (w id : Nat) (stuck : Bool) : MbAns :=
  if 7 < w then (mbBadArg, [], s)
  else match tblFormat s.eng.tbl 0x11 none id with
    | none => (mbNotFound, [], s)
    | some e =>
      let ws := (List.range 4).map (fun i => (0x60 + 0x10 * w + 4 * i, numAt e (4 * i) 4))
      if s.pxOwner = 0 then (mbOk, [], s.each ws (fun s x => s.wrWord Pg.pxb x.1 x.2))
      else if stuck then (mbState, [], s)
      else (mbOk, [], { s with xbr := { s.xbr with pxLate := s.xbr.pxLate ++ ws } })

def State.opLoadFreeze (s : State) (n id : Nat) : MbAns :=
  let p := Pg.frz n
  match tblFormat s.eng.tbl 0x12 (some n) id with
  | none => (mbNotFound, [], s)
  | some e =>
    if !s.alive p then (mbOk, [], s)
    else
      let s := s.each (List.range 5) (fun s i => s.wrWord p (0x40 + 4 * i) (numAt e (4 * i) 4))
      (mbOk, [], s.each (List.range 8) (fun s w =>
        let s := s.each (List.range 3) (fun s k => s.windowCfg n w k (numAt e (20 + 16 * w + 4 * k) 4))
        s.wr p (FRZ.WIN_REF_ref w) (numAt e (20 + 16 * w + 12) 4)))

/-! ### Updates (R401) -/

/-- Where a slot of a kind lies in the flash (R388). -/
def slotBase (kind slot : Nat) : Nat := if kind = 1 then 0x10000 + 0x300000 * slot else 0x610000 + 0x80000 * slot

/-- The slot of a kind that the boot record does not name as active. -/
def State.spareSlot (s : State) (kind : Nat) : Nat := 1 - (if kind = 1 then s.eng.boot.fw else s.eng.boot.tbl)

def State.opUpdBegin (s : State) (src kind size : Nat) : MbAns :=
  if s.update.kind != 0 then (mbLocked, [], s)
  else if (kind != 1 && kind != 2) || size = 0 || (if kind = 1 then 0x300000 else 0x80000) < size then (mbBadArg, [], s)
  else
    let slot := s.spareSlot kind
    (mbOk, leBytes 1 slot, { s with update := { kind := kind, owner := src, size := size } }.emit (.flash "erase" (slotBase kind slot) []))

/-- An update operation of the session's owner; without a session STATE (DESIGN CHOICE, log entry 45). -/
def State.inSession (s : State) (src : Nat) (f : State → MbAns) : MbAns :=
  if s.update.kind = 0 then (mbState, [], s) else if s.update.owner != src then (mbLocked, [], s) else f s

def State.opUpdData (s : State) (off : Nat) (d : List Byte) : MbAns :=
  let u := s.update
  if off % 16 != 0 || d.length = 0 || 480 < d.length || u.size < off + d.length then (mbBadArg, [], s)
  else (mbOk, [], { s with update := { u with chunks := u.chunks ++ [(off, d)], passed := false } }.emit (.flash "write" (slotBase u.kind (s.spareSlot u.kind) + off) d))

/-- The image that a session has written; an erased byte reads all ones. -/
def Update.image (u : Update) : List Byte :=
  u.chunks.foldl (fun l c => l.take c.1 ++ c.2 ++ l.drop (c.1 + c.2.length)) (List.replicate u.size 0xFF)

def State.opUpdVerify (s : State) : MbAns :=
  let u := s.update
  let l := u.image
  let ok := if u.kind = 1 then s.fwOk l && (fwProfiles l).contains s.profileId else s.tblOk l s.profileId
  let s : State := { s with update := { u with passed := ok } }
  if ok then (mbOk, if u.kind = 1 then fwMeasure l else tblMeasure l, s) else (mbVerifyFail, [], s)

/-- A boot record goes into the other copy of the flash (R389). -/
def State.writeBoot (s : State) (r : BootRec) : State :=
  let r := { r with seq := (s.eng.boot.seq + 1) % 2 ^ 32 }
  ({ s with eng := { s.eng with boot := r } }).emit (.flash "boot record" r.seq (([r.fw, r.tbl, r.prevFw, r.prevTbl, b2n r.trial, r.count]).map (BitVec.ofNat 8)))

def State.opUpdCommit (s : State) : MbAns :=
  let u := s.update
  let b := s.eng.boot
  if !u.passed then (mbState, [], s)
  else
    let slot := s.spareSlot u.kind
    let r := { b with fw := if u.kind = 1 then slot else b.fw, tbl := if u.kind = 1 then b.tbl else slot, prevFw := b.fw, prevTbl := b.tbl, trial := true, count := 0 }
    (mbOk, [], ({ s with update := {} }.writeBoot r).raise (Pg.eng 3) ENG.ev_update)

def State.opConfirm (s : State) : MbAns := (mbOk, [], (s.writeBoot { s.eng.boot with trial := false, count := 0 }).raise (Pg.eng 3) ENG.ev_update)

/-- CONFIRM while another source has a session open (R401: update operations of any other source). -/
def State.opConfirmFrom (s : State) (src : Nat) : MbAns := if s.update.kind != 0 && s.update.owner != src then (mbLocked, [], s) else s.opConfirm

def execUpdateIdleTimeout (s : State) : Host.Outcome State Fault Refusal := s.run (fun s => { s with update := {} })

/-! ### The profile pin (R400) and attestation (R417) -/

def State.opPin (s : State) (id : Nat) : MbAns :=
  if s.eng.pin = some id then (mbOk, [], s.emit (.flash "pin" id []))
  else if s.rd Pg.fus FUS.PROFILE_profile != 0 then (mbLocked, [], s)
  else match s.eng.pin with
    | some _ => (mbLocked, [], s)
    | none =>
      if !(fwProfiles s.eng.fw).contains id then (mbProfile, [], s)
      else (mbOk, [], { s with eng := { s.eng with pin := some id } }.emit (.flash "pin" id []))

def State.opAttest (s : State) (nonce : List Byte) : MbAns :=
  if nonce.length != 16 then (mbBadArg, [], s)
  else if !s.keyOk 9 then (mbNotFound, [], s)
  else
    let b := leBytes 8 s.devId ++ fwMeasure s.eng.fw ++ (if s.eng.tbl.isEmpty then List.replicate 48 0 else tblMeasure s.eng.tbl) ++ leBytes 2 s.profileId
    (mbOk, b ++ leBytes 2 (s.rootSlot + 2 * b2n (!s.eng.tbl.isEmpty && tblTagged s.eng.tbl)) ++ hmac (s.keyValue 9) (nonce ++ b), s)

/-! ### Serving a request -/

/-- Source codes of R384; 0 is the service port, which reaches E15. -/
def State.mbE8 (s : State) (r : MbReq) : MbAns := match r with
  | .keyWrite k u b key => s.opKeyWrite (k % 256) (u % 256) b key
  | .keyDerive k p u l c => s.opKeyDerive (k % 256) (p % 256) u l c
  | .keyInvalidate k => s.opKeyInvalidate (k % 256)
  | .keyMac k d => s.opKeyMac (k % 256) d
  | .gateClose => (mbOk, [], s.gateClose)
  | .keyUpdate m => s.opKeyUpdate m
  | .attest n => s.opAttest n
  | _ => (mbBadOp, [], s)

def State.mbE15 (s : State) (src : Nat) (r : MbReq) : MbAns := match r with
  | .updBegin k n => s.opUpdBegin src k n
  | .updData o d => s.inSession src (fun s => s.opUpdData o d)
  | .updVerify => s.inSession src (fun s => s.opUpdVerify)
  | .updCommit => s.inSession src State.opUpdCommit
  | .updAbort => s.inSession src (fun s => (mbOk, [], { s with update := {} }))
  | .confirm => s.opConfirmFrom src
  | .profilePin id => s.opPin (id % 65536)
  | .keyUpdate m => if src = 0 then s.opKeyUpdate m else (mbBadOp, [], s)
  | .attest n => if src = 0 then s.opAttest n else (mbBadOp, [], s)
  | _ => (mbBadOp, [], s)

/-- An engine serves a request (R386). -/
def State.mbServe (s : State) (src e : Nat) (r : MbReq) : MbAns :=
  if r = .getInfo then s.opGetInfo
  else if e = 8 then (if src = 3 then (mbBadOp, [], s) else s.mbE8 r)
  else if e = 15 then s.mbE15 src r
  else match r with
    | .loadTiming id => if 9 ≤ e && e ≤ 12 then s.opLoadTiming (e - 9) id else (mbBadOp, [], s)
    | .loadFreeze id => if 9 ≤ e && e ≤ 12 then s.opLoadFreeze (e - 9) id else (mbBadOp, [], s)
    | .loadWindow w id stuck => if e = 14 then s.opLoadWindow w id stuck else (mbBadOp, [], s)
    | _ => (mbBadOp, [], s)

/-! ### Mailboxes (R384, R385) -/

/-- Bytes are written at the start of a mailbox buffer; what lies behind them stays. -/
def State.mbFill (s : State) (e : Nat) (l : List Byte) : State :=
  s.each (List.range (ceilDiv (min 512 l.length) 4)) (fun s i =>
    let f := ENG.MB_DATA_data (128 * (e % 4) + i)
    let p := Pg.eng (e / 4)
    let new := (l.drop (4 * i)).take 4
    s.wr p f (ofLe (new ++ (leBytes 4 (s.rd p f)).drop new.length)))

def State.mbSt (s : State) (e : Nat) : Nat := s.rd (Pg.eng (e / 4)) (ENG.MB_STAT_st (e % 4))

/-- The engine's response (R385). -/
def State.mbRespond (s : State) (e op seq status : Nat) (d : List Byte) : State :=
  let p := Pg.eng (e / 4)
  let s := s.mbFill e (mbMsg op seq status d)
  ((s.wr p (ENG.MB_STAT_st (e % 4)) 2).wr p (ENG.MB_STAT_status (e % 4)) status).raise p (ENG.ev_mb_done (e % 4))

/-- The owner writes a request and go; an engine that does not run leaves it busy (R383). -/
def State.mbGo (s : State) (src e seq : Nat) (r : MbReq) : State :=
  let p := Pg.eng (e / 4)
  if s.rd p (ENG.MB_OWN_owner (e % 4)) != src || s.mbSt e = 1 then s
  else
    let s := s.mbFill e (mbMsg (mbOp r) seq 0 (mbPayload r))
    if s.engState e != engRunning then s.wr p (ENG.MB_STAT_st (e % 4)) 1
    else
      let (st, d, s) := s.mbServe src e r
      s.mbRespond e (mbOp r) seq st d

/-- A bulk OUT transfer of the service port is one request to E15, answered in one bulk IN transfer (R384). -/
def State.svcBulk (s : State) (seq : Nat) (r : MbReq) : State :=
  if !s.svc.up || s.rd Pg.svc SVC.SVC_STAT_state != 3 || s.on Pg.svc SVC.SVC_STAT_suspended || s.svc.halts.contains 1 || s.engState 15 != engRunning then s
  else
    let (st, d, s) := s.mbServe 0 15 r
    s.svcNote "svc bulk in" ((mbMsg (mbOp r) seq st d).map BitVec.toNat)

def execSvcBulkOut (seq : Nat) (r : MbReq) (s : State) : Host.Outcome State Fault Refusal := s.run (fun s => s.svcBulk seq r)

def execMailboxClaim (src : Fin 3) (e : Fin 16) (s : State) : Host.Outcome State Fault Refusal :=
  s.run (fun s => if s.rd (Pg.eng (e.val / 4)) (ENG.MB_OWN_owner (e.val % 4)) = 0 then s.wr (Pg.eng (e.val / 4)) (ENG.MB_OWN_owner (e.val % 4)) (src.val + 1) else s)

/-- The mailbox is free again, its status idle (DESIGN CHOICE, log entry 46). -/
def State.mbFree (s : State) (e : Nat) : State := (s.wr (Pg.eng (e / 4)) (ENG.MB_OWN_owner (e % 4)) 0).wr (Pg.eng (e / 4)) (ENG.MB_STAT_st (e % 4)) 0

def execMailboxRelease (e : Fin 16) (s : State) : Host.Outcome State Fault Refusal := s.run (fun s => if s.mbSt e.val = 1 then s else s.mbFree e.val)

def execMailboxOwnTimeout (e : Fin 16) (s : State) : Host.Outcome State Fault Refusal :=
  s.run (fun s =>
    let p := Pg.eng (e.val / 4)
    if s.mbSt e.val = 1 || s.rd p (ENG.MB_OWN_owner (e.val % 4)) = 0 then s else (s.mbFree e.val).bump p (ENG.ENG_CNT_own_tmo (e.val % 4)) 1)

def execGetInfo (src : Fin 3) (e : Fin 16) (seq : Nat) (s : State) : Host.Outcome State Fault Refusal := s.run (fun s => s.mbGo (src.val + 1) e.val seq .getInfo)
def execLoadTiming (src : Fin 3) (e : Fin 16) (seq id : Nat) (s : State) : Host.Outcome State Fault Refusal := s.run (fun s => s.mbGo (src.val + 1) e.val seq (.loadTiming id))
def execLoadWindow (src : Fin 3) (e : Fin 16) (seq w id : Nat) (stuck : Bool) (s : State) : Host.Outcome State Fault Refusal :=
  s.run (fun s => s.mbGo (src.val + 1) e.val seq (.loadWindow w id stuck))
def execLoadFreeze (src : Fin 3) (e : Fin 16) (seq id : Nat) (s : State) : Host.Outcome State Fault Refusal := s.run (fun s => s.mbGo (src.val + 1) e.val seq (.loadFreeze id))
def execUpdBegin (src : Fin 3) (e : Fin 16) (seq kind size : Nat) (s : State) : Host.Outcome State Fault Refusal := s.run (fun s => s.mbGo (src.val + 1) e.val seq (.updBegin kind size))
def execUpdData (src : Fin 3) (e : Fin 16) (seq off : Nat) (d : List Byte) (s : State) : Host.Outcome State Fault Refusal := s.run (fun s => s.mbGo (src.val + 1) e.val seq (.updData off d))
def execUpdVerify (src : Fin 3) (e : Fin 16) (seq : Nat) (s : State) : Host.Outcome State Fault Refusal := s.run (fun s => s.mbGo (src.val + 1) e.val seq .updVerify)
def execUpdCommit (src : Fin 3) (e : Fin 16) (seq : Nat) (s : State) : Host.Outcome State Fault Refusal := s.run (fun s => s.mbGo (src.val + 1) e.val seq .updCommit)
def execUpdAbort (src : Fin 3) (e : Fin 16) (seq : Nat) (s : State) : Host.Outcome State Fault Refusal := s.run (fun s => s.mbGo (src.val + 1) e.val seq .updAbort)
def execConfirm (src : Fin 3) (e : Fin 16) (seq : Nat) (s : State) : Host.Outcome State Fault Refusal := s.run (fun s => s.mbGo (src.val + 1) e.val seq .confirm)
def execProfilePin (src : Fin 3) (e : Fin 16) (seq id : Nat) (s : State) : Host.Outcome State Fault Refusal := s.run (fun s => s.mbGo (src.val + 1) e.val seq (.profilePin id))
def execKeyWrite (src : Fin 3) (e : Fin 16) (seq slot use : Nat) (burn : Bool) (key : List Byte) (s : State) : Host.Outcome State Fault Refusal :=
  s.run (fun s => s.mbGo (src.val + 1) e.val seq (.keyWrite slot use burn key))
def execKeyDerive (src : Fin 3) (e : Fin 16) (seq slot parent use : Nat) (label context : List Byte) (s : State) : Host.Outcome State Fault Refusal :=
  s.run (fun s => s.mbGo (src.val + 1) e.val seq (.keyDerive slot parent use label context))
def execKeyInvalidate (src : Fin 3) (e : Fin 16) (seq slot : Nat) (s : State) : Host.Outcome State Fault Refusal := s.run (fun s => s.mbGo (src.val + 1) e.val seq (.keyInvalidate slot))
def execKeyMac (src : Fin 3) (e : Fin 16) (seq slot : Nat) (d : List Byte) (s : State) : Host.Outcome State Fault Refusal := s.run (fun s => s.mbGo (src.val + 1) e.val seq (.keyMac slot d))
def execKeyUpdate (src : Fin 3) (e : Fin 16) (seq : Nat) (m : List Byte) (s : State) : Host.Outcome State Fault Refusal := s.run (fun s => s.mbGo (src.val + 1) e.val seq (.keyUpdate m))
def execGateClose (src : Fin 3) (e : Fin 16) (seq : Nat) (s : State) : Host.Outcome State Fault Refusal := s.run (fun s => s.mbGo (src.val + 1) e.val seq .gateClose)
def execAttest (src : Fin 3) (e : Fin 16) (seq : Nat) (nonce : List Byte) (s : State) : Host.Outcome State Fault Refusal := s.run (fun s => s.mbGo (src.val + 1) e.val seq (.attest nonce))

/-! ### Watchdogs and restarts (R382, R383) -/

/-- E15 stops an engine and loads its image again. -/
def State.engStop (s : State) (e : Nat) : State := s.wr (Pg.eng (e / 4)) (ENG.ENG_STAT_state (e % 4)) 4

/-- Its own watchdog resets the main die (WATCHDOG_RESET). -/
def execEngineWatchdogExpiry (e : Fin 15) (s : State) : Host.Outcome State Fault Refusal :=
  s.run (fun s =>
    let p := Pg.eng (e.val / 4)
    if s.engState e.val != engRunning then s else ((s.engStop e.val).bump p (ENG.ENG_CNT_wdg_exp (e.val % 4)) 1).raise p (ENG.ev_wdg (e.val % 4)))

def execEngineRestart (e : Fin 16) (s : State) : Host.Outcome State Fault Refusal :=
  s.run (fun s => if e.val = 15 || !(s.engState e.val = engRunning || s.engState e.val = 3) then s else s.engStop e.val)

/-- The engine runs again and a request in its mailbox completes with BUSY, or its image's digest is wrong and it halts. -/
def State.engBack (s : State) (e : Nat) (ok : Bool) : State :=
  let p := Pg.eng (e / 4)
  if s.engState e != 4 then s
  else if !ok then (s.wr p (ENG.ENG_STAT_state (e % 4)) 3).raise (Pg.eng 3) ENG.ev_table_err
  else
    let s := ((s.wr p (ENG.ENG_STAT_state (e % 4)) engRunning).bump p (ENG.ENG_CNT_restarts (e % 4)) 1).raise p (ENG.ev_restart (e % 4))
    if s.mbSt e = 1 then
      let w := s.rd p (ENG.MB_DATA_data (128 * (e % 4)))
      s.mbRespond e (w % 256) (w / 256 % 256) mbBusy []
    else s

def execEngineRestartComplete (e : Fin 16) (ok : Bool) (s : State) : Host.Outcome State Fault Refusal := s.run (fun s => s.engBack e.val ok)

/-! ### Curves (R393, R397) -/

/-- The points that fill eight registers. -/
def fill8 (l : List (Nat × Nat)) : List (Nat × Nat) := (l ++ List.replicate 8 (l.getLastD (0, 0))).take 8

/-- A curve's whole set is written. -/
def State.curveWrite (s : State) (cooldown : Bool) : State :=
  let l := fill8 (tblCurve s.eng.tbl (if cooldown then 0x21 else 0x20))
  s.each (List.range 8) (fun s k =>
    let x := l.getD k (0, 0)
    if cooldown then (s.wr Pg.pwp (PWP.CDN_e k) x.1).wr Pg.pwp (PWP.CDN_t k) x.2 else (s.wr Pg.pwp (PWP.FBK_vds k) x.1).wr Pg.pwp (PWP.FBK_frac k) x.2)

/-- The eFuse is in a state whose curve stands. -/
def State.curveStands (s : State) : Bool := s.ef = efRamp || s.ef = efLimit || s.ef = efCool

/-- E7 writes a curve, or waits until the eFuse is outside RAMP, LIMIT and COOLDOWN. -/
def State.curveLoad (s : State) (cooldown : Bool) : State :=
  if (tblCurve s.eng.tbl (if cooldown then 0x21 else 0x20)).isEmpty || !s.hvLink || s.engState 7 != engRunning then s
  else if s.curveStands then { s with eng := { s.eng with curves := s.eng.curves.filter (· != cooldown) ++ [cooldown] } }
  else s.curveWrite cooldown

/-- Curves that E7 holds back are written as time next passes (log entry 164). -/
def State.curvesDue (s : State) : State :=
  if s.life != .running || s.eng.curves.isEmpty || s.curveStands || !s.hvLink || s.engState 7 != engRunning then s
  else ({ s with eng := { s.eng with curves := [] } }).each s.eng.curves State.curveWrite

def execCurveLoad (cooldown : Bool) (s : State) : Host.Outcome State Fault Refusal := s.run (fun s => s.curveLoad cooldown)

end Sys2Proof.Machine
end

