-- ==== Sys2Proof/Machine/Trunk.lean ====
section
/-!
DEFINITION. Sys2Proof/Machine/Trunk.lean: the commands of the trunk ports (R28–R61): bring-up, sideband, equalisation, lanes, RECOVER, link loss,
Type-C attach, beacons.
-/
namespace Sys2Proof.Machine

open Sys2Proof

/-! ### PORT_CFG.port_en and PORT_CTL (R39, R59, R61) -/

/-- Bring-up may start: the straps give the part trunk ports (R14, R15). -/
def State.hasTrunks (s : State) : Bool := s.mode = .hub || s.mode = .head

def State.portEnable (s : State) (p : Port) : State :=
  let s := s.setTrk p TRK.PORT_CFG_port_en 1
  if s.hasTrunks && s.pst p = stDisabled then s.enterDetect p else s

def execPortEnable (p : Port) (s : State) : Host.Outcome State Fault Refusal := s.run (fun s => s.portEnable p)

def State.portDisable (s : State) (p : Port) : State :=
  let s := s.setTrk p TRK.PORT_CFG_port_en 0
  if s.isUp p then s.deliberateDown p dnForced
  else if s.pst p = stDown || s.pst p = stSleep then s
  else s.enterDisabled p

def execPortDisable (p : Port) (s : State) : Host.Outcome State Fault Refusal := s.run (fun s => s.portDisable p)

def State.portHoldDown (s : State) (p : Port) (v : Bool) : State :=
  let s := s.setTrk p TRK.PORT_CTL_hold_down (b2n v)
  if v && s.isUp p then s.deliberateDown p dnForced
  else if s.pst p = stDisabled || s.pst p = stDown || s.pst p = stSleep then s
  else if v then s.enterDetect p
  else if s.pst p = stDetect then s.enterDetect p else s

def execPortHoldDown (p : Port) (v : Bool) (s : State) : Host.Outcome State Fault Refusal := s.run (fun s => s.portHoldDown p v)

def State.portRenego (s : State) (p : Port) : State :=
  let s := s.setTrk p TRK.PORT_STAT_failed 0
  if s.isUp p then s.deliberateDown p dnForced
  else if s.pst p = stNegotiate || s.pst p = stTrain || s.pst p = stAlign then
    (s.setTrunk p { s.trunk p with partner := none }).enterNegotiate p
  else s

def execPortRenego (p : Port) (s : State) : Host.Outcome State Fault Refusal := s.run (fun s => s.portRenego p)

def execPortRetrain (p : Port) (s : State) : Host.Outcome State Fault Refusal := s.run (fun s => s.startRecover p false)

/-! ### Media and Type-C attach (R34, R52, R53) -/

/-- The 200 ms window ends (R34): the medium is twinax, also where the cable's attach was declared before the window opened (DESIGN CHOICE, log entry 127). -/
def State.mediaAuto (s : State) (p : Port) (signal : Bool) : State :=
  let t := s.trunk p
  if t.autoWin && t.medium = 0 then
    let s := s.setTrunk p { t with medium := 1, autoWin := false }
    if signal && s.pst p = stDetect then s.enterNegotiate p else s
  else s

def execMediaAutoTimeout (p : Port) (signal : Bool) (s : State) : Host.Outcome State Fault Refusal := s.run (fun s => s.mediaAuto p signal)

/-- The termination that the port presents: 0 Rd, 1 Rp, 3 open. -/
def State.ownTerm (s : State) (p : Port) : Nat :=
  if s.on (Pg.trk p) TRK.TTC_STAT_attached then (s.trunk p).ccTerm
  else match s.trkF p TRK.TTC_CFG_cc_role with
    | 0 => 0
    | 1 => 1
    | 2 => (s.trunk p).ccTerm
    | _ => 3

/-- The port's medium is or may become Type-C. -/
def State.ccInUse (s : State) (p : Port) : Bool := s.trkF p TRK.PORT_CFG_media = 0 || s.trkF p TRK.PORT_CFG_media = 3

def State.ccToggle (s : State) (p : Port) : State :=
  let t := s.trunk p
  if s.trkF p TRK.TTC_CFG_cc_role = 2 && !s.on (Pg.trk p) TRK.TTC_STAT_attached && t.ccSeen = 0 then
    (s.setTrunk p { t with ccTerm := 1 - t.ccTerm }).emit (.bay (Port.idx p) "trunk CC termination" [1 - t.ccTerm])
  else s

def execTrunkCcToggle (p : Port) (s : State) : Host.Outcome State Fault Refusal := s.run (fun s => s.ccToggle p)

def State.ccSight (s : State) (p : Port) (line : Nat) : State :=
  if s.on (Pg.trk p) TRK.TTC_STAT_attached || s.ownTerm p = 3 then s else s.setTrunk p { s.trunk p with ccSeen := if line = 1 ∨ line = 2 then line else 0 }

def execTrunkCcTerminationChange (p : Port) (line : Nat) (s : State) : Host.Outcome State Fault Refusal := s.run (fun s => s.ccSight p line)

def State.ccAttach (s : State) (p : Port) : State :=
  let t := s.trunk p
  let own := s.ownTerm p
  if s.on (Pg.trk p) TRK.TTC_STAT_attached || t.ccSeen = 0 || own = 3 || !s.ccInUse p then s
  else
    let s := s.setTrk p TRK.TTC_STAT_attached 1
    let s := s.setTrk p TRK.TTC_STAT_orient (t.ccSeen - 1)
    let s := s.setTrk p TRK.TTC_STAT_partner_term (if own = 0 then 2 else 1)
    let s := s.setTrunk p { t with ccTerm := own, medium := if t.autoWin then 3 else t.medium, autoWin := false }
    s.raise (Pg.trk p) TRK.ev_cc_attach

def execTrunkCcAttach (p : Port) (s : State) : Host.Outcome State Fault Refusal := s.run (fun s => s.ccAttach p)

/-- Detach (R52, R58, R39, R42): marks and snapshot go, an up link goes down with CC_DETACH, a port on its way returns to DETECT. -/
def State.ccDetach (s : State) (p : Port) : State :=
  if !s.on (Pg.trk p) TRK.TTC_STAT_attached then s
  else
    let typec := (s.trunk p).medium = 3
    let s := s.setTrk p TRK.TTC_STAT_attached 0
    let s := s.setTrk p TRK.TTC_STAT_partner_term 0
    let s := s.setTrk p TRK.PORT_STAT_failed 0
    let s := s.setTrunk p { s.trunk p with ccSeen := 0, snap := none }
    let s := s.raise (Pg.trk p) TRK.ev_cc_detach
    if !typec then s
    else if s.isUp p then s.linkDown p dnCcDetach
    else if s.pst p = stDetect || s.pst p = stNegotiate || s.pst p = stTrain || s.pst p = stAlign then s.enterDetect p
    else s

def execTrunkCcDetach (p : Port) (s : State) : Host.Outcome State Fault Refusal := s.run (fun s => s.ccDetach p)

/-! ### Sideband frames (R36–R38) -/

/-- A frame is valid (R36): delimiters, six bytes, CRC-8 over type and payload. -/
def sbValid (f : SbFrame) : Bool := f.delims && f.bytes.length = 6 && numAt f.bytes 5 1 = crc8 (f.bytes.take 5)

/-- What every sideband frame does: a bad one is counted, a valid one keeps the sideband up (R36, R38). With a module SB_RX is no sideband (R33). -/
def State.sbFrame (s : State) (p : Port) (f : SbFrame) (type : Nat) (act : State → State) : State :=
  if !(s.trkF p TRK.PORT_CFG_sb_en = 1) || s.optical p then s
  else if !sbValid f then s.bump (Pg.trk p) TRK.SB_ERR_sb_crc 1
  else
    let s := s.setTrk p TRK.SB_STAT_last_type (numAt f.bytes 0 1)
    let s := (s.setTrk p TRK.SB_STAT_partner_seen 1).setTrk p TRK.SB_STAT_up 1
    let s := s.setTrk p TRK.PORT_STAT_sb_up 1
    let s := s.setTrunk p { s.trunk p with sbSeen := true }
    let s := if s.mayNegotiate p then s.enterNegotiate p else s
    if numAt f.bytes 0 1 = type then act s else s

/-- A hop page as carried in four bytes (R37). -/
def pageOf (l : List Byte) : HopPage :=
  { modes := numAt l 0 1 % 16, lanes := numAt l 1 1 % 16, head := bitOf (numAt l 1 1) 4 = 1, media := numAt l 2 1, seq := numAt l 3 1 }

/-- Record the partner's page. -/
def State.recordPage (s : State) (p : Port) (g : HopPage) : State :=
  (s.setTrunk p { s.trunk p with partner := some g }).setTrk p TRK.PORT_STAT_partner_allow g.modes

/-- In NEGOTIATE a page leads to selection (R39 step 6, R40). -/
def State.pageRx (s : State) (p : Port) (g : HopPage) : State :=
  let s := s.recordPage p g
  if s.pst p = stNegotiate && !(s.trunk p).failWait && !(s.trunk p).p1Try then s.selectAck p else s

def execHopPageRx (p : Port) (f : SbFrame) (s : State) : Host.Outcome State Fault Refusal :=
  s.run (fun s => s.sbFrame p f 1 (fun s => s.pageRx p (pageOf (f.bytes.drop 1))))

/-- The selection that a HOP_ACK names, seen from this end: the partner's transmit lanes are received here (R37). -/
def ackOf (l : List Byte) : HopSel := ⟨numAt l 0 1, (numAt l 1 1 >>> 2) % 4, numAt l 1 1 % 4⟩

/-- The partner's selection: TRAIN where it names the same mode and lanes, else back to step 6 on its next page (R39 step 8). -/
def State.ackRx (s : State) (p : Port) (g : HopSel) : State :=
  if s.pst p != stNegotiate then s
  else match (s.trunk p).sel with
    | none => s
    | some h =>
      if h = g then (if s.on (Pg.trk p) TRK.PORT_STAT_inband && (s.trunk p).trained = g.mode then s.enterAlign p else s.enterTrain p g)
      else s.setTrunk p { s.trunk p with sel := none }

def execHopAckRx (p : Port) (f : SbFrame) (s : State) : Host.Outcome State Fault Refusal :=
  s.run (fun s => s.sbFrame p f 2 (fun s => s.ackRx p (ackOf (f.bytes.drop 1))))

def execKeepaliveRx (p : Port) (f : SbFrame) (s : State) : Host.Outcome State Fault Refusal := s.run (fun s => s.sbFrame p f 3 id)

/-- The port is negotiating on the sideband. -/
def State.sbNegotiates (s : State) (p : Port) : Bool :=
  s.pst p = stNegotiate && s.sideband p && !s.on (Pg.trk p) TRK.PORT_STAT_inband && !(s.trunk p).failWait && !(s.trunk p).p1Try

def execHopPageSend (p : Port) (s : State) : Host.Outcome State Fault Refusal :=
  s.run (fun s => if s.sbNegotiates p then s.sbSend p 1 (s.pageBytes p) else s)

def execHopAckSend (p : Port) (s : State) : Host.Outcome State Fault Refusal :=
  s.run (fun s => match (s.trunk p).sel with
    | some g => if s.sbNegotiates p then s.sbSend p 2 (s.ackBytes p g) else s
    | none => s)

def execKeepaliveSend (p : Port) (s : State) : Host.Outcome State Fault Refusal :=
  s.run (fun s => if s.hasSideband p && (s.trunk p).txOn then s.sbSend p 3 [s.pst p, s.trkF p TRK.PORT_STAT_rx_lanes] else s)

def State.sidebandLost (s : State) (p : Port) : State :=
  if !s.on (Pg.trk p) TRK.PORT_STAT_sb_up then s
  else
    let s := s.setTrk p TRK.PORT_STAT_sb_up 0
    let s := (s.setTrk p TRK.SB_STAT_up 0).setTrk p TRK.SB_STAT_partner_seen 0
    let s := s.setTrunk p { s.trunk p with inbandDue := true }
    s.raise (Pg.trk p) TRK.ev_sb_err

def execSidebandLost (p : Port) (s : State) : Host.Outcome State Fault Refusal := s.run (fun s => s.sidebandLost p)

/-! ### Negotiation and training (R39, R40, R42) -/

/-- Step 4 of R39 by signal-detect, or by a valid sideband frame. -/
def State.negotiate (s : State) (p : Port) (sb : Bool) : State :=
  if s.mayNegotiate p then
    let s := if sb then s.setTrunk p { s.trunk p with sbSeen := true } else s
    s.enterNegotiate p
  else s

def execEnterNegotiate (p : Port) (sb : Bool) (s : State) : Host.Outcome State Fault Refusal := s.run (fun s => s.negotiate p sb)

def execInbandNegotiate (p : Port) (s : State) : Host.Outcome State Fault Refusal :=
  s.run (fun s =>
    if s.pst p = stNegotiate && !(s.trunk p).failWait && !(s.trunk p).p1Try && (s.trunk p).training = 0 &&
        (!(s.trunk p).sbSeen || !s.sideband p) then s.goInband p else s)

/-- A training frame of the partner in NEGOTIATE (R39 step 5a): the port joins the in-band path, records the page, and takes up a selection carried with it. -/
def State.trainingFrame (s : State) (p : Port) (page ack : List Byte) : State :=
  if s.pst p != stNegotiate || (s.trunk p).failWait then s
  else
    let s := if s.on (Pg.trk p) TRK.PORT_STAT_inband then s else s.goInband p
    if s.pst p != stNegotiate || (s.trunk p).failWait || (s.trunk p).p1Try then s
    else
      let s := s.pageRx p (pageOf page)
      if ack.isEmpty then s else s.ackRx p (ackOf ack)

def execTrainingFrameRx (p : Port) (page ack : List Byte) (s : State) : Host.Outcome State Fault Refusal := s.run (fun s => s.trainingFrame p page ack)

def State.trainingConverged (s : State) (p : Port) : State :=
  if s.pst p = stTrain && !(s.trunk p).p1Try then s.enterAlign p
  else if s.pst p = stNegotiate && s.on (Pg.trk p) TRK.PORT_STAT_inband && (s.trunk p).training != 0 && !(s.trunk p).p1Try then
    s.setTrunk p { s.trunk p with trained := (s.trunk p).training }
  else s

def execTrainingConverged (p : Port) (s : State) : Host.Outcome State Fault Refusal := s.run (fun s => s.trainingConverged p)

/-- Training, ALIGN or the P1 attempt ran out of time (R39 steps 9a to 9c, R42). -/
def State.trainingTimeout (s : State) (p : Port) : State :=
  let t := s.trunk p
  if s.pst p = stTrain || s.pst p = stAlign then
    match t.sel with
    | some g =>
      if !s.on (Pg.trk p) TRK.PORT_STAT_fast then s.modeFailed p g.mode
      else
        let s := s.setTrk p TRK.PORT_STAT_fast 0
        if g.mode = mdP1 then s.p1Start p else s.enterTrain p g
    | none => s.modeFailed p t.training
  else if s.pst p = stNegotiate && t.p1Try then s.trainFail p
  else if s.pst p = stNegotiate && s.on (Pg.trk p) TRK.PORT_STAT_inband && t.training != 0 && t.trained = 0 then
    (((s.markFailed p t.training).setTrunk p { t with training := 0 }).pageStep p).goInband p
  else s

def execTrainingTimeout (p : Port) (s : State) : Host.Outcome State Fault Refusal := s.run (fun s => s.trainingTimeout p)

def execTrainFailRetry (p : Port) (s : State) : Host.Outcome State Fault Refusal :=
  s.run (fun s => if s.pst p = stNegotiate && (s.trunk p).failWait then s.enterNegotiate p else s)

def execP1Attempt (p : Port) (s : State) : Host.Outcome State Fault Refusal :=
  s.run (fun s => if s.pst p = stNegotiate && !(s.trunk p).failWait && !(s.trunk p).p1Try && s.noMode p then s.p1Start p else s)

/-- Forerunner alignment within 50 ms (R39 step 9b); the identify exchange tells whether the partner is a P1200 (R114). -/
def State.p1Aligned (s : State) (p : Port) (is : Bool) (serial beyond : Nat) : State :=
  if (s.pst p = stNegotiate || s.pst p = stTrain) && (s.trunk p).p1Try then
    let s := s.setTrunk p { s.trunk p with isP1200 := is, serial := serial, beyond := beyond, sel := some ⟨mdP1, 1, 1⟩ }
    let s := if is then s.raise Pg.chn CHN.ev_p1200_seen else s
    s.linkUp p ⟨mdP1, 1, 1⟩
  else s

def execP1Aligned (p : Port) (is : Bool) (serial beyond : Nat) (s : State) : Host.Outcome State Fault Refusal :=
  s.run (fun s => s.p1Aligned p is serial beyond)

def execLinkUp (p : Port) (s : State) : Host.Outcome State Fault Refusal :=
  s.run (fun s => match (s.trunk p).sel with
    | some g => if s.pst p = stAlign then s.linkUp p g else s
    | none => s)

/-! ### Equalisation (R43–R45) -/

def execEqSetpointWrite (p : Port) (off v : Nat) (s : State) : Host.Outcome State Fault Refusal := s.run (fun s => s.eqSetpoint p off v)

def execEqEnvelopeWrite (p : Port) (off v : Nat) (s : State) : Host.Outcome State Fault Refusal := s.run (fun s => s.eqEnvelope p off v)

/-- A partner's FFE request (R43, R45): in TRAIN and RECOVER only; beyond FFE_ENV the answer is "at limit" (1). -/
def State.ffeRequest (s : State) (p : Port) (lane pre post : Nat) : State :=
  if !(s.pst p = stTrain || s.pst p = stRecover) then s
  else
    let limit := s.trkF p TRK.FFE_ENV_pre_max < pre ∨ s.trkF p TRK.FFE_ENV_post_max < post
    let s := if s.on (Pg.trk p) (ffeHold lane) then s else s.ffeSet p lane pre post
    let s := if limit then s.eqPin p (ffePin lane) else s
    s.emit (.training p 6 [BitVec.ofNat 8 lane, if limit then 1 else 0])

def execFfeRequestRx (p : Port) (lane : Fin 2) (pre post : Nat) (s : State) : Host.Outcome State Fault Refusal :=
  s.run (fun s => s.ffeRequest p lane.val pre post)

/-! ### Lanes (R46–R49) -/

/-- Tell the partner the receive lanes in use and the lane lost: on the sideband, or by a hop control cell (R47, R66). -/
def State.laneNotice (s : State) (p : Port) (rx lost : Nat) : State :=
  if s.on (Pg.trk p) TRK.PORT_STAT_sb_up then s.sbSend p 4 [rx, lost]
  else s.setLink p { s.link p with hopCtl := (s.link p).hopCtl ++ [leBytes 1 0x01 ++ leBytes 1 rx ++ leBytes 1 lost ++ [0, 0]] }

/-- A lane is declared lost (R46, R47): cause 1 LOS, 2 LOCK, 0x0B SER. With no lane left the link goes down with that cause. -/
def State.laneLost (s : State) (p : Port) (lane cause : Nat) : State :=
  let rx := s.trkF p TRK.PORT_STAT_rx_lanes
  if !(s.pst p = stUp || s.pst p = stDegraded) || bitOf rx lane = 0 then s
  else
    if rx = 2 ^ lane then s.linkDown p cause
    else
      let s := s.setTrk p (laneFlags lane) (1 + (if cause = dnLos then 0 else if cause = dnLock then 8 else 14))
      let s := s.bump (Pg.trk p) TRK.LINK_CNT_lane_losses 1
      let s := s.raise (Pg.trk p) TRK.ev_lane_lost
      let s := s.setLanes p (s.trkF p TRK.PORT_STAT_tx_lanes) (rx - 2 ^ lane)
      (s.laneNotice p (rx - 2 ^ lane) lane).linkReport p 2

def execLaneLost (p : Port) (lane : Fin 2) (cause : Nat) (s : State) : Host.Outcome State Fault Refusal := s.run (fun s => s.laneLost p lane.val cause)

/-- The partner's notice (R47, R84): this end stripes onto the lanes that the partner receives. -/
def execLaneNoticeRx (p : Port) (delims : Bool) (bytes : List Byte) (s : State) : Host.Outcome State Fault Refusal :=
  s.run (fun s => s.sbFrame p ⟨delims, bytes⟩ 4 (fun s => s.laneNoticeIn p (numAt bytes 1 1) (numAt bytes 2 1)))

def State.laneReady (s : State) (p : Port) (lane : Nat) : State :=
  if s.isUp p && bitOf (s.trkF p (laneFlags lane)) 0 = 1 && bitOf (s.trunk p).readyLanes lane = 0 then
    let s := s.setTrunk p { s.trunk p with readyLanes := (s.trunk p).readyLanes ||| 2 ^ lane }
    let s := s.setTrk p (laneFlags lane) 15
    (s.raise (Pg.trk p) TRK.ev_lane_ready).linkReport p 3
  else s

def execLaneReady (p : Port) (lane : Fin 2) (s : State) : Host.Outcome State Fault Refusal := s.run (fun s => s.laneReady p lane.val)

/-! ### RECOVER (R50, R51, R75) -/

def execUncorrectableLimit (p : Port) (n : Nat) (s : State) : Host.Outcome State Fault Refusal :=
  s.run (fun s =>
    let s := s.bump (Pg.trk p) TRK.FEC_UNC_fec_unc n
    if s.rd1 (Pg.trk p) TRK.DEGRADE_CFG_unc_max ≤ n then s.startRecover p false else s)

def State.recoverRx (s : State) (p : Port) (ack : Bool) : State :=
  if ack then s
  else
    let s := s.startRecover p false
    if s.pst p = stRecover && s.on (Pg.trk p) TRK.PORT_STAT_sb_up then s.sbSend p 5 [2] else s

/-- The partner's RECOVER: a sideband frame, or, with none, its training frames on a hop without a sideband (R50). -/
def execRecoverRx (p : Port) (f : Option SbFrame) (s : State) : Host.Outcome State Fault Refusal :=
  s.run (fun s => match f with
    | some f => s.sbFrame p f 5 (fun s => s.recoverRx p (numAt f.bytes 1 1 = 2))
    | none => s.recoverRx p false)

/-- After a RECOVER the receiver is in replay-wait and the transmitter replays every unacknowledged cell behind an rs status: a replay like any other, where there are such cells
(R75). The stream on the lanes starts anew (DESIGN CHOICE, log entry 123). -/
def State.linkAfterRecover (s : State) (p : Port) : State :=
  let l := s.link p
  let s := s.setLink p { l with replayWait := true, replayRx := none, owedRs := some l.ackCount, replayAt := none, owedRetrain := none, sinceRecover := true, txUnit := 0, rxUnit := 0 }
  if l.store.isEmpty then s else s.countReplay p

def State.recoverComplete (s : State) (p : Port) : State :=
  if s.pst p != stRecover then s
  else
    let t := s.trunk p
    let tx := s.trkF p TRK.PORT_STAT_tx_lanes
    let rx := s.trkF p TRK.PORT_STAT_rx_lanes
    let s := s.setTrunk p { t with recLink := false }
    let s := s.setPst p (if tx = t.fullTx && rx = t.fullRx then stUp else stDegraded)
    (s.raise (Pg.trk p) TRK.ev_recover).linkAfterRecover p

def execRecoverComplete (p : Port) (s : State) : Host.Outcome State Fault Refusal := s.run (fun s => s.recoverComplete p)

def execRecoverTimeout (p : Port) (s : State) : Host.Outcome State Fault Refusal :=
  s.run (fun s => if s.pst p = stRecover then s.linkDown p (if (s.trunk p).recLink then dnLinkLayer else dnRecover) else s)

/-! ### Link loss and DOWN (R58, R59) -/

/-- Loss on every active lane, CC detach or module loss-of-signal (R58). -/
def State.linkLoss (s : State) (p : Port) (cause : Nat) : State :=
  let s := if cause = dnModuleLos then s.setTrunk p { s.trunk p with snap := none } else s
  if cause = dnCcDetach then s.ccDetach p
  else if s.isUp p then s.linkDown p cause
  else
    let s := if cause = dnModuleLos then s.setTrk p TRK.PORT_STAT_failed 0 else s
    if s.pst p = stTrain || s.pst p = stAlign then s.enterDetect p else s

def execLinkLoss (p : Port) (cause : Nat) (s : State) : Host.Outcome State Fault Refusal := s.run (fun s => s.linkLoss p cause)

def execDownNoticeRx (a : SbArrival) (s : State) : Host.Outcome State Fault Refusal :=
  s.run (fun s => s.sbFrame a.port a.frame 7 (fun s => s.linkDown a.port dnPartner))

def execNegotiateTimeout (p : Port) (s : State) : Host.Outcome State Fault Refusal :=
  s.run (fun s => if s.pst p = stNegotiate then s.enterDetect p else s)

def execDownStateExpiry (p : Port) (s : State) : Host.Outcome State Fault Refusal :=
  s.run (fun s =>
    if s.pst p != stDown then s
    else if s.trkF p TRK.PORT_CFG_port_en = 0 then s.enterDisabled p
    else s.enterDetect p)

/-! ### Sleep notices and beacons (R55–R57) -/

def execSleepNoticeRx (p : Port) (f : SbFrame) (s : State) : Host.Outcome State Fault Refusal :=
  s.run (fun s => s.sbFrame p f 6 (fun s => s.setTrunk p { s.trunk p with partnerSleep := numAt f.bytes 1 1 }))

/-- Fast training from the snapshot (R42): steps 5 to 8 are skipped. A P1 hop seeks its alignment at once. -/
def State.fastTrain (s : State) (p : Port) (g : HopSel) : State :=
  let s := ((s.setPst p stTrain).setTrk p TRK.PORT_STAT_fast 1).takeCfg p
  let s := (s.setTrunk p { s.trunk p with sel := some g, training := g.mode, p1Try := g.mode = mdP1, snap := some g }).setTx p true
  if g.mode = mdP1 then s.emit (.training p 4 []) else s.emit (.training p 3 (leBytes 1 g.mode))

/-- A beacon starts (R56): a port in P0 with beacon_en, its link not up and not held down. -/
def State.beacon (s : State) (p : Port) : State :=
  if s.on (Pg.trk p) TRK.PORT_CFG_beacon_en && (s.pst p = stDetect || s.pst p = stNegotiate) && !s.on (Pg.trk p) TRK.PORT_CTL_hold_down then
    (s.setPst p stBeacon).beaconOut p true
  else s

def execBeaconSend (p : Port) (s : State) : Host.Outcome State Fault Refusal := s.run (fun s => s.beacon p)

/-- The partner answers a beacon (R56): on to step 4 of R39, which waits for the medium and, on Type-C, for the attach (R34, R53); a port with a snapshot trains from it (R42). -/
def State.beaconMet (s : State) (p : Port) : State :=
  if s.pst p != stBeacon then s
  else
    let s := (s.beaconOut p false).setPst p stDetect
    if !s.mayNegotiate p then s
    else match (s.trunk p).snap with
      | some g => s.fastTrain p g
      | none => s.enterNegotiate p

def execBeaconAnswered (p : Port) (s : State) : Host.Outcome State Fault Refusal := s.run (fun s => s.beaconMet p)

def execBeaconTimeout (p : Port) (s : State) : Host.Outcome State Fault Refusal :=
  s.run (fun s => if s.pst p = stBeacon then (s.enterDetect p).raise (Pg.trk p) TRK.ev_beacon_unanswered else s)

/-! ### Loops and line measurements (R43, R44, R61) -/

/-- A receive lane's loops move (R43): each takes a free value, but for a held one; a value beyond its envelope stays at the bound and pins (R44). -/
def State.adaptLane (s : State) (p : Port) (lane : Nat) : State :=
  let held := fun (f : Fld) => s.on (Pg.trk p) f
  let (a, s) := s.draw 6
  let s := if held (if lane = 0 then TRK.EQ_HOLD_ctle_l0 else TRK.EQ_HOLD_ctle_l1) then s
    else s.eqSet p (if lane = 0 then TRK.CTLE_SET_ctle_l0 else TRK.CTLE_SET_ctle_l1) (ctlePin lane) (s.trkF p TRK.CTLE_ENV_ctle_min) (s.trkF p TRK.CTLE_ENV_ctle_max) a
  let s := s.each [0, 1, 2] (fun s x =>
    let (b, s) := s.draw 32
    if held (if lane = 0 then TRK.EQ_HOLD_dfe_l0 else TRK.EQ_HOLD_dfe_l1) then s else s.dfeSet p lane x b)
  let (c, s) := s.draw 1
  if c = 1 && !held (if lane = 0 then TRK.EQ_HOLD_cdr_l0 else TRK.EQ_HOLD_cdr_l1) then s.eqPin p (if lane = 0 then TRK.EQ_PIN_cdr_l0 else TRK.EQ_PIN_cdr_l1) else s

/-- What the receiver counts and sees on its lanes (R61): symbol errors and eye margins of the lanes in use, corrected codewords where the mode has them. -/
def State.senseLanes (s : State) (p : Port) : State :=
  let rx := s.trkF p TRK.PORT_STAT_rx_lanes
  let s := s.each [0, 1] (fun s k =>
    if bitOf rx k = 0 then s
    else
      let (n, s) := s.draw 16
      let (e, s) := s.draw 8
      (s.bump (Pg.trk p) (if k = 0 then TRK.SYM_CNT_sym_l0 else TRK.SYM_CNT_sym_l1) n).setTrk p (if k = 0 then TRK.LANE_STAT_eye_l0 else TRK.LANE_STAT_eye_l1) e)
  let m := s.trkF p TRK.PORT_STAT_mode
  if m = mdG1 || m = mdG2 then
    let (n, s) := s.draw 32
    s.bump (Pg.trk p) TRK.FEC_CORR_fec_corr n
  else s

/-- What passes on the lanes of both ports while time goes by: the loops of TRAIN, UP, DEGRADED and RECOVER, the measurements of a link that is up (DESIGN CHOICE, log entry 128). -/
def State.lanesLive (s : State) : State :=
  if s.life != .running then s
  else s.each [Port.tu, Port.td] (fun s p =>
    let s := if s.pst p = stTrain || s.isUp p then (s.adaptLane p 0).adaptLane p 1 else s
    if s.isUp p then s.senseLanes p else s)

end Sys2Proof.Machine
end

