-- ==== Sys2Proof/Machine/Boot.lean ====
section
/-!
DEFINITION. Sys2Proof/Machine/Boot.lean: the resets of the main die (R22, R448), their release with the straps (R446), the boot sequence (R389–R402, R411, R450).
-/
namespace Sys2Proof.Machine

open Sys2Proof

/-! ### Main-die resets (R22, R361, R375, R448) -/

/-- The pages that no main-die reset touches: the companion die's and the fuses; and, but for a power-on reset, the always-on PWS page. -/
def keptPage (por : Bool) (p : Nat) : Bool := isCompanion p || p = Pg.fus || (!por && p = Pg.pws)

/-- The main die's blocks at their reset values. Kept: the companion die, fuses and burnt rows, what stands in the flash; the PWS page, GLB.RST_CAUSE and Cellar bank 7 unless power was lost. -/
def State.mainDie (s : State) (por : Bool) : State :=
  let kept := s.regs.filter (fun e => keptPage por (e.1 / 131072))
  let regs := kept.foldl (fun r e => Tab.put e.1 e.2 r) (Store.hold (resetEntries s.mode) [])
  let eng : EngCtx := { bank7 := if por then none else s.eng.bank7 }
  let t : State := {
    regs := regs, mode := s.mode, compat := s.compat, refsel := s.refsel, life := .inReset, now := s.now, free := s.free, pw := { s.pw with mirror := none }, eng := eng,
    larder := { rows := s.larder.rows, cnts := s.larder.cnts }, pm := { hot := s.pm.hot, noLock := s.pm.noLock }, outbox := s.outbox, pending := s.pending, intN := s.intN,
    snap := if por then [] else s.snap.filter (fun e => e.1 / 131072 = Pg.pws) }
  let t := (t.wr Pg.hvd HVD.HVD_STAT_link 0).wr Pg.lrd LRD.UPD_CNT_counter t.cntFloor
  let t := (t.wr Pg.glb GLB.GLB_STAT_compat (b2n s.compat)).wr Pg.glb GLB.GLB_STAT_refsel (b2n s.refsel)
  if por then t else t.wr Pg.glb GLB.RST_CAUSE_cause (s.rd Pg.glb GLB.RST_CAUSE_cause)

/-- A main-die reset: bit of GLB.RST_CAUSE (R451). -/
def State.mainReset (s : State) (bit : Nat) : State :=
  let asleep := s.life = .p2 || s.life = .p3
  let s := (s.each (List.range 4) (fun s n => s.vbusReset n)).mainDie (bit = 0)
  let s := s.emit (.note "main-die reset" [bit])
  if bit = 0 then s.wr Pg.glb GLB.RST_CAUSE_cause 1
  else
    let s := s.wr Pg.glb GLB.RST_CAUSE_cause (s.rd Pg.glb GLB.RST_CAUSE_cause ||| 2 ^ bit)
    let s := s.wr Pg.pws PWS.PWS_STAT_state 0
    if asleep then s.wr Pg.pws PWS.WAKE_CAUSE_valid 0 else s

def execPowerOnReset (s : State) : Host.Outcome State Fault Refusal := s.always (fun s => s.mainReset 0)
def execPinReset (s : State) : Host.Outcome State Fault Refusal := s.always (fun s => s.mainReset 1)

/-- GLB.RST_CTL is written with key and go, or HUB_RESET comes due (none). -/
def State.commandReset (s : State) (v : Option Nat) : State := match v with
  | some w => if bitsOf w 15 8 = 0xA5 && bitOf w 0 = 1 then s.mainReset 2 else s
  | none => match s.takeArmed 5 with
    | (some _, t) => t.mainReset 2
    | (none, t) => t

def execCommandReset (v : Option Nat) (s : State) : Host.Outcome State Fault Refusal := s.run (fun s => s.commandReset v)
def execWatchdogReset (s : State) : Host.Outcome State Fault Refusal := s.run (fun s => s.mainReset 3)
def execThermalReset (s : State) : Host.Outcome State Fault Refusal := s.always (fun s => { s.mainReset 4 with pm := { (s.mainReset 4).pm with hot := true } })

/-- The root PLL runs in P0 and P1 only. -/
def execClockReset (s : State) : Host.Outcome State Fault Refusal := s.run (fun s => { s.mainReset 5 with pm := { (s.mainReset 5).pm with noLock := true } })

/-! ### Release (R14, R15, R408, R446, R450) -/

def modeOf (k : Nat) : Mode := if k = 0 then .hub else if k = 1 then .head else if k = 2 then .standalone else .reserved

/-- The straps latch. -/
def State.strap (s : State) (k : Nat) (compat refsel : Bool) : State :=
  let m := modeOf k
  let bare := (resetEntries s.mode).foldl (fun r e => Tab.del (fkey e.1 e.2.1) r) s.regs
  let s : State := { s with mode := m, compat := compat, refsel := refsel, regs := Store.hold (resetEntries m) bare }
  let s := (s.wr Pg.glb GLB.GLB_STAT_compat (b2n compat)).wr Pg.glb GLB.GLB_STAT_refsel (b2n refsel)
  if m = .reserved then s.raise Pg.glb GLB.ev_strap_fault else s

/-- A reset is released; the fuses are sensed and the debug state follows them. -/
def State.resetRelease (s : State) (k : Nat) (compat refsel pll : Bool) (tj : Nat) : State :=
  if s.life != .inReset || (s.pm.noLock && !pll) || (s.pm.hot && 110 ≤ tj) then s
  else
    let s : State := { s with life := .running, pm := {} }
    let s := (s.strap k compat refsel).wr Pg.clk CLK.CLK_STAT_pll_lock (b2n pll)
    if s.on Pg.fus FUS.SEC_debug then s.debugOn else s

def execResetRelease (k : Fin 4) (compat refsel pll : Bool) (tj : Nat) (s : State) : Host.Outcome State Fault Refusal :=
  s.always (fun s => s.resetRelease k.val compat refsel pll tj)

/-! ### Boot (R389, R390, R392, R399, R402) -/

def flashFw (f : Flash) (k : Nat) : List Byte := if k = 0 then f.fwA else f.fwB
def flashTbl (f : Flash) (k : Nat) : List Byte := if k = 0 then f.tblA else f.tblB

/-- The boot record in force: the later of the good copies in serial-number order; with none, slots A (DESIGN CHOICE, log entry 47). -/
def flashRecord (f : Flash) : BootRec := match f.recA, f.recB with
  | some a, some b => if serialDist 32 a.seq b.seq < 2 ^ 31 then b else a
  | some a, none => a
  | none, some b => b
  | none, none => ⟨0, 0, 0, 0, 0, false, 0⟩

/-- A trial boot counts itself; at 2 the previous slots are active again. -/
def State.trial (s : State) : State :=
  let b := s.eng.boot
  if !b.trial then s
  else if 1 ≤ b.count then
    let s := s.writeBoot { b with fw := b.prevFw, tbl := b.prevTbl, trial := false, count := 0 }
    ({ s with eng := { s.eng with rolled := true } } : State).raise (Pg.eng 3) ENG.ev_update
  else s.writeBoot { b with count := b.count + 1 }

/-- The firmware slots that E15 accepts, the active one first. -/
def State.fwSlots (s : State) (f : Flash) : List Nat := [s.eng.boot.fw, 1 - s.eng.boot.fw].filter (fun k => s.fwOk (flashFw f k))

/-- The slot supports the profile that is in force under it. -/
def State.fwFits (s : State) (f : Flash) (k : Nat) : Bool := (fwProfiles (flashFw f k)).contains (s.profileOf f.pin (flashFw f k)).1

/-- Minor and patch of a bundle's version. -/
def fwMinor (l : List Byte) : Nat := fwVersion l / 65536 % 256 * 256 + fwVersion l % 256

/-- Engines run, at the version of the running bundle. -/
def State.engines (s : State) (l : List Nat) : State :=
  s.each l (fun s e => (s.wr (Pg.eng (e / 4)) (ENG.ENG_STAT_state (e % 4)) engRunning).wr (Pg.eng (e / 4)) (ENG.ENG_STAT_fw_minor (e % 4)) (fwMinor s.eng.fw))

/-- Without firmware E15 alone runs, from its ROM. -/
def State.bootStop (s : State) : State := s.engines [15]

/-- The digest record of Cellar bank 7 (R431). -/
def State.bankSeven (s : State) : State :=
  { s with eng := { s.eng with bank7 := some (s.eng.boot, s.eng.fw.take 0x440, if s.eng.tbl.isEmpty then [] else tblMeasure s.eng.tbl, s.profileId) } }

/-- E15 takes the table image of the active slot, else of the other. -/
def State.bootTable (s : State) (f : Flash) : State :=
  match [s.eng.boot.tbl, 1 - s.eng.boot.tbl].find? (fun k => s.tblOk (flashTbl f k) s.profileId) with
  | some k => { s with eng := { s.eng with tbl := (flashTbl f k).take (numAt (flashTbl f k) 8 4) } }
  | none => s.raise (Pg.eng 3) ENG.ev_table_err

/-- CLK_CORE in MHz at a step. -/
def stepMhz (k : Nat) : Nat := if k = 0 then 960 else if k = 1 then 720 else 480

/-- The AVS curve in mV at a step (R444). -/
def State.avsCurve (s : State) (k : Nat) : Nat :=
  let l := tblCurve s.eng.tbl 0x22
  if l.isEmpty then (if k = 0 then 920 else if k = 1 then 880 else 850)
  else (curveAt (l.map (fun x => ((x.1 : Int), (x.2 : Int)))) (stepMhz k)).toNat

/-- The end of boot that follows the loading of the engines: the supervised link, the curves, the key rows, the write gate, boot_done. -/
def State.bootLate (s : State) : State :=
  let s := if s.pw.on then s.hvUp else s
  let s := (s.curveLoad false).curveLoad true
  let s := if s.rootSlot = 1 then s else s.deriveRoot
  let s := s.loadRows
  let s := s.wr Pg.avs AVS.AVS_STAT_curve_mv (s.avsCurve 0)
  let s := s.bankSeven
  let s := s.wr Pg.glb GLB.GLB_STAT_boot_done 1
  if s.rd Pg.fus FUS.ROWS_used != 0 && s.rootSlot != 1 then s.gateClose else s

/-- Trunk ports and bays start (R39, R450). -/
def State.startPorts (s : State) : State :=
  let s := s.each [Port.tu, Port.td] (fun s p => if s.hasTrunks && s.on (Pg.trk p) TRK.PORT_CFG_port_en && s.pst p = stDisabled then s.enterDetect p else s)
  s.each (List.range 4) (fun s n => if s.bayOn n then ((s.dryHook n).tcIdle n).pcieStart n else s)

/-- E15 selects and loads: none where the part may only serve the service port and the local management port. -/
def State.bootLoad (s : State) (f : Flash) : Option State :=
  let s : State := { s with eng := { bank7 := s.eng.bank7, boot := (flashRecord f), pin := f.pin } }
  if !f.answers then none
  else
    let s := s.trial
    let ok := s.fwSlots f
    match ok.find? (s.fwFits f) with
    | none => none
    | some k =>
      let x := s.profileOf f.pin (flashFw f k)
      let s : State := { s with prof := x.1, eng := { s.eng with fw := flashFw f k, lock := x.2 } }
      some ((s.bootTable f).engines (List.range 16))

/-- The boot sequence as a whole (R450). -/
def State.boot (s : State) (f : Flash) : State :=
  if s.on Pg.glb GLB.GLB_STAT_boot_done || s.on Pg.glb GLB.GLB_STAT_boot_err then s
  else
    let s := s.wr Pg.clk CLK.CLK_STAT_pll_lock 1
    match s.bootLoad f with
    | some t => (t.bootLate.raise Pg.glb GLB.ev_boot_done).startPorts
    | none =>
      let s : State := { s with eng := { bank7 := s.eng.bank7, boot := (flashRecord f), pin := f.pin } }
      let s := (if f.answers then s.trial else s).bootStop
      let s : State := { s with eng := { s.eng with noProf := f.answers && !(s.fwSlots f).isEmpty } }
      (s.wr Pg.glb GLB.GLB_STAT_boot_err 1).raise Pg.glb GLB.ev_boot_err

def execBootComplete (f : Flash) (s : State) : Host.Outcome State Fault Refusal := s.run (fun s => s.boot f)

end Sys2Proof.Machine
end

