-- ==== Sys2Proof/Machine/Clocks.lean ====
section
/-!
DEFINITION. Sys2Proof/Machine/Clocks.lean: the adaptive loops of CLK_CORE and of VDD with their envelopes, the timing guard (R440–R445), timers (R473), page events' hold (R465) and delivery (R467), thermal warnings.
-/
namespace Sys2Proof.Machine

open Sys2Proof

/-! ### VDD (R442, R444) -/

/-- The envelope in mV, each bound within 840–960. -/
def State.vMax (s : State) : Nat := max 840 (min 960 (s.rd Pg.avs AVS.AVS_ENV_v_max))
def State.vMin (s : State) : Nat := max 840 (min 960 (s.rd Pg.avs AVS.AVS_ENV_v_min))
def State.vdd (s : State) : Nat := s.rd Pg.avs AVS.AVS_SET_v_mv

/-- The loop's pinned flag and event. -/
def State.avsPin (s : State) : State := if s.on Pg.avs AVS.AVS_STAT_pin then s else (s.wr Pg.avs AVS.AVS_STAT_pin 1).raise Pg.avs AVS.ev_pinned

/-- An AVSBus command; one that is not acknowledged leaves VDD as it was. -/
def State.avsCmd (s : State) (mv : Nat) (ack : Bool) : State :=
  if mv = s.vdd then s
  else if !ack then (({ s with pm := { s.pm with busBad := true } } : State).wr Pg.avs AVS.AVS_BUS_ok 0).raise Pg.avs AVS.ev_bus_err
  else
    let s := ({ s with pm := { s.pm with busBad := false } } : State).wr Pg.avs AVS.AVS_BUS_ok 1
    (if s.vdd < mv then s.bump Pg.avs AVS.AVS_CNT_ups 1 else s.bump Pg.avs AVS.AVS_CNT_downs 1).wr Pg.avs AVS.AVS_SET_v_mv mv

/-- VDD takes a value within the envelope; a clamped one pins. -/
def State.avsTo (s : State) (mv : Nat) (ack : Bool) : State :=
  let c := max s.vMin (min s.vMax mv)
  (if c = mv then s else s.avsPin).avsCmd c ack

/-- The interval of the AVS loop: the slack of the monitors in codes. -/
def State.avsInterval (s : State) (slack : Int) (ack : Bool) : State :=
  let s := s.wr Pg.avs AVS.AVS_STAT_slack (unsigned 8 slack)
  let t : Int := (s.rd Pg.avs AVS.AVS_CFG_target : Nat)
  let k := s.rd1 Pg.avs AVS.AVS_CFG_step_mv
  let s := if slack < t then s.raise Pg.avs AVS.ev_slack_low else s
  if s.on Pg.avs AVS.AVS_CFG_hold then s
  else if slack < t then s.avsTo (s.vdd + k) ack
  else if t + 4 < slack then s.avsTo (s.vdd - k) ack
  else s

def execAvsInterval (slack : Int) (ack : Bool) (s : State) : Host.Outcome State Fault Refusal := s.run (fun s => s.avsInterval slack ack)
def execAvsSetWrite (v : Nat) (ack : Bool) (s : State) : Host.Outcome State Fault Refusal := s.run (fun s => s.avsTo (v % 1024) ack)

/-- A write of AVS_ENV. -/
def State.avsEnv (s : State) (v : Nat) (ack : Bool) : State :=
  if bitsOf v 25 16 < bitsOf v 9 0 then s.raise Pg.avs AVS.ev_cfg_err
  else ((s.wr Pg.avs AVS.AVS_ENV_v_max (bitsOf v 25 16)).wr Pg.avs AVS.AVS_ENV_v_min (bitsOf v 9 0)).avsTo s.vdd ack

def execAvsEnvWrite (v : Nat) (ack : Bool) (s : State) : Host.Outcome State Fault Refusal := s.run (fun s => s.avsEnv v ack)

/-! ### CLK_CORE (R442, R443, R445) -/

/-- Step code 3 acts as 2. -/
def stepCode (k : Nat) : Nat := min 2 (k % 4)

def State.coreStep (s : State) : Nat := stepCode (s.rd Pg.clk CLK.CLK_STAT_step)
def State.hiStep (s : State) : Nat := stepCode (s.rd Pg.clk CLK.FRQ_ENV_hi_step)
def State.loStep (s : State) : Nat := stepCode (s.rd Pg.clk CLK.FRQ_ENV_lo_step)

def State.frqPin (s : State) : State := if s.on Pg.clk CLK.FRQ_STAT_pin then s else (s.wr Pg.clk CLK.FRQ_STAT_pin 1).raise Pg.clk CLK.ev_frq_pinned

/-- CLK_CORE runs at a step. -/
def State.setStep (s : State) (k : Nat) : State :=
  if k = s.coreStep then s
  else ((s.wr Pg.clk CLK.CLK_STAT_step k).wr Pg.clk CLK.FRQ_SET_step k).wr Pg.avs AVS.AVS_STAT_curve_mv (s.avsCurve k) |>.raise Pg.clk CLK.ev_step

/-- VDD stands, or may be brought, high enough for a step (R444). -/
def State.stepFed (s : State) (k : Nat) : Bool :=
  s.avsCurve k ≤ s.vdd || (!s.pm.busBad && !s.on Pg.avs AVS.AVS_CFG_hold && s.avsCurve k ≤ s.vMax)

/-- A step may be taken: a slower one always, a faster one while commands succeed and VDD can follow. -/
def State.stepOk (s : State) (k : Nat) : Bool := s.coreStep ≤ k || (!s.pm.busBad && s.stepFed k)

/-- The step changes: up after VDD has been raised to the curve, down at once. -/
def State.stepTo (s : State) (k : Nat) (ack : Bool) : State :=
  if s.coreStep ≤ k then (if k = s.coreStep then s else (s.bump Pg.clk CLK.CLK_CNT_downs 1).setStep k)
  else
    let s := if s.vdd < s.avsCurve k then s.avsCmd (s.avsCurve k) ack else s
    if s.vdd < s.avsCurve k then s else (s.bump Pg.clk CLK.CLK_CNT_ups 1).setStep k

/-- The fastest step from `k` on that VDD permits. -/
def State.stepFrom (s : State) (k : Nat) : Nat := if s.stepOk k then k else if s.stepOk (k + 1) then k + 1 else 2

/-- A set point within the envelope and within what VDD permits; a clamped one pins. -/
def State.frqTo (s : State) (k : Nat) (ack : Bool) : State :=
  let c := s.stepFrom (max s.hiStep (min s.loStep k))
  (if c = k then s else s.frqPin).stepTo c ack

def execFrqSetWrite (v : Nat) (ack : Bool) (s : State) : Host.Outcome State Fault Refusal := s.run (fun s => s.frqTo (stepCode v) ack)

/-- A write of FRQ_ENV. -/
def State.frqEnv (s : State) (v : Nat) (ack : Bool) : State :=
  if stepCode v < stepCode (v / 256) then s.raise Pg.clk CLK.ev_cfg_err
  else ((s.wr Pg.clk CLK.FRQ_ENV_hi_step (bitsOf v 9 8)).wr Pg.clk CLK.FRQ_ENV_lo_step (bitsOf v 1 0)).frqTo s.coreStep ack

def execFrqEnvWrite (v : Nat) (ack : Bool) (s : State) : Host.Outcome State Fault Refusal := s.run (fun s => s.frqEnv v ack)

/-- The loop's want moves the step, or pins it at a bound. -/
def State.frqWant (s : State) (k : Nat) (ack : Bool) : State :=
  let s := s.wr Pg.clk CLK.FRQ_STAT_want k
  if k = s.coreStep || s.on Pg.clk CLK.FRQ_CFG_hold then s
  else if k < s.hiStep || s.loStep < k || !s.stepOk k then s.frqPin
  else s.stepTo k ack

/-- The frequency loop at an epoch boundary: `busy` is b in thousandths, `cap` the condition of R146. -/
def State.frqEpoch (s : State) (busy : Nat) (cap ack : Bool) : State :=
  let s := s.wr Pg.clk CLK.FRQ_STAT_busy_pm (min busy 1000)
  let k := s.coreStep
  let slow := k < 2 && busy * stepMhz k * 100 < s.rd Pg.clk CLK.FRQ_CFG_dn_pct * 1000 * stepMhz (k + 1)
  let n := if slow then s.pm.slow + 1 else 0
  let s : State := { s with pm := { s.pm with slow := n } }
  if 0 < k && (s.rd Pg.clk CLK.FRQ_CFG_up_pct * 1000 < busy * 100 || cap) then s.frqWant (k - 1) ack
  else if s.rd1 Pg.clk CLK.FRQ_CFG_dn_epochs ≤ n then ({ s with pm := { s.pm with slow := 0 } } : State).frqWant (k + 1) ack
  else s.frqWant k ack

def State.timingGuard (s : State) : State :=
  let s := (s.bump Pg.clk CLK.CLK_CNT_guards 1).raise Pg.clk CLK.ev_guard
  if s.coreStep < 2 then s.setStep (s.coreStep + 1) else s

def execTimingGuard (s : State) : Host.Outcome State Fault Refusal := s.run State.timingGuard

/-- The error measured before the trim, in 0.1 ppm (R440). -/
def execOsc32Trim (err : Int) (s : State) : Host.Outcome State Fault Refusal :=
  s.run (fun s => if s.rd Pg.pws PWS.PWS_STAT_state = 0 then s.wr Pg.clk CLK.CLK_STAT_osc32_err (unsigned 16 err) else s)

/-! ### Timers (R473) -/

def State.timerNs (s : State) (t : Nat) : Nat := 1000 * s.rd1 Pg.tmr (TMR.TMR_CFG_period_us t)

/-- START of a timer. -/
def State.timerStart (s : State) (t : Nat) : Nat := s.rd Pg.tmr (TMR.TMR_START_LO_start_lo t) + 2 ^ 32 * s.rd Pg.tmr (TMR.TMR_START_HI_start_hi t)

/-- The next expiry once en goes from 0 to 1: none for a one-shot whose START has passed. -/
def State.timerFirst (s : State) (t : Nat) : Option Nat :=
  if !s.on Pg.tmr (TMR.TMR_CFG_ct_align t) then some (s.now + s.timerNs t)
  else
    let a := s.timerStart t
    let now := s.chain.time
    if now ≤ a then some a
    else if s.on Pg.tmr (TMR.TMR_CFG_periodic t) then some (a + ceilDiv (now - a) (s.timerNs t) * s.timerNs t)
    else none

/-- A write of TMRt_CFG. -/
def State.timerCfg (s : State) (t v : Nat) : State :=
  let was := s.on Pg.tmr (TMR.TMR_CFG_en t)
  let s := ((s.wr Pg.tmr (TMR.TMR_CFG_periodic t) (bitOf v 30)).wr Pg.tmr (TMR.TMR_CFG_ct_align t) (bitOf v 29)).wr Pg.tmr (TMR.TMR_CFG_period_us t) (bitsOf v 23 0)
  let s := s.wr Pg.tmr (TMR.TMR_CFG_en t) (bitOf v 31)
  if bitOf v 31 = 0 then { s with tmr := Tab.del t s.tmr }
  else if was then s
  else match s.timerFirst t with
    | some n => { s with tmr := Tab.put t n s.tmr }
    | none => s

def execTimerEnable (t : Fin 4) (v : Nat) (s : State) : Host.Outcome State Fault Refusal := s.run (fun s => s.timerCfg t.val v)

/-- A timer expires; a periodic one keeps its phase, a one-shot clears en. -/
def State.timerExpire (s : State) (t : Nat) : State := match Tab.find t s.tmr with
  | none => s
  | some n =>
    let s := (s.bump Pg.tmr (TMR.TMR_EXP_expiries t) 1).raise Pg.tmr (TMR.ev_expire t)
    if s.on Pg.tmr (TMR.TMR_CFG_periodic t) then { s with tmr := Tab.put t (n + s.timerNs t) s.tmr }
    else { s.wr Pg.tmr (TMR.TMR_CFG_en t) 0 with tmr := Tab.del t s.tmr }

def execTimerExpiry (t : Fin 4) (s : State) : Host.Outcome State Fault Refusal := s.run (fun s => s.timerExpire t.val)

/-- Chain time has stepped forward past expiries of a timer on its grid: one expiry, the others are skipped. -/
def State.timerStep (s : State) (t : Nat) : State := match Tab.find t s.tmr with
  | none => s
  | some n =>
    if !s.on Pg.tmr (TMR.TMR_CFG_ct_align t) || s.chain.time < n then s
    else if s.on Pg.tmr (TMR.TMR_CFG_periodic t) then
      let k := (s.chain.time - n) / s.timerNs t
      ({ s with tmr := Tab.put t (n + k * s.timerNs t) s.tmr } : State).timerExpire t |>.bump Pg.tmr (TMR.TMR_EXP_skipped t) k
    else s.timerExpire t

/-! ### Page events (R465, R467) -/

/-- The hold of a page ends. -/
def State.holdEnd (s : State) (p : Nat) : State :=
  if !s.evt.hold.contains p then s
  else
    let due := s.evt.due.contains p
    let s : State := { s with evt := { s.evt with hold := s.evt.hold.filter (· != p), due := s.evt.due.filter (· != p) } }
    if due && s.evPend p != 0 then s.pageEvent p else s

def execEventHoldExpiry (p : Nat) (s : State) : Host.Outcome State Fault Refusal := s.run (fun s => s.holdEnd p)

/-- A page-event cell at the head; a link_down of a hub's trunk port tells that the hubs beyond are lost (R98). -/
def State.pageEventIn (s : State) (p : Port) (c : Cell) : State :=
  let ch := chainOf p
  let page := numAt c.payload 2 2
  let pend := numAt c.payload 4 4
  if s.mode != .head || byteAt c.payload 0 != 0x44 then s
  else
    let s := s.pageDeliver ch c.shub page pend (numAt c.payload 8 4) (numAt c.payload 12 4)
    if pageKind page = some .trk && bitOf pend TRK.ev_link_down.bit = 1 then s.hubsLost ch c.shub else s

def execPageEventCellRx (p : Port) (c : Cell) (s : State) : Host.Outcome State Fault Refusal := s.run (fun s => s.msgIn p c (fun s => s.pageEventIn p c))

/-! ### Thermal warnings (R370, R451) -/

/-- The main die's Tj, or the companion die's temperature, reaches its warning threshold. -/
def State.thermalWarn (s : State) (comp : Bool) (temp : Nat) : State :=
  if comp then
    let s := s.wr Pg.hvd HVD.HVD_STAT_temp temp
    if s.pw.on && s.rd Pg.hvd HVD.HVD_CFG_t_warn ≤ temp then s.raise Pg.hvd HVD.ev_thermal_warn else s
  else
    let s := s.wr Pg.glb GLB.THERM_temp temp
    if s.rd Pg.glb GLB.THERM_warn ≤ temp then s.raise Pg.glb GLB.ev_thermal_warn else s

def execThermalWarning (comp : Bool) (temp : Nat) (s : State) : Host.Outcome State Fault Refusal := s.run (fun s => s.thermalWarn comp temp)

end Sys2Proof.Machine
end

