-- ==== Sys2Proof/Machine/Sleep.lean ====
section
/-!
DEFINITION. Sys2Proof/Machine/Sleep.lean: trims (R425), entry to P2 and P3 (R426–R431, R42, R55), the watch sequencer (R435, R436), wake (R432, R437–R439, R120), held pads (R433).
-/
namespace Sys2Proof.Machine

open Sys2Proof

/-! ### Trims (R425) -/

/-- A trim is permitted and its resource may be trimmed. -/
def State.trimOk (s : State) (r : Trim) : Bool :=
  s.on Pg.pws PWS.TRIM_CFG_en && (match r with
    | .lane p l => s.on Pg.pws PWS.TRIM_CFG_lanes && s.isUp p && bitOf (s.rd (Pg.trk p) (laneFlags l.val)) 0 = 1
    | .ethPair n => s.on Pg.pws PWS.TRIM_CFG_lanes && (!s.bayOn n.val || s.rd (Pg.eth n.val) ETH.MAC_CFG_mode = 0)
    | .pciePair n => s.on Pg.pws PWS.TRIM_CFG_lanes && (!s.bayOn n.val || !s.on (Pg.pcie n.val) PCIE.PCIE_CFG_en)
    | .bayClock n => s.on Pg.pws PWS.TRIM_CFG_bays && !s.bayOn n.val
    | .engine e => s.rd Pg.pws PWS.TRIM_CFG_eng_div != 0 && s.mbSt e.val = 0)

def State.trimEnter (s : State) (r : Trim) : State :=
  if s.pm.trims.contains r || !s.trimOk r then s
  else
    let first := s.pm.trims.isEmpty
    let s : State := { s with pm := { s.pm with trims := s.pm.trims ++ [r] } }
    if first then (s.wr Pg.pws PWS.PWS_STAT_state 1).raise Pg.pws PWS.ev_trim_enter else s

def execTrimEnter (r : Trim) (s : State) : Host.Outcome State Fault Refusal := s.run (fun s => s.trimEnter r)

def State.trimExit (s : State) (r : Trim) : State :=
  if !s.pm.trims.contains r then s
  else
    let s : State := { s with pm := { s.pm with trims := s.pm.trims.erase r } }
    if s.pm.trims.isEmpty then (s.wr Pg.pws PWS.PWS_STAT_state 0).raise Pg.pws PWS.ev_trim_exit else s

def execTrimExit (r : Trim) (s : State) : Host.Outcome State Fault Refusal := s.run (fun s => s.trimExit r)

/-! ### Watch programs (R435, R436) -/

/-- A rule of a watch program. -/
structure WatchRule where
  src    : Nat
  arg    : Nat
  op     : Nat
  action : Nat
  thr    : Nat
  count  : Nat
  every  : Nat
deriving DecidableEq, Repr

def watchRules (l : List Byte) : List WatchRule :=
  (List.range (min 32 (byteAt l 4))).map (fun r =>
    let b := l.drop (16 + 8 * r)
    ⟨byteAt b 0, byteAt b 1, byteAt b 2, byteAt b 3, numAt b 4 2, max 1 (byteAt b 6), byteAt b 7⟩)

/-- The period in ms with its bounds. -/
def watchPeriod (l : List Byte) : Nat := max 1 (min 10000 (numAt l 0 4))

def ruleBytes (src arg op action thr count every : Nat) : List Byte :=
  leBytes 1 src ++ leBytes 1 arg ++ leBytes 1 op ++ leBytes 1 action ++ leBytes 2 thr ++ leBytes 1 count ++ leBytes 1 every

/-- The default program (R436), in the order of its list. -/
def State.defaultWatch (s : State) : List Byte :=
  let bays := (List.range 4).filter (fun n => !s.fused n && (s.rd (Pg.tc n) TC.TC_CFG_bay_cfg = 0 || s.rd (Pg.tc n) TC.TC_CFG_bay_cfg = 2))
  let rs := bays.map (fun n => ruleBytes 1 n 2 0 1 2 0) ++ [ruleBytes 5 0 2 0 1 1 0, ruleBytes 5 1 2 0 1 1 0] ++ bays.map (fun n => ruleBytes 2 n 0 1 0 2 3) ++ [ruleBytes 4 0 1 0 105 3 0]
  leBytes 4 100 ++ leBytes 1 rs.length ++ List.replicate 11 0 ++ rs.flatten

/-- What a rule sees, and the threshold that it compares with. -/
def State.watchSees (s : State) (x : Watch) (r : WatchRule) : Int × Int := match r.src with
  | 1 => (b2n (x.cc.getD r.arg false), r.thr)
  | 2 => (x.moist.getD r.arg 0, if r.thr = 0 then s.moistThr r.arg x.temp else r.thr)
  | 3 => (x.feeds.getD r.arg 0, r.thr)
  | 4 => (x.temp, signed 16 r.thr)
  | _ => (b2n (x.sig.getD r.arg false), r.thr)

/-- The rule's condition holds for a sample. -/
def watchHit (op : Nat) (v : Int × Int) : Bool := if op = 0 then v.1 < v.2 else if op = 1 then v.2 < v.1 else v.1 = v.2

/-- Bits of WAKE_CAUSE.src: 0 TU beacon, 1 TD beacon, 2 feed, 3 PD, 4 management, 5 GPIO. -/
def State.causeSrc (s : State) (b : Nat) : State := s.wr Pg.pws PWS.WAKE_CAUSE_src (s.rd Pg.pws PWS.WAKE_CAUSE_src ||| 2 ^ b)

def State.wakeEn (s : State) (b : Nat) : Bool := bitOf (s.rd Pg.pws PWS.WAKE_SRC_en) b = 1

/-- A rule fires. -/
def State.watchFire (s : State) (k : Nat) (r : WatchRule) : State :=
  if r.action = 1 then { s.wr Pg.pws PWS.WATCH_MARK_marks (s.rd Pg.pws PWS.WATCH_MARK_marks ||| 2 ^ k) with pm := { s.pm with hits := Tab.del k s.pm.hits } }
  else
    let s := if r.src = 5 && s.wakeEn 1 then s.causeSrc (if r.arg = 0 then 0 else 1) else s
    if s.wakeEn 0 && !s.on Pg.pws PWS.WAKE_CAUSE_watch then (s.wr Pg.pws PWS.WAKE_CAUSE_watch 1).wr Pg.pws PWS.WAKE_CAUSE_rule k else s

/-- A watch period: the rules that are due sample once. -/
def State.watchSample (s : State) (x : Watch) : State :=
  if s.life != .p2 then s
  else
    let rs := watchRules s.pm.prog
    let t := s.pm.period
    let s : State := { s with pm := { s.pm with period := t + 1 } }
    s.each (List.range rs.length) (fun s k => match rs[k]? with
      | none => s
      | some r =>
        if t % 2 ^ r.every != 0 then s
        else
          let n := if watchHit r.op (s.watchSees x r) then (Tab.find k s.pm.hits).getD 0 + 1 else 0
          let s : State := { s with pm := { s.pm with hits := if n = 0 then Tab.del k s.pm.hits else Tab.put k n s.pm.hits } }
          if r.count ≤ n then s.watchFire k r else s)

def execWatchSample (x : Watch) (s : State) : Host.Outcome State Fault Refusal := s.always (fun s => s.watchSample x)

/-! ### Entry (R426–R431, R42, R55, R376) -/

/-- A write of PWS_CTL with go. -/
def State.pwsCtl (s : State) (v : Nat) : State :=
  let s := s.wr Pg.pws PWS.PWS_CTL_target (v % 4)
  let why := if s.mode != .head && s.mode != .standalone then 5 else s.sleepRefusal
  if why != 0 then s.refuseSleep why
  else ({ s with pm := { s.pm with want := if v % 4 = 3 then 3 else 2 } } : State).raise Pg.pws PWS.ev_armed

def execPwsSleepRequest (v : Nat) (s : State) : Host.Outcome State Fault Refusal := s.run (fun s => s.pwsCtl v)

/-- A bay that keeps its power goes to 5 V at the current in force, without alternate mode (R357). -/
def State.keepFive (s : State) (n : Nat) : State :=
  if !s.hvLink || !s.on (Pg.vbs n) VBS.VBS_CFG_keep || !s.vbConducts n || s.on (Pg.vbs n) VBS.VBS_STAT_sink then s
  else
    let i := s.inForceI n
    let s := s.altOff n
    if s.rd (Pg.tc n) TC.CONTRACT_v = 0 || s.rd (Pg.tc n) TC.CONTRACT_v = 250 then s
    else ((s.vbSet n 250).contractWin n 0 250 i).contractMade n 1 0 250 i

/-- A port sends SLEEP, saves its snapshot (the mode and the lanes in use, R42) and stops transmitting (R55). A beacon ends. -/
def State.portSleep (s : State) (p : Port) (target : Nat) : State :=
  let s := if s.pst p = stBeacon then s.beaconOut p false else s
  if !s.isUp p then (s.setTrunk p { s.trunk p with snap := none }).setTx p false
  else
    let s := if s.on (Pg.trk p) TRK.PORT_STAT_sb_up then ((s.sbSend p 6 [target]).sbSend p 6 [target]).sbSend p 6 [target]
      else s.ctlOut p (leBytes 1 0x02 ++ leBytes 1 target ++ [0, 0, 0])
    (s.setTrunk p { s.trunk p with snap := some ⟨s.trkF p TRK.PORT_STAT_mode, s.trkF p TRK.PORT_STAT_tx_lanes, s.trkF p TRK.PORT_STAT_rx_lanes⟩ }).setTx p false

/-- The always-on domain's record of a chain: address, chain and home (R120). -/
def chnKept : List Fld := [CHN.CHN_STAT_addr, CHN.CHN_STAT_chain, CHN.HOME_ID_LO_home_id_lo, CHN.HOME_ID_HI_home_id_hi]

/-- The equaliser coefficients of a snapshot stand in these words of a TRK page. -/
def eqWord (off : Nat) : Bool := 0x94 ≤ off && off < 0xB8

/-- The Type-C attach of a trunk port, which outlives a sleep: it ends only as the far end goes away (R53, R57). -/
def ccKept : List Fld := [TRK.TTC_STAT_attached, TRK.TTC_STAT_orient, TRK.TTC_STAT_partner_term]

/-- Kept through sleep beside what a main-die reset keeps. -/
def State.sleepKeeps (s : State) (key : Nat) : Bool :=
  let page := key / 131072
  let off := key / 32 % 4096
  (chnKept.any (fun f => key = fkey Pg.chn f)) || (ccKept.any (fun f => key = fkey (Pg.trk .tu) f || key = fkey (Pg.trk .td) f)) || (eqWord off && ((page = Pg.trk .tu && s.tu.snap.isSome) || (page = Pg.trk .td && s.td.snap.isSome)))

/-- The bay's switch is held, or off (R376); it stays as it is while the supervised link is lost (R21, R375). -/
def State.vbHold (s : State) (n : Nat) : State :=
  if !s.hvLink then s
  else if s.on (Pg.vbs n) VBS.VBS_CFG_keep && s.vbConducts n && !s.on (Pg.vbs n) VBS.VBS_STAT_sink then s.vbKeepOn n else s.vbusReset n

/-- Engines E3 to E6 park the contexts of their ports in the banks that firmware selects; only a retained bank keeps one (R431). -/
def State.parkPorts (s : State) (banks : List Nat) : Tab (TcCtx × Store) :=
  ((List.range 4).filter (fun n => s.bayOn n && s.engState (3 + n) = engRunning && (banks.getD (3 + n) 0 = 7 || bitOf (s.rd Pg.pws PWS.CELLAR_CFG_ret) (banks.getD (3 + n) 0) = 1))).map
    (fun n => (n, s.tc n, s.regs.filter (fun e => e.1 / 131072 = Pg.tc n)))

/-- WAKE_CAUSE reads nothing at entry. -/
def State.clearCause (s : State) : State :=
  ((((s.wr Pg.pws PWS.WAKE_CAUSE_valid 0).wr Pg.pws PWS.WAKE_CAUSE_watch 0).wr Pg.pws PWS.WAKE_CAUSE_rule 0).wr Pg.pws PWS.WAKE_CAUSE_src 0).wr Pg.pws PWS.WAKE_CAUSE_gpio 0

/-- What a trunk port keeps through sleep. -/
def Trunk.asleep (t : Trunk) : Trunk := { snap := t.snap, medium := t.medium, ccTerm := t.ccTerm, ccSeen := t.ccSeen }

/-- The steps of R428 from t_go on. -/
def State.goSleep (s : State) (target : Nat) (banks : List Nat) : State :=
  let s := s.each (List.range 4) State.keepFive
  let s := (s.each (List.range 4) (fun s n => if s.pcieThere n then s.perstHold n else s)).svcDown
  let s := s.each [Port.tu, Port.td] (fun s p => s.portSleep p target)
  let prog := if target = 3 then [] else match tblWatch s.eng.tbl with
    | some w => w
    | none => s.defaultWatch
  let tableProg := target = 2 && (tblWatch s.eng.tbl).isSome
  let parked := s.parkPorts banks
  let s := s.each (List.range 4) State.vbHold
  let t := s.mainDie false
  let t := ({ t with
    regs := (s.regs.filter (fun e => s.sleepKeeps e.1)).foldl (fun r e => Tab.put e.1 e.2 r) t.regs, life := if target = 3 then .p3 else .p2, eng := s.eng, prof := s.prof,
    tu := s.tu.asleep, td := s.td.asleep, chain := { time := s.chain.time },
    pm := { slept := s.chain.time, prog := prog, parked := parked } } : State)
  let t := (t.setPst .tu stSleep).setPst .td stSleep
  let t := (t.clearCause.bump Pg.pws PWS.SLEEP_CNT_sleeps 1).wr Pg.pws PWS.PWS_STAT_state 0
  let t := ((t.wr Pg.pws PWS.WATCH_STAT_table (b2n tableProg)).wr Pg.pws PWS.WATCH_STAT_rules (watchRules prog).length).wr Pg.pws PWS.WATCH_STAT_period_ms (if prog.isEmpty then 0 else watchPeriod prog)
  let t := t.wr Pg.glb GLB.GLB_STAT_pads_held (b2n !s.compat)
  t.emit (.note "asleep" [target])

/-- The armed sleep comes due: a command's at t_go, or PWS_CTL's; a condition that has arisen refuses it (R427). -/
def State.sleepDue (s : State) (banks : List Nat) : State :=
  let (a, s) := match s.takeArmed 2 with
    | (some a, t) => (some a, t)
    | (none, _) => s.takeArmed 3
  match a with
  | some a =>
    if s.sleepRefusal != 0 then (s.refuseSleep s.sleepRefusal).cmdAck a.seq 1 a.cmd else s.goSleep a.cmd banks
  | none =>
    if s.pm.want = 0 then s
    else
      let k := s.pm.want
      let s : State := { s with pm := { s.pm with want := 0 } }
      if s.sleepRefusal != 0 then s.refuseSleep s.sleepRefusal else s.goSleep k banks

def execSleepEntry (banks : List Nat) (s : State) : Host.Outcome State Fault Refusal := s.run (fun s => s.sleepDue banks)

/-! ### Wake (R120, R432, R436–R439) -/

/-- The causes that have fired are recorded; in P2 a beacon acts by a watch rule alone. -/
def State.wakeCauses (s : State) (w : Wake) : State :=
  let g := w.gpio &&& s.rd Pg.pws PWS.WAKE_GPIO_mask
  let s := s.wr Pg.pws PWS.WAKE_CAUSE_gpio (s.rd Pg.pws PWS.WAKE_CAUSE_gpio ||| g)
  let put := fun (s : State) (b : Bool) (k : Nat) => if b then s.causeSrc k else s
  let s := put s (s.life = .p3 && w.tu && s.wakeEn 1) 0
  let s := put s (s.life = .p3 && w.td && s.wakeEn 1) 1
  let s := put s (w.feed && s.wakeEn 2) 2
  let s := put s (w.pd && s.wakeEn 3) 3
  let s := put s (w.mgmt && s.mode = .standalone && s.wakeEn 4) 4
  put s (g != 0) 5

def State.woken (s : State) : Bool := s.rd Pg.pws PWS.WAKE_CAUSE_src != 0 || s.on Pg.pws PWS.WAKE_CAUSE_watch

/-- The port that a beacon woke. -/
def State.beaconed (s : State) (p : Port) : Bool := bitOf (s.rd Pg.pws PWS.WAKE_CAUSE_src) (Port.idx p) = 1

/-- A port starts after a wake: a beacon to the hub beyond, fast training, or bring-up; where its cable or module went away in the sleep the bring-up is full, and a Type-C port
detaches (R42, R57, R120). -/
def State.portWake (s : State) (gone : List Port) (p : Port) : State :=
  let s := if s.beaconed p then s.raise (Pg.trk p) TRK.ev_beacon_rx else s
  if !s.hasTrunks || !s.on (Pg.trk p) TRK.PORT_CFG_port_en then s.setPst p stDisabled
  else if gone.contains p then (s.ccDetach p).enterDetect p
  else if s.beaconed (Port.other p) && !s.beaconed p && s.on Pg.chn CHN.CHN_CFG_wake_prop then
    ((if (s.trunk p).medium = 0 then s.enterDetect p else s.setPst p stDetect).beacon p)
  else match (s.trunk p).snap with
    | some g => s.fastTrain p g
    | none => s.enterDetect p

/-- A Type-C port's parked context comes back; its switch conducts on under it. -/
def State.unpark (s : State) (n : Nat) : State := match Tab.find n s.pm.parked with
  | none => s
  | some (x, regs) =>
    let s : State := { s with tcs := Tab.put n x s.tcs, regs := regs.foldl (fun r e => Tab.put e.1 e.2 r) (s.regs.filter (fun e => e.1 / 131072 != Pg.tc n)) }
    if s.vb n = vbHeld then s.wr (Pg.vbs n) VBS.VBS_STAT_state vbOn else s

/-- Bays whose moisture rule has marked. -/
def State.wetMarks (s : State) (prog : List Byte) : List Nat :=
  let rs := watchRules prog
  (List.range 4).filter (fun n => (List.range rs.length).any (fun k => bitOf (s.rd Pg.pws PWS.WATCH_MARK_marks) k = 1 && (match rs[k]? with
    | some r => r.src = 2 && r.action = 1 && r.arg = n
    | none => false)))

/-- What every wake ends with. -/
def State.wakeEnd (s : State) (gone : List Port) (target periods us : Nat) (prog : List Byte) : State :=
  let s := ((s.wr Pg.pws PWS.WAKE_CAUSE_valid 1).wr Pg.pws PWS.WAKE_TIME_us us).wr Pg.pws PWS.PWS_STAT_last_sleep target
  let s : State := { s with chain := { s.chain with time := s.pm.slept + periods * 1000000000 / 32768 } }
  let s := s.freeRun
  let s := if s.rd Pg.chn CHN.CHN_STAT_addr != 63 then s.wr Pg.chn CHN.CHN_STAT_home_state 2 else s
  let s := s.each [Port.tu, Port.td] (fun s p => s.portWake gone p)
  let s := s.each (List.range 4) State.unpark
  let s := s.each (s.wetMarks prog) (fun s n => if s.bayOn n && s.tcSt n = tcUnattached then s.becomeWet n false else s)
  ({ s with pm := {} } : State).raise Pg.pws PWS.ev_woke

/-- An engine whose image fails its digest halts; the wake goes on. -/
def State.engBad (s : State) (e : Nat) : State := (s.wr (Pg.eng (e / 4)) (ENG.ENG_STAT_state (e % 4)) 3).raise (Pg.eng 3) ENG.ev_table_err

/-- A wake from P2: `gone` are the ports whose cable or module went away in sleep; `images` says which engine images match their digests (a missing entry does). -/
def State.wakeP2 (s : State) (w : Wake) (gone : List Port) (images : List Bool) (periods us : Nat) : State :=
  let t := s.wakeCauses w
  if s.life != .p2 || !t.woken then s
  else
    let prog := t.pm.prog
    let t := ({ t with life := .running } : State).wr Pg.clk CLK.CLK_STAT_pll_lock 1
    let t := if t.on Pg.fus FUS.SEC_debug then t.debugOn else t
    let t := t.engines (List.range 16)
    let t := t.each ((List.range 15).filter (fun e => !images.getD e true)) State.engBad
    let t := t.bootLate.startPorts
    t.wakeEnd gone 2 periods us prog

def execWakeFromP2 (w : Wake) (gone : List Port) (images : List Bool) (periods us : Nat) (s : State) : Host.Outcome State Fault Refusal :=
  s.always (fun s => s.wakeP2 w gone images periods us)

/-- A wake from P3 runs the reset and boot sequence from its first step. -/
def State.wakeP3 (s : State) (w : Wake) (gone : List Port) (k : Nat) (compat refsel : Bool) (f : Flash) (periods us : Nat) : State :=
  let t := s.wakeCauses w
  if s.life != .p3 || !t.woken then s
  else
    let t := ({ t with life := .running } : State).strap k compat refsel
    let t := if t.on Pg.fus FUS.SEC_debug then t.debugOn else t
    let t := t.boot f
    if t.on Pg.glb GLB.GLB_STAT_boot_err then (({ t with pm := {} } : State).wr Pg.pws PWS.WAKE_CAUSE_valid 1).raise Pg.pws PWS.ev_woke
    else t.wakeEnd gone 3 periods us []

def execWakeFromP3 (w : Wake) (gone : List Port) (k : Fin 4) (compat refsel : Bool) (f : Flash) (periods us : Nat) (s : State) : Host.Outcome State Fault Refusal :=
  s.always (fun s => s.wakeP3 w gone k.val compat refsel f periods us)

/-! ### Pads (R433, R434) -/

def State.padRelease (s : State) : State :=
  if s.compat || !s.on Pg.glb GLB.GLB_STAT_pads_held then s else (s.wr Pg.glb GLB.GLB_STAT_pads_held 0).emit (.pin "sleep-controlled pads" 0)

def execPadRelease (s : State) : Host.Outcome State Fault Refusal := s.run State.padRelease

end Sys2Proof.Machine
end

