-- ==== Sys2Proof/Machine/Views.lean ====
section
/-!
DEFINITION. Sys2Proof/Machine/Views.lean: register fields that are read from other state and are never held themselves: the common header (R457, R458), and status fields
of the chapters' register tables. `viewWord` gives such fields of a word as pairs of least significant bit and value.
-/
namespace Sys2Proof.Machine

open Sys2Proof

/-! ### The common header (R457, R458) -/

/-- The engine that serves a page's block (R381, DEDUCED). -/
def pageEngine (p : Nat) : Option Nat :=
  if 0x100 ≤ p ∧ p < 0x140 then
    match p % 16 with
    | 1 => some (9 + pageBay p)
    | 2 => some (9 + pageBay p)
    | 8 => some (9 + pageBay p)
    | 3 => some (3 + pageBay p)
    | 6 => some (3 + pageBay p)
    | 7 => some 7
    | _ => none
  else match p with
    | 0x010 => some 1
    | 0x012 => some 1
    | 0x011 => some 2
    | 0x013 => some 2
    | 0x014 => some 0
    | 0x015 => some 0
    | 0x022 => some 13
    | 0x023 => some 13
    | 0x030 => some 14
    | 0x031 => some 14
    | 0x032 => some 14
    | 0x140 => some 9
    | 0x150 => some 7
    | 0x151 => some 7
    | 0x160 => some 8
    | 0x161 => some 8
    | 0x180 => some 15
    | _ => none

/-- PG_STAT.ready: the block is out of reset and its engine runs. -/
def State.pageReady (s : State) (p : Nat) : Bool :=
  s.life = .running && s.alive p && (match pageEngine p with
    | some e => s.engState e = engRunning
    | none => true)

/-- PG_STAT.busy: a command of the page is in progress. -/
def State.pageBusy (s : State) (p : Nat) : Bool := match pageKind p with
  | some .tun0 => s.on p TUN.TUN_STAT_busy
  | some .vhg => s.on p VHG.VHG_STAT_busy
  | some .chn => s.rd p CHN.CMD_STAT_st = 1
  | some .eth => s.on p ETH.MDIO_STAT_busy
  | some .eng => (List.range 4).any (fun j => s.rd p (ENG.MB_STAT_st j) = 1)
  | _ => false

/-- Header words that are not held. -/
def State.viewHdr (s : State) (p off : Nat) : List (Nat × Nat) := match off with
  | 0x00 => [(16, pageType p), (8, pageInst p), (0, 1)]
  | 0x04 => [(0, pageCap p)]
  | 0x08 => if pageKind p = some .bay && s.mode = .reserved then [(0, 0)] else []
  | 0x0C => [(2, b2n (pageKind p = some .vhc && s.rd p VHC.VHC_STAT_state = vDraining)), (1, b2n (s.pageBusy p)), (0, b2n (s.pageReady p))]
  | _ => []

/-! ### Trunk side -/

/-- LNK (R92): the link's state, counts and credits. -/
def State.viewLnk (s : State) (p : Port) (off : Nat) : List (Nat × Nat) :=
  let l := s.link p
  let used := fun (f : Pools → Nat) => usedOf (f l.sent) (f l.pReturned)
  match off with
  | 0x44 => [(30, if !l.up then 0 else if l.replayAt.isSome then 3 else if l.replayWait then 2 else 1), (12, l.txCount % 4096), (0, l.rxCount % 4096)]
  | 0x48 => [(16, min 65535 (l.txCount - l.ackCount)), (0, if l.ackCount = 0 then 0 else (l.ackCount + 4095) % 4096)]
  | 0x60 => [(16, l.pLimits.g - used (·.g)), (0, l.pLimits.m - used (·.m))]
  | 0x64 => [(16, l.pLimits.t - used (·.t)), (0, l.pLimits.e - used (·.e))]
  | 0x68 => [(0, l.pLimits.sh - (used (·.ts) + used (·.es)))]
  | _ => []

/-- CHN (R121): the selected directory entry of a head. -/
def State.viewChn (s : State) (off : Nat) : List (Nat × Nat) :=
  if s.mode != .head then []
  else match Tab.find (s.rd Pg.chn CHN.DIR_SEL_dsel_addr) (s.headChain (s.rd Pg.chn CHN.DIR_SEL_dsel_chain)).dir with
    | none => []
    | some e => match off with
      | 0x84 => [(0, e.id % 2 ^ 32)]
      | 0x88 => [(0, e.id / 2 ^ 32 % 2 ^ 32)]
      | 0x8C => [(0, e.ident)]
      | 0x90 => [(0, e.tuB * 2 ^ 24 + e.tdB * 2 ^ 16 + e.part * 2 ^ 8 + b2n e.valid)]
      | _ => []

/-- CTIM (R122): chain time as it runs. TIME_HI is latched by a read of TIME_LO and is held. -/
def State.viewCtim (s : State) (off : Nat) : List (Nat × Nat) := match off with
  | 0x44 => [(0, s.chain.time % 2 ^ 32)]
  | 0x58 => [(0, s.epochNow % 2 ^ 32)]
  | _ => []

/-! ### Switch and scheduler -/

/-- GRN (R148): free buffers, the common pool, the sizes of the trunk accounts (R515). -/
def State.viewGrn (s : State) (off : Nat) : List (Nat × Nat) := match off with
  | 0x40 => [(15, s.freeBufs), (0, min 32767 s.commonFree)]
  | 0x100 => [(0, s.acctSize 0)]
  | 0x110 => [(0, s.acctSize 1)]
  | 0x120 => [(0, s.acctSize 2)]
  | 0x130 => [(0, s.acctSize 3)]
  | _ => []

/-- The word of a bitmap of tunnels that starts at `32 i`. -/
def mapWord (f : Nat → Bool) (i : Nat) : Nat := sumNat ((List.range 32).map (fun j => b2n (f (32 * i + j)) * 2 ^ j))

/-- TUN1 (R175): ACTIVE. -/
def State.viewTun1 (s : State) (off : Nat) : List (Nat × Nat) :=
  if 0x440 ≤ off ∧ off < 0x640 then [(0, mapWord (fun n => s.actOf n 0 || s.actOf n 1) ((off - 0x440) / 4))] else []

/-- SCH (R176): the calendars, the banks and the shapers. -/
def State.viewSch (s : State) (off : Nat) : List (Nat × Nat) :=
  let p := Pg.sch
  let cal := if s.on p SCH.CAL_SEL_bank then s.sched.calNext else s.sched.cal
  let t := s.rd p SCH.BNK_SEL_tunnel
  let held := fun (l : List CalEnt) => sumNat (l.map (fun e => 4096 / 2 ^ e.p))
  match off with
  | 0x54 => match calTunnel (if s.on p SCH.CAL_SEL_port then cal.td else cal.tu) (s.rd p SCH.CAL_SEL_pos) with
    | some n => [(31, 1), (0, n)]
    | none => []
  | 0x58 => [(0, held s.sched.cal.tu)]
  | 0x5C => [(0, held s.sched.cal.td)]
  | 0x64 => [(28, (Tab.find (2 * t) s.sched.cur.per).getD 15), (24, (Tab.find (2 * t + 1) s.sched.cur.per).getD 15), (0, if s.eSourced.contains t then s.eRateOf t else 0)]
  | 0x68 => [(0, unsigned 16 (s.tokensOf t / (tokenUnit : Int)))]
  | _ => []

/-- ALT (R177): hops and allotments of a head. -/
def State.viewAlt (s : State) (off : Nat) : List (Nat × Nat) :=
  let p := Pg.alt
  let ch := s.rd p ALT.HOP_SEL_chain
  let h : Hop := ⟨s.rd p ALT.HOP_SEL_near, s.rd p ALT.HOP_SEL_dir⟩
  let k := s.selHop
  let c := s.rd p ALT.TP_SEL_chain
  let n := s.rd p ALT.TP_SEL_tunnel
  let i := s.rd p ALT.TP_SEL_hop
  match off with
  | 0x64 => [(16, s.hopS ch h), (0, (Tab.find k s.sched.hopUsed).getD 0)]
  | 0x68 => [(16, (Tab.find k s.sched.hopBud).getD 0), (9, b2n (s.sched.hopPin.contains k)), (0, s.hopF k)]
  | 0x74 => match s.sched.inForce.find? (fun a => a.chain = c && a.tunnel = n && !a.susp) with
    | none => []
    | some a => match a.periods[i]?, (Tun.path ((s.cfgEnt n).half c))[i]? with
      | some q, some x => [(31, 1), (24, q), (0, ceilDiv (2 ^ q * s.hopT c x) 10)]
      | _, _ => []
  | _ => []

/-! ### Transactions -/

/-- XBR (R206): slots, tags, the quarantine time. -/
def State.viewXbr (s : State) (off : Nat) : List (Nat × Nat) :=
  let n := s.rd Pg.xbr XBR.SLOT_SEL_slot
  let x := s.dslot n
  let v := s.rd Pg.xbr XBR.QUOTA_SEL_vhc
  let slots := fun st => countWhere (fun k => (s.dslot k).state = st) (List.range 64)
  let tags := s.tagsOf 0
  match off with
  | 0x4C => [(0, ceilDiv (2 * max (s.chainRtt 0) (s.chainRtt 1)) 1000 + 1000)]
  | 0x50 => [(16, slots slFree), (8, slots slPending), (0, slots slReady)]
  | 0x58 => [(30, x.state), (29, x.owner), (16, x.seq % 1024), (8, x.req.vhc), (0, x.req.op)]
  | 0x60 => if s.mode = .head then [(16, tags.length), (0, min 511 s.headWaits)] else [(0, min 511 s.xbr.waitl.length)]
  | 0x68 => if s.mode = .head then [(16, s.quotaOf v), (0, countWhere (fun t => t.1 = v) tags)] else [(16, 0)]
  | _ => []

/-- ERL (R208): the ring. -/
def State.viewErl (s : State) (off : Nat) : List (Nat × Nat) :=
  if off = 0x40 then [(16, s.xbr.erl.length)]
  else if 0x4C ≤ off ∧ off < 0x6C then match s.xbr.erl[s.rd Pg.erl ERL.ERL_SEL_idx]? with
    | some e => [(0, e.w.getD ((off - 0x4C) / 4) 0)]
    | none => []
  else []

/-! ### Head mode -/

/-- Tunnels that a VHC's entries name, with their chains (R212). -/
def State.dirTuns (s : State) (v f : Nat) : List Nat :=
  let t := s.rd (Pg.vhc v) (VHC.DIR_TUN_tun f)
  let a := s.rd (Pg.vhc v) (VHC.DIR_AUX_aux f)
  [bitsOf t 27 16, bitsOf t 11 0, bitsOf a 27 16, bitsOf a 11 0].filter (· != 0)

def State.vhcTuns (s : State) (v : Nat) : List (Nat × Nat) :=
  (List.range 16).flatMap (fun f => let w := s.dirCfg v f; if dirV w then (s.dirTuns v f).map (fun n => (dirChain w, n)) else [])

/-- The entries of a VHC that are valid. -/
def State.vhcFns (s : State) (v : Nat) : List Nat := (List.range 16).filter (fun f => dirV (s.dirCfg v f))

/-- IMG_NEED (R228): bytes of a VHC's image. -/
def State.imgNeed (s : State) (v : Nat) : Nat :=
  64 + 5 * 8 + (64 + 1024 + 8 + 4) + 384 + 20 * (s.vhcTuns v).length + sumNat ((s.vhcFns v).map (fun f => Config.ctxSize (dirKind (s.dirCfg v f)))) +
    (32 * (s.vhcCtx v).held.length + 8)

/-- Tunnel IDs of the pool that are free on a chain (R232). -/
def State.tunFree (s : State) (ch : Nat) : List Nat :=
  let lo := max 16 (s.rd Pg.vhg VHG.VHG_CFG_tun_base)
  ((List.range (s.rd Pg.vhg VHG.VHG_CFG_tun_limit + 1 - lo)).map (lo + ·)).filter (fun n => !Tun.v ((s.cfgEnt n).half ch))

/-- VHG (R232): pools and the image size. -/
def State.viewVhg (s : State) (off : Nat) : List (Nat × Nat) := match off with
  | 0x5C => [(16, (s.tunFree 0).length), (0, (s.tunFree 1).length)]
  | 0x60 => [(16, 4096 - s.quotaSum 64), (0, countWhere (fun v => s.vState v = vFree) (List.range 64))]
  | 0x6C => [(0, s.imgNeed (s.rd Pg.vhg VHG.VHG_CMD_vhc))]
  | _ => []

/-- Host requests of a VHC that are outstanding, and bay requests that await the host link (R224). -/
def State.hostNp (s : State) (v : Nat) : Nat :=
  countWhere (fun o => o.init = 0 && o.req.vhc = v) (s.xbr.outst ++ s.xbr.waitl ++ s.xbr.hostHeld)

def State.devNp (s : State) (v : Nat) : Nat := countWhere (fun o => o.2.2.vhc = v) s.vhg.hostOut

/-- Requests of one function that are outstanding (R212 np_out). -/
def State.fnNp (s : State) (v f : Nat) : Nat :=
  let t := s.rd (Pg.vhc v) (VHC.DIR_TUN_tun f)
  countWhere (fun o => o.init = 0 && o.req.vhc = v && o.slot = f) (s.xbr.outst ++ s.xbr.waitl ++ s.xbr.hostHeld) +
  countWhere (fun o => o.2.2.vhc = v && o.2.2.tunnel = bitsOf t 11 0) s.vhg.hostOut

/-- VHC pages (R233). -/
def State.viewVhc (s : State) (v off : Nat) : List (Nat × Nat) :=
  if off = 0x44 then [(16, s.hostNp v), (0, s.devNp v)]
  else if 0x100 ≤ off ∧ off < 0x200 ∧ off % 16 = 12 then
    let f := (off - 0x100) / 16
    [(0, bitsOf (s.rd (Pg.vhc v) (VHC.DIR_APER_aper f)) 31 28 * 2 ^ 28 + min 4095 (s.fnNp v f) * 2 ^ 16)]
  else []

/-! ### Bays and displays -/

/-- ENC (R259): the binding selected, the pipelines. -/
def State.viewEnc (s : State) (off : Nat) : List (Nat × Nat) :=
  let fns := s.enc.fns
  match off with
  | 0x48 => match s.ownerOf (s.rd Pg.enc ENC.BIND_SEL_chain) (s.rd Pg.enc ENC.BIND_SEL_hub) 4 (s.rd Pg.enc ENC.BIND_SEL_bay) with
    | none => []
    | some (v, f) => match s.prCtx (fnKey v f) with
      | none => []
      | some x => [(31, 1), (28, x.pipe), (16, v), (0, countWhere (fun e => e.close) x.ring)]
  | _ =>
    if 0x50 ≤ off ∧ off < 0x60 then
      let k := (off - 0x50) / 4
      let mine := fns.filter (fun x => x.2.pipe = k)
      [(31, b2n (mine.any (fun x => x.2.cur.isSome))), (16, mine.length)]
    else []

/-- STG (R261): the banks. -/
def State.viewStg (s : State) (n off : Nat) : List (Nat × Nat) := match off with
  | 0x40 =>
    let x := s.dh n
    [(30, x.bank0.st), (28, x.bank1.st), (27, x.fill), (0, if x.bank0.st = 1 then x.bank0.got else if x.bank1.st = 1 then x.bank1.got else 0)]
  | _ => []

/-- FRZ (R286): the watchdog's time. -/
def State.viewFrz (s : State) (n off : Nat) : List (Nat × Nat) := match off with
  | 0x54 => [(0, min 65535 ((s.dh n).wdUs / 1000))]
  | _ => []

/-- USB (R308): the isochronous banks (the bank of interval i is i mod 2) and the requests outstanding. -/
def State.viewUsb (s : State) (n off : Nat) : List (Nat × Nat) :=
  let x := s.ufn n
  let i := s.rd (Pg.usb n) USB.ISO_IVL_interval
  let inAt := fun b => if !x.run || s.rd (Pg.usb n) USB.ISO_BW_in_bytes = 0 then 0 else if i % 2 = b then 1 else if s.isoWaits n then 2 else 0
  let outAt := fun b => if x.moved.any (fun k => k % 2 = b) then 2 else 0
  match off with
  | 0x44 => [(30, inAt 0), (28, inAt 1), (26, outAt 0), (24, outAt 1), (0, s.ist n)]
  | 0x5C => [(0, countWhere (fun o => o.init = 5 + n) s.xbr.outst)]
  | _ => []

/-- PCIE (R330): the device's requests outstanding. -/
def State.viewPcie (s : State) (n off : Nat) : List (Nat × Nat) := match off with
  | 0x5C => [(0, countWhere (fun o => o.init = 1 + n) s.xbr.outst)]
  | _ => []

/-! ### Keys, events, timers -/

/-- LRD (R423): validity of slots. -/
def State.viewLrd (s : State) (off : Nat) : List (Nat × Nat) := match off with
  | 0x40 => [(29, b2n (s.keyOk 8)), (28, b2n (s.keyOk 11)), (0, countWhere s.keyOk (List.range 64))]
  | 0x54 =>
    let n := s.rd Pg.lrd LRD.SLOT_SEL_slot
    let k := s.slot n
    [(31, b2n (s.keyOk n)), (28, k.kind), (24, k.use), (16, s.keyDepth n), (8, k.parent), (0, k.inc)]
  | _ => []

/-- BAY (R469): the bay's pending pages. -/
def State.viewBay (s : State) (n off : Nat) : List (Nat × Nat) := match off with
  | 0x40 => [(0, sumNat ((List.range 9).map (fun k => b2n (s.isPending (Pg.bay n + k)) * 2 ^ k)))]
  | _ => []

/-- EVT (R463, R468, R471). -/
def State.viewEvt (s : State) (off : Nat) : List (Nat × Nat) :=
  if off = 0x4C then [(0, b2n s.intLow)]
  else if 0x60 ≤ off ∧ off < 0xA0 then [(0, mapWord (fun p => s.present p && s.isPending p) ((off - 0x60) / 4))]
  else if off = 0x210 then [(16, s.vhg.pfq.length)]
  else match s.vhg.pfq, off with
    | e :: _, 0x214 => [(31, 1), (30, e.getD 0 0), (24, e.getD 1 0), (0, e.getD 2 0)]
    | e :: _, 0x218 => [(0, e.getD 3 0)]
    | e :: _, 0x21C => [(0, e.getD 4 0)]
    | _, _ => []

/-- TMR (R472): µs to the next expiry. -/
def State.viewTmr (s : State) (off : Nat) : List (Nat × Nat) :=
  if 0x84 ≤ off ∧ off % 32 = 4 then
    let t := (off - 0x84) / 32
    match Tab.find t s.tmr with
    | some x => [(0, ceilDiv (x - (if s.on Pg.tmr (TMR.TMR_CFG_ct_align t) then s.chain.time else s.now)) 1000)]
    | none => []
  else []

/-! ### All of them -/

/-- Fields of the word at `off` of page `p` that are not held. -/
def State.viewWord (s : State) (p off : Nat) : List (Nat × Nat) :=
  if off < 0x40 then s.viewHdr p off
  else match pageKind p with
    | some .lnk => s.viewLnk (if p = Pg.lnk .tu then .tu else .td) off
    | some .chn => s.viewChn off
    | some .ctim => s.viewCtim off
    | some .grn => s.viewGrn off
    | some .tun1 => s.viewTun1 off
    | some .sch => s.viewSch off
    | some .alt => s.viewAlt off
    | some .xbr => s.viewXbr off
    | some .erl => s.viewErl off
    | some .vhg => s.viewVhg off
    | some .vhc => s.viewVhc (p - 0x080) off
    | some .enc => s.viewEnc off
    | some .stg => s.viewStg (pageBay p) off
    | some .frz => s.viewFrz (pageBay p) off
    | some .usb => s.viewUsb (pageBay p) off
    | some .pcie => s.viewPcie (pageBay p) off
    | some .lrd => s.viewLrd off
    | some .bay => s.viewBay (pageBay p) off
    | some .evt => s.viewEvt off
    | some .tmr => s.viewTmr off
    | some .hvd => if off = 0x40 then [(8, Config.companionStepping % 256)] else []
    | _ => []

/-- The fields of a word: header fields and the page's table. -/
def PageKind.wordFields (k : PageKind) (off : Nat) : List Fld :=
  if off = 0x10 then k.evBits.map HDR.raw
  else if off = 0x14 then k.evBits.map HDR.evEn
  else if off < 0x40 then HDR.rows.filterMap (fun r => r.at? off)
  else k.rows.filterMap (fun r => r.at? off)

/-- Where the value of a field is held: SWC.CNT_DATA and SCH.WH_BIN show a counter that a selector chooses (R147, R176). -/
def State.home (s : State) (p : Nat) (f : Fld) : Nat × Fld := match pageKind p with
  | some .swc => if f.off = 0x54 then (Pg.cnt (s.rd Pg.swc SWC.CNT_SEL_port), CNTX.value (s.rd Pg.swc SWC.CNT_SEL_counter)) else (p, f)
  | some .sch => if 0x74 ≤ f.off ∧ f.off < 0x94 then (Pg.wait (s.rd Pg.sch SCH.WH_SEL_port) (s.rd Pg.sch SCH.WH_SEL_cls), WAITX.bin ((f.off - 0x74) / 4)) else (p, f)
  | _ => (p, f)

/-- Counters that RC and RO fields show: what a frozen page holds back (R459). -/
def Fld.counts (f : Fld) : Bool := f.acc = .rc || f.acc = .roc

/-- The value of a field: of other state, of the snapshot of a frozen page, or as held; a WO field reads 0. -/
def State.fieldVal (s : State) (p : Nat) (f : Fld) : Nat :=
  if f.acc = .wo then 0
  else match (s.viewWord p f.off).find? (fun x => x.1 = f.lsb) with
    | some x => x.2 % 2 ^ f.width
    | none =>
      let h := s.home p f
      if f.counts && s.frozen p then (Tab.find (fkey h.1 h.2) s.snap).getD 0 else s.rd h.1 h.2

/-- A word as it reads, without what the read itself does. -/
def State.word (s : State) (p off : Nat) : Nat := match pageKind p with
  | none => 0
  | some k => if off = 0x18 then s.evPend p else sumNat ((k.wordFields off).map (fun f => s.fieldVal p f * 2 ^ f.lsb))

end Sys2Proof.Machine
end

