-- ==== Sys2Proof/Machine/Gens.lean ====
section
/-!
DEFINITION. Sys2Proof/Machine/Gens.lean: generations and the state of bay functions as the head commands them: GEN_SET, GEN_CLEAR, GEN_QUERY and FREEZE_FN at the part that holds the
functions (R142, R216, R222, R227), and the messages that a head sends for it.
-/
namespace Sys2Proof.Machine

open Sys2Proof

/-! ### The generation table (R142) -/

/-- Hold a generation in GEN_TBL. -/
def State.setGenTbl (s : State) (v g : Nat) : State :=
  let f := SWC.GEN_TBL_gen (v / 4)
  s.wr Pg.swc f (s.rd Pg.swc f - s.genTbl v * 256 ^ (v % 4) + g % 256 * 256 ^ (v % 4))

/-- Set or clear a bit of GEN_VALID. -/
def State.setGenValid (s : State) (v : Nat) (b : Bool) : State :=
  let f := if v < 32 then SWC.GEN_VALID0_valid_lo else SWC.GEN_VALID1_valid_hi
  let w := s.rd Pg.swc f
  s.wr Pg.swc f (w - bitOf w (v % 32) * 2 ^ (v % 32) + b2n b * 2 ^ (v % 32))

/-! ### Functions park, stop, resume, start from reset (R20, R216, R222, R227, R252) -/

/-- Words of the tunnels that end at this part. -/
def State.endsHere (s : State) : List Nat :=
  let me := if s.mode = .head then 0 else s.addr
  (s.sched.tun.flatMap (fun e => [e.2.w0, e.2.w1])).filter (fun w => Tun.v w && Tun.dhub w = me)

/-- The part has a function of a VHC: a T tunnel of it ends here at a function's port (DEDUCED, log entry 49). -/
def State.ownsFn (s : State) (v : Nat) : Bool := s.endsHere.any (fun w => Tun.cls w = clsT && Tun.vhc w = v && Tun.dport w != 8)

/-- The display heads whose function belongs to a VHC. -/
def State.headsOf (s : State) (v : Nat) : List Nat :=
  (s.endsHere.filter (fun w => Tun.cls w = clsT && Tun.vhc w = v && Tun.dport w = 5)).map Tun.dbay |>.eraseDups

/-- What a part holds of its functions. -/
def State.setFns (s : State) (f : Fns) : State := { s with fns := f }

/-- The functions of a VHC park. -/
def State.fnPark (s : State) (v : Nat) : State :=
  let f := s.fns
  let s := s.setFns { f with parked := if f.parked.contains v then f.parked else f.parked ++ [v], frozen := f.frozen.filter (· != v) }
  s.each (s.headsOf v) State.parkStage

/-- The functions of a VHC stop at their next transfer boundary and hold their interrupts (R227). -/
def State.fnStop (s : State) (v : Nat) : State :=
  let f := s.fns
  let s := s.setFns { f with frozen := if f.frozen.contains v then f.frozen else f.frozen ++ [v] }
  s.each (s.headsOf v) State.parkStage

/-- Functions go on: interrupts and device requests that were held leave. -/
def State.fnGo (s : State) (v : Nat) (unpark : Bool) : State :=
  let f := s.fns
  let mine := f.heldIrq.filter (fun x => x.2.2.1 = v)
  let s := s.setFns { parked := if unpark then f.parked.filter (· != v) else f.parked, frozen := f.frozen.filter (· != v), heldIrq := f.heldIrq.filter (fun x => x.2.2.1 != v) }
  (s.each mine (fun s x => s.bayIrq x.1 x.2.1 x.2.2.1 x.2.2.2.1 x.2.2.2.2)).devThaw v

/-- One function starts from reset: kind and unit. -/
def State.fnReset1 (s : State) (v : Nat) (x : Nat × Nat) : State :=
  if x.1 = 1 then s.hcReset x.2
  else if x.1 = 3 then
    let c := s.pcx x.2
    s.setPcx x.2 { c with held := c.held.filter (fun h => s.fnVhc h.1 != v), outs := c.outs.filter (fun o => o.req.vhc != v) }
  else s

/-- The functions `own` of a VHC start from reset. -/
def State.fnReset (s : State) (v : Nat) (own : List (Nat × Nat)) : State :=
  let f := s.fns
  (s.setFns { f with heldIrq := f.heldIrq.filter (fun x => x.2.2.1 != v) }).each own (fun s x => s.fnReset1 v x)

/-- GEN_SET (R222): `flags` bit 0 valid, bit 1 park, bit 2 reset functions. -/
def State.genSet (s : State) (v gen flags : Nat) (own : List (Nat × Nat)) : State :=
  let s := (s.setGenTbl v gen).setGenValid v (bitOf flags 0 = 1)
  let s := if bitOf flags 2 = 1 then s.fnReset v own else s
  if bitOf flags 1 = 1 then s.fnPark v else if bitOf flags 0 = 1 then s.fnGo v true else s

/-- GEN_CLEAR (R222): no generation is valid, every function parks. -/
def State.genClear (s : State) : State :=
  let s := (s.wr Pg.swc SWC.GEN_VALID0_valid_lo 0).wr Pg.swc SWC.GEN_VALID1_valid_hi 0
  (s.setFns { s.fns with parked := List.range 64 }).each (List.range 4) State.parkStage

/-- What a message does to the functions of this part (R222). -/
def State.genApply (s : State) (code v b5 b6 : Nat) (own : List (Nat × Nat)) : State :=
  if code = 0x30 then s.genSet v b5 b6 own
  else if code = 0x31 then s.genClear
  else if code = 0x33 then (if bitOf b5 0 = 1 then s.fnStop v else s.fnGo v false)
  else s

/-! ### The hub's side (R222, R227) -/

/-- A generation message at a hub that has a home: its effect, and the answer with what was held before. -/
def State.genMsg (s : State) (c : Cell) (code : Nat) (own : List (Nat × Nat)) : State :=
  if s.mode != .hub || !s.homed || byteAt c.payload 0 != code then s
  else
    let v := byteAt c.payload 4 % 64
    let was := [s.genTbl v, b2n (s.genValid v)]
    let answers := code = 0x31 || s.ownsFn v
    let s := s.genApply code v (byteAt c.payload 5) (byteAt c.payload 6) own
    if !answers then s
    else s.sendCore s.tuRole 0xA 8 0 0 ([BitVec.ofNat 8 (code + 0x80), 0] ++ leBytes 2 (numAt c.payload 2 2) ++ leBytes 1 v ++ was.flatMap (leBytes 1) ++ [0])

def execGenSetRx (p : Port) (c : Cell) (own : List (Nat × Nat)) (s : State) : Host.Outcome State Fault Refusal := s.run (fun s => s.msgIn p c (fun s => if s.notHomes p c then s.foreign else s.genMsg c 0x30 own))

def execGenClearRx (p : Port) (c : Cell) (s : State) : Host.Outcome State Fault Refusal := s.run (fun s => s.msgIn p c (fun s => if s.notHomes p c then s.foreign else s.genMsg c 0x31 []))

def execGenQueryRx (p : Port) (c : Cell) (s : State) : Host.Outcome State Fault Refusal := s.run (fun s => s.msgIn p c (fun s => if s.notHomes p c then s.foreign else s.genMsg c 0x32 []))

def execFreezeFnRx (p : Port) (c : Cell) (s : State) : Host.Outcome State Fault Refusal := s.run (fun s => s.msgIn p c (fun s => if s.notHomes p c then s.foreign else s.genMsg c 0x33 []))

/-! ### The head's side (R222) -/

/-- A hub on a chain as one number. -/
def hubKey (ch a : Nat) : Nat := 64 * ch + a

/-- The hubs that own functions of a VHC; 0 is the head itself. -/
def State.hubsOf (s : State) (v : Nat) : List Nat :=
  ((s.vhcFns v).map (fun f => let w := s.dirCfg v f; if dirHub w = 0 then 0 else hubKey (dirChain w) (dirHub w))).eraseDups

/-- The functions of a VHC on the head's own bays. -/
def State.ownFns (s : State) (v : Nat) : List (Nat × Nat) :=
  ((s.vhcFns v).filter (fun f => dirHub (s.dirCfg v f) = 0)).map (fun f => (dirKind (s.dirCfg v f), dirUnit (s.dirCfg v f)))

/-- One copy of a generation message leaves. -/
def State.genCell (s : State) (m : GenMsg) (k : Nat) : State :=
  s.sendCore (portOfChain (k / 64)) 0xA 7 (k % 64) 0 ([BitVec.ofNat 8 m.code, 0] ++ leBytes 2 m.seq ++ leBytes 1 m.vhc ++ leBytes 1 m.gen ++ leBytes 1 m.flags ++ [0])

/-- A generation message goes to hubs: the head serves itself at once. Answers whether nothing is awaited, and the generations that the head itself reports. -/
def State.genSend (s : State) (code v b5 b6 : Nat) (hubs : List Nat) (job : Nat) : Bool × List Nat × State :=
  let out := hubs.filter (· != 0)
  let seen := if hubs.contains 0 then [s.genTbl v] else []
  let s := if hubs.contains 0 then s.genApply code v b5 b6 (s.ownFns v) else s
  if out.isEmpty then (true, seen, s)
  else
    let seq := (s.vhg.genSeq + 1) % 65536
    let m : GenMsg := { code := code, vhc := v, gen := b5 % 256, flags := b6 % 256, seq := seq, wait := out, seen := seen, job := job }
    let s : State := { s with vhg := { s.vhg with genSeq := seq, msgs := s.vhg.msgs ++ [m] } }
    (false, seen, s.each out (fun s k => s.genCell m k))

def State.setMsgs (s : State) (l : List GenMsg) : State := { s with vhg := { s.vhg with msgs := l } }

/-- The first silent hub of a VHC's command is recorded in its page (R222). -/
def State.silentHub (s : State) (v k : Nat) : State :=
  let p := Pg.vhc v
  let s := if s.on p VHC.DRAIN_missing then s else ((s.wr p VHC.DRAIN_missing 1).wr p VHC.DRAIN_chain (k / 64)).wr p VHC.DRAIN_hub (k % 64)
  { s with vhg := { s.vhg with silent := if s.vhg.silent.contains k then s.vhg.silent else s.vhg.silent ++ [k] } }

end Sys2Proof.Machine
end

