-- ==== Sys2Proof/Machine/Vhg.lean ====
section
/-!
DEFINITION. Sys2Proof/Machine/Vhg.lean: the VHG commands of a head (R216–R218, R223–R229): creating, filling, draining, freezing, saving, restoring and destroying a VHC.
-/
namespace Sys2Proof.Machine

open Sys2Proof

/-! ### Results and states (R216, R217, R232) -/

def vhOk : Nat := 0x00
def vhBusy : Nat := 0x01
def vhBadOp : Nat := 0x02
def vhState : Nat := 0x03
def vhNoVf : Nat := 0x04
def vhNoFunc : Nat := 0x05
def vhOwned : Nat := 0x06
def vhNoTunnel : Nat := 0x07
def vhQuota : Nat := 0x08
def vhVectors : Nat := 0x09
def vhImgSize : Nat := 0x0A
def vhImgCheck : Nat := 0x0B
def vhImgProfile : Nat := 0x0C
def vhHubMissing : Nat := 0x0D
def vhDmaErr : Nat := 0x0E
def vhDrainTmo : Nat := 0x0F

/-- A command completes: its result, cmd_done or refused (R217). -/
def State.vhgEnd (s : State) (code : Nat) : State :=
  ((s.wr Pg.vhg VHG.VHG_STAT_busy 0).wr Pg.vhg VHG.VHG_STAT_result code).raise Pg.vhg (if code = 0 then VHG.ev_cmd_done else VHG.ev_refused)

/-- SAVE or RESTORE ends without success (R232 img_err). -/
def State.imgFail (s : State) (code : Nat) : State := (s.vhgEnd code).raise Pg.vhg VHG.ev_img_err

def State.setVst (s : State) (v st : Nat) : State := s.wr (Pg.vhc v) VHC.VHC_STAT_state st

/-- The VHC takes a generation. -/
def State.setVgen (s : State) (v g : Nat) : State :=
  if s.vGen v = g % 256 then s else (s.wr (Pg.vhc v) VHC.VHC_STAT_gen (g % 256)).raise (Pg.vhc v) VHC.ev_gen_changed

/-- VHG_ARGn. -/
def State.vhArg (s : State) (i : Nat) : Nat := s.rd Pg.vhg (VHG.VHG_ARG_arg i)

/-- The words of a directory entry are written. -/
def State.putDir (s : State) (v f : Nat) (w : List Nat) : State :=
  let p := Pg.vhc v
  (((s.wr p (VHC.DIR_CFG_cfg f) (w.getD 0 0)).wr p (VHC.DIR_TUN_tun f) (w.getD 1 0)).wr p (VHC.DIR_AUX_aux f) (w.getD 2 0)).wr p (VHC.DIR_APER_aper f) (w.getD 3 0)

/-- What a command does with the VHC. -/
def State.setJob (s : State) (v job fn : Nat) : State := s.setVhcCtx v { s.vhcCtx v with job := job, jobFn := fn }

/-- The head-side part of a function ends: bindings, queue sets. -/
def State.dropFn (s : State) (v f : Nat) : State :=
  let k := dirKind (s.dirCfg v f)
  if k = 4 then s.unbindFn v f else if k = 2 then s.resetNic v f else s

/-- The head-side part of a function starts from reset. -/
def State.freshFn (s : State) (v f : Nat) : State :=
  let k := dirKind (s.dirCfg v f)
  if k = 4 then s.resetPresent v f else if k = 2 then s.resetNic v f else s

/-- A command is written to VHG_CMD (R217): BUSY while one runs, STATE where it is not allowed. -/
def State.vhgCmd (s : State) (op w : Nat) (ok : Nat → Bool) (f : State → Nat → State) : State :=
  if s.mode != .head then s
  else
    let p := Pg.vhg
    let v := bitsOf w 21 16
    let s := (((s.wr p VHG.VHG_CMD_op op).wr p VHG.VHG_CMD_vhc v).wr p VHG.VHG_CMD_func (bitsOf w 11 8)).wr p VHG.VHG_CMD_ctx_load (bitOf w 1)
    let s := s.wr p VHG.VHG_CMD_snapshot (bitOf w 0)
    if bitOf w 31 = 0 then s
    else if s.on p VHG.VHG_STAT_busy then (s.wr p VHG.VHG_STAT_result vhBusy).raise p VHG.ev_refused
    else
      let s := s.wr p VHG.VHG_STAT_vhc v
      if !ok (s.vState v) then s.vhgEnd vhState else f (s.wr p VHG.VHG_STAT_busy 1) v

/-! ### CREATE (R217, R223) -/

def State.vhcCreate (s : State) (w numVfs : Nat) : State :=
  ({ s with vhg := { s.vhg with numVfs := numVfs } } : State).vhgCmd 1 w (fun st => st = vFree) (fun s v =>
    let q := s.vhArg 0 % 8192
    if s.vhg.numVfs < v + 1 then s.vhgEnd vhNoVf
    else if 4096 < s.quotaSum v + q then s.vhgEnd vhQuota
    else
      let s := s.setQuota v q
      let s := s.each (List.range 16) (fun s f => s.putDir v f [])
      let x := s.vhcCtx v
      let s := s.setVhcCtx v { pba := [], unmasked := x.unmasked, msix := x.msix }
      ((s.setVgen v (s.vGen v + 1)).setVst v Machine.vActive).vhgEnd vhOk)

def execVhcCreate (w numVfs : Nat) (s : State) : Host.Outcome State Fault Refusal := s.run (fun s => s.vhcCreate w numVfs)

/-! ### ADD_FUNC (R213, R218) -/

/-- The aperture code of a kind (R213). -/
def kindAper (kind : Nat) : Nat := if kind = 1 then 6 else if kind = 2 then 4 else if kind = 3 then 10 else if kind = 4 then 4 else if kind = 5 then 9 else 10

/-- A routing word (R150). -/
def routeWord (cls shub sport dhub dport vhc dbay : Nat) : Nat :=
  2 ^ 31 + cls * 2 ^ 29 + shub * 2 ^ 22 + sport * 2 ^ 18 + dhub * 2 ^ 12 + dport * 2 ^ 8 + vhc * 4 + dbay

/-- A hub that a function may name: in the chain's directory, with the bay (R218); bays 2 and 3 of a P4808 are absent (R2). -/
def State.noFunc (s : State) (ch hub kind unit : Nat) : Bool :=
  let bay := 1 ≤ kind && kind ≤ 4
  kind = 0 || kind = 7 || (kind = 3 && hub = 0) || (bay && 3 < unit) ||
    (if hub = 0 then bay && s.fused unit
     else match Tab.find hub (s.headChain ch).dir with
      | some e => !e.valid || isP12 e || (bay && e.ident / 2 ^ 24 = 2 && 2 ≤ unit)
      | none => true)

/-- The tunnels of a function of VHC `v` (R213): routing word, TUN_W2, TUN_W3, whether the parameters apply, and whether it is an aux tunnel toward the function (1), back (2), or of the T pair (0). -/
def State.fnTunnels (s : State) (v w : Nat) : List (Nat × Nat × Nat × Nat) :=
  let ch := dirChain w
  let hub := dirHub w
  let kind := dirKind w
  let unit := dirUnit w
  let port := kindPort kind unit
  let dbay := if kind = 4 then unit else 0
  let pair := [(routeWord clsT 0 8 hub port v dbay, 0, 0, 0), (routeWord clsT hub port 0 8 v dbay, 0, 0, 0)]
  let ph := ch * 2 ^ 23
  let dn := bitsOf (s.vhArg 1) 28 16
  let up := bitsOf (s.vhArg 1) 12 0
  let pw := bitsOf (s.vhArg 3) 31 24 * 2 ^ 24 + ph
  let ew := bitsOf (s.vhArg 3) 23 16 * 2 ^ 24 + ph
  let env := bitsOf (s.vhArg 2) 28 16 * 2 ^ 16 + bitsOf (s.vhArg 2) 12 0
  pair ++
    (if kind = 1 then (if dn != 0 && up != 0 then [(routeWord clsG 0 8 hub port v 0, dn * 2 ^ 16, pw, 1), (routeWord clsG hub port 0 8 v 0, up * 2 ^ 16, pw, 2)] else [])
     else if kind = 2 then [(routeWord clsE 0 8 hub port v 0, env, ew, 1), (routeWord clsE hub port 0 8 v 0, env, ew, 2)]
     else if kind = 4 then [(routeWord clsG 0 5 hub 5 v unit, dn * 2 ^ 16, pw, 1)]
     else [])

/-- A half is put into an entry; G and E halves bring the parameter words. -/
def TunEnt.withHalf (e : TunEnt) (h w w2 w3 : Nat) : TunEnt :=
  let e := if Tun.cls w = clsG || Tun.cls w = clsE then { e with w2 := w2, w3 := w3 } else e
  if h = 0 then { e with w0 := w } else { e with w1 := w }

/-- A half is taken from an entry; what remains of a G or E half are no parameters. -/
def TunEnt.without (e : TunEnt) (h : Nat) : TunEnt :=
  let w := e.half h
  let e := if Tun.cls w = clsG || Tun.cls w = clsE then { e with w2 := 0, w3 := 0 } else e
  if h = 0 then { e with w0 := 0 } else { e with w1 := 0 }

/-- Admission of several entries in order, each on what those before it leave (R161). -/
def State.admitAll : List (Nat × TunEnt) → State → Nat
  | [], _ => 0
  | x :: t, s => let c := s.admission x.1 x.2; if c != 0 then c else State.admitAll t (s.takeEntry x.1 x.2)

/-- Tunnels of a chain are deleted for the VHC logic (R154). -/
def State.deleteTuns (s : State) (v fn : Nat) (l : List (Nat × Nat)) : State :=
  s.commitEntries (l.map (fun x => (x.2, (s.cfgEnt x.2).without x.1))) { steps := [], vhc := v, fn := fn }

/-- The tunnels of an entry's words. -/
def wordTuns (w : List Nat) : List (Nat × Nat) :=
  let t := w.getD 1 0
  let a := w.getD 2 0
  ([bitsOf t 27 16, bitsOf t 11 0, bitsOf a 27 16, bitsOf a 11 0].filter (· != 0)).map (fun n => (dirChain (w.getD 0 0), n))

/-- The entry becomes valid (R218). -/
def State.addDone (s : State) (v : Nat) : State :=
  let x := s.vhcCtx v
  let s := (s.putDir v x.jobFn x.entry).setVhcCtx v { x with job := 0, entry := [] }
  let s := if dirKind (x.entry.getD 0 0) = 4 then s.bindFn v x.jobFn else s
  s.vhgEnd vhOk

/-- The tunnels stand: a hub that comes to own a function of the VHC is told its generation, valid while the VHC is ACTIVE (R142, R222; DEDUCED, log entry 50). -/
def State.addWire (s : State) (v : Nat) : State :=
  let x := s.vhcCtx v
  let w := x.entry.getD 0 0
  let k := if dirHub w = 0 then 0 else hubKey (dirChain w) (dirHub w)
  if (s.hubsOf v).contains k then s.addDone v
  else
    let r := s.genSend 0x30 v (s.vGen v) (if s.vState v = Machine.vActive then 1 else 2) [k] 1
    if r.1 then r.2.2.addDone v else r.2.2.setVhcCtx v { r.2.2.vhcCtx v with job := 4 }

/-- The checks of R218 before tunnels are taken, in its order. -/
def State.addCheck (s : State) (v f w : Nat) : Nat :=
  let kind := dirKind w
  if dirV (s.dirCfg v f) then vhState
  else if s.noFunc (dirChain w) (dirHub w) kind (dirUnit w) then vhNoFunc
  else if kind ≤ 4 && (s.ownerOf (dirChain w) (dirHub w) kind (dirUnit w)).isSome then vhOwned
  else if dirVecCnt w = 0 || 64 < dirVecBase w + dirVecCnt w then vhVectors
  else 0

/-- The words of DIRf_CFG that ARG0 gives. -/
def dirMask (w : Nat) : Nat := 2 ^ 31 + bitsOf w 30 17 * 2 ^ 17 + bitsOf w 13 8 * 2 ^ 8 + bitsOf w 6 0

def State.addFunc (s : State) (v f : Nat) : State :=
  let w := dirMask (s.vhArg 0)
  let ch := dirChain w
  let code := s.addCheck v f w
  let ts := s.fnTunnels v w
  let ids := (s.tunFree ch).take ts.length
  let es := (ids.zip ts).map (fun x => (x.1, (s.cfgEnt x.1).withHalf ch x.2.1 x.2.2.1 x.2.2.2.1))
  let adm := State.admitAll es s
  if code != 0 then s.vhgEnd code
  else if ids.length < ts.length then s.vhgEnd vhNoTunnel
  else if adm != 0 then s.vhgEnd (0x20 + adm)
  else
    let aux := fun k => (((ids.zip ts).find? (fun x => x.2.2.2.2 = k)).map (·.1)).getD 0
    let entry := [w, ids.getD 0 0 * 2 ^ 16 + ids.getD 1 0, aux 1 * 2 ^ 16 + aux 2, kindAper (dirKind w) * 2 ^ 28]
    (s.setVhcCtx v { s.vhcCtx v with job := 3, jobFn := f, entry := entry }).commitEntries es { steps := [], vhc := v, fn := f }

/-! ### Requests that end without the trunk (R224, R225, R227) -/

/-- Host requests of a VHC that a test picks complete with CA; their tags rest (R188) or return. -/
def State.failOut (s : State) (v : Nat) (f : Outst → Bool) (rest : Bool) : State :=
  let mine := fun (o : Outst) => o.init = 0 && o.req.vhc = v && f o
  let out := s.xbr.outst.filter mine
  let wait := (s.xbr.waitl ++ s.xbr.hostHeld).filter mine
  let quar := if rest then out.map (fun o => ({ init := 0, vhc := v, tag := o.req.tag } : Quar)) else []
  let s : State := { s with xbr := { s.xbr with outst := s.xbr.outst.filter (fun o => !mine o), waitl := s.xbr.waitl.filter (fun o => !mine o), hostHeld := s.xbr.hostHeld.filter (fun o => !mine o), quar := s.xbr.quar ++ quar } }
  (s.each (out ++ wait) (fun s o => s.finish o stCA [])).pump

/-! ### DISABLE, FLR, VF Enable, ENABLE (R217, R222–R226) -/

/-- T_drain in ns (R224). -/
def State.tDrain (s : State) (v : Nat) : Nat :=
  let ms := fun n => max 1 (min 1000 n)
  let cto := max (ms (s.rd Pg.xbr XBR.CTO_CFG_cto_head)) (ms (s.rd Pg.xbr XBR.CTO_CFG_cto_hub))
  let rtt := ((s.vhcFns v).map (fun f => s.chainRtt (dirChain (s.dirCfg v f)))).foldl max 0
  cto * 1000000 + 2 * rtt

/-- DRAIN is set for a drain that begins. -/
def State.drainPage (s : State) (v : Nat) : State :=
  let p := Pg.vhc v
  (((s.wr p VHC.DRAIN_t_drain (min 65535 (ceilDiv (s.tDrain v) 10000))).wr p VHC.DRAIN_missing 0).wr p VHC.DRAIN_chain 0).wr p VHC.DRAIN_hub 0

/-- The VHC begins to drain toward DISABLED (R224 steps 1 and 2). -/
def State.drainStart (s : State) (v kind : Nat) (cmd : Bool) : State :=
  let s := ((s.setVst v vDraining).encAbort v).drainPage v
  let g := (s.vGen v + 1) % 256
  let s := s.setVhcCtx v { s.vhcCtx v with drain := kind, drainCmd := cmd, genNext := g }
  (s.genSend 0x30 v g 2 (s.hubsOf v) 2).2.2

/-- ENABLE ends: the functions start from reset, the VHC is ACTIVE. -/
def State.enableDone (s : State) (v : Nat) : State := (s.each (s.vhcFns v) (fun s f => s.freshFn v f)).setVst v Machine.vActive

/-- The hubs take the generation as valid and reset the functions. -/
def State.enableSend (s : State) (v job : Nat) : Bool × State :=
  let r := s.genSend 0x30 v (s.vGen v) 5 (s.hubsOf v) job
  (r.1, r.2.2)

/-- The ENABLE that follows an FLR (R226). -/
def State.flrEnable (s : State) (v : Nat) : State :=
  let r := s.enableSend v 2
  let s := r.2.setVhcCtx v { r.2.vhcCtx v with drain := if r.1 then 0 else 6 }
  if r.1 then s.enableDone v else s

/-- A drain ends in DISABLED (R224 steps 4 and 5). -/
def State.disabled (s : State) (v : Nat) : State :=
  let x := s.vhcCtx v
  let s := ((s.setVst v vDisabled).setVgen v x.genNext).raise Pg.vhg VHG.ev_disable_done
  let s := s.failOut v (fun _ => true) false
  let s : State := { s with xbr := { s.xbr with quar := s.xbr.quar.filter (fun q => !(q.init = 0 && q.vhc = v)) } }
  let s := (s.setVhcCtx v { s.vhcCtx v with drain := 0, drainCmd := false, fences := [], held := [], snapped := false }).pump
  if x.drain = 4 then s.flrEnable v else if x.drainCmd then s.vhgEnd vhOk else s

/-! ### FREEZE and THAW (R217, R220, R221, R227) -/

/-- The VHC becomes FROZEN. -/
def State.frozenNow (s : State) (v code : Nat) (snap : Bool) : State :=
  let s := s.setVhcCtx v { s.vhcCtx v with drain := 0, drainCmd := false, snapped := snap }
  let s := if snap || code != 0 then s.failOut v (fun o => !o.answered) true else s
  (((s.setVst v vFrozen).raise (Pg.vhc v) VHC.ev_frozen).raise Pg.vhg VHG.ev_freeze_done).vhgEnd code

def State.freeze (s : State) (v : Nat) : State :=
  let snap := s.on Pg.vhg VHG.VHG_CMD_snapshot
  let s := ((s.setVst v vFreezing).encAbort v).drainPage v
  let s := s.setVhcCtx v { s.vhcCtx v with drain := if snap then 3 else 2, drainCmd := true }
  let r := s.genSend 0x33 v 1 0 (s.hubsOf v) 2
  if snap && r.1 then r.2.2.frozenNow v vhOk true else r.2.2

/-- What was held for an ACTIVE VHC is delivered: error entries, and one message for each vector pending and unmasked (R220, R221). -/
def State.deliverHeld (s : State) (v : Nat) : State :=
  let x := s.vhcCtx v
  let go := x.pba.filter (fun k => x.unmasked.contains k)
  let s := s.setVhcCtx v { x with held := [], pba := x.pba.filter (fun k => !x.unmasked.contains k) }
  let s := s.each go (fun s k => (s.bump Pg.vhg VHG.EVD_CNT_delivered 1).emit (.msix (v + 1) k))
  s.each x.held (fun s e => s.eqEntry v e)

def State.thawDone (s : State) (v : Nat) : State :=
  let s := (s.setJob v 0 0).setVst v Machine.vActive
  ((s.setVhcCtx v { s.vhcCtx v with snapped := false }).deliverHeld v).vhgEnd vhOk

def State.thaw (s : State) (v : Nat) : State :=
  let r := s.genSend 0x33 v 0 0 (s.hubsOf v) 1
  if r.1 then r.2.2.thawDone v else r.2.2.setJob v 2 0

/-! ### REMOVE_FUNC and DESTROY (R217, R225) -/

/-- The entry becomes invalid (R225 step 4). -/
def State.removeDone (s : State) (v : Nat) : State :=
  let x := s.vhcCtx v
  let f := x.jobFn
  let s := s.failOut v (fun o => o.slot = f) true
  let s := (s.dropFn v f).putDir v f []
  (s.setVhcCtx v { s.vhcCtx v with job := 0, jobFn := 0, gone := x.gone.filter (· != f) }).vhgEnd vhOk

/-- The function's tunnels are gone: its requests drain (R225 step 3). -/
def State.removeWait (s : State) (v : Nat) : State :=
  let s := s.setVhcCtx v { s.vhcCtx v with job := 6 }
  if s.fnNp v (s.vhcCtx v).jobFn = 0 then s.removeDone v else s

def State.removeFunc (s : State) (v f : Nat) : State :=
  let w := s.dirCfg v f
  if !dirV w then s.vhgEnd vhNoFunc
  else
    let x := s.vhcCtx v
    let s := s.setVhcCtx v { x with job := 5, jobFn := f, gone := x.gone ++ [f] }
    s.deleteTuns v f ((s.dirTuns v f).map (fun n => (dirChain w, n)))

/-- The VHC has nothing left and is FREE. -/
def State.vhcFree (s : State) (v : Nat) : State :=
  let s := s.each (s.vhcFns v) (fun s f => s.dropFn v f)
  let s := s.each (List.range 16) (fun s f => s.putDir v f [])
  let x := s.vhcCtx v
  (s.setVhcCtx v { pba := x.pba, unmasked := x.unmasked, msix := x.msix }).setVst v vFree

def State.destroy (s : State) (v : Nat) : State := (s.setJob v 7 0).deleteTuns v 0 (s.vhcTuns v)

/-! ### The image (R228) -/

/-- A section of an image. -/
def imgSection (type : Nat) (body : List Byte) : List Byte := leBytes 2 type ++ [0, 0] ++ leBytes 4 body.length ++ body

/-- The device ID behind an entry's hub; the head's own for hub 0. -/
def State.hubId (s : State) (w : Nat) : Nat :=
  if dirHub w = 0 then s.devId else match Tab.find (dirHub w) (s.headChain (dirChain w)).dir with
    | some e => e.id
    | none => 0

/-- The bytes of the contexts of a VHC's functions. -/
def State.ctxBytes (s : State) (v : Nat) : Nat := sumNat ((s.vhcFns v).map (fun f => Config.ctxSize (dirKind (s.dirCfg v f))))

/-- The bits of a set of vectors, as a 64-bit number. -/
def vecBits (l : List Nat) : Nat := sumNat ((List.range 64).map (fun k => b2n (l.contains k) * 2 ^ k))

/-- The MSI-X table of a VHC: bit 0 of word 3 is the mask. -/
def State.msixBytes (s : State) (v : Nat) : List Byte :=
  let x := s.vhcCtx v
  (List.range 64).flatMap (fun k => (List.range 3).flatMap (fun i => leBytes 4 ((Tab.find (4 * k + i) x.msix).getD 0)) ++ leBytes 4 (b2n (!x.unmasked.contains k)))

/-- The image of a VHC; `ctxs` is what the hubs' context apertures gave. -/
def State.image (s : State) (v : Nat) (ctxs : List Byte) : List Byte :=
  let x := s.vhcCtx v
  let p := Pg.vhc v
  let n := s.ctxBytes v
  let s1 := (List.range 16).flatMap (fun i => leBytes 4 (s.word p (0x40 + 4 * i))) ++ s.msixBytes v ++ leBytes 8 (vecBits x.pba) ++ leBytes 4 (s.quotaOf v)
  let s2 := (List.range 16).flatMap (fun f => (List.range 4).flatMap (fun i => leBytes 4 (s.word p (0x100 + 16 * f + 4 * i))) ++
    leBytes 8 (if dirV (s.dirCfg v f) then s.hubId (s.dirCfg v f) else 0))
  let s3 := (s.vhcTuns v).flatMap (fun t => let e := s.tunShown t.2
    leBytes 4 (t.1 * 2 ^ 31 + t.2) ++ leBytes 4 e.w0 ++ leBytes 4 e.w1 ++ leBytes 4 e.w2 ++ leBytes 4 e.w3)
  let s4 := (ctxs ++ List.replicate n 0).take n
  let s5 := x.held.flatMap (fun e => e.flatMap (leBytes 4)) ++ leBytes 8 (vecBits x.pba)
  let body := imgSection 1 s1 ++ imgSection 2 s2 ++ imgSection 3 s3 ++ imgSection 4 s4 ++ imgSection 5 s5
  leBytes 4 0x56483850 ++ leBytes 2 1 ++ leBytes 2 5 ++ leBytes 4 (64 + body.length) ++ leBytes 4 (crc32c body) ++ leBytes 8 s.devId ++ leBytes 2 s.profileId ++ leBytes 1 v ++
    leBytes 1 (s.vGen v) ++ leBytes 4 (b2n x.snapped + 2 * b2n (!x.held.isEmpty || !x.pba.isEmpty)) ++ List.replicate 32 0 ++ body

/-! ### SAVE (R228) -/

def State.save (s : State) (v : Nat) : State :=
  if s.vhArg 2 < s.imgNeed v then s.imgFail vhImgSize
  else s.setVhcCtx v { s.vhcCtx v with job := 8, entry := [s.vhArg 0, s.vhArg 1] }

/-- The image has been written with the PF's Requester ID, or a host write has failed. -/
def State.saveDone (s : State) (v : Nat) (ok : Bool) (ctxs : List Byte) : State :=
  let x := s.vhcCtx v
  if s.mode != .head || x.job != 8 then s
  else
    let s := s.setVhcCtx v { x with job := 0, entry := [] }
    if !ok then s.imgFail vhDmaErr
    else
      let l := s.image v ctxs
      let p := Pg.vhc v
      let s := s.emit (.hostWrite 0 (x.entry.getD 0 0 + 2 ^ 32 * x.entry.getD 1 0) l)
      let s := ((s.wr p VHC.IMG_LO_img_lo (x.entry.getD 0 0)).wr p VHC.IMG_HI_img_hi (x.entry.getD 1 0)).wr p VHC.IMG_LEN_img_len l.length
      (s.raise Pg.vhg VHG.ev_save_done).vhgEnd vhOk

/-! ### RESTORE (R223, R229) -/

/-- The sections of an image: type and body, as many as its header counts. -/
def imgSections : Nat → List Byte → List (Nat × List Byte)
  | 0, _ => []
  | n + 1, l => (numAt l 0 2, (l.drop 8).take (numAt l 4 4)) :: imgSections n (l.drop (8 + numAt l 4 4))

/-- The body of a section of an image. -/
def imgBody (l : List Byte) (type : Nat) : List Byte := (((imgSections (numAt l 6 2) (l.drop 64)).find? (fun x => x.1 = type)).map (·.2)).getD []

/-- Magic, version and CRC are right. -/
def imgGood (l : List Byte) : Bool :=
  numAt l 0 4 = 0x56483850 && numAt l 4 2 = 1 && 64 ≤ numAt l 8 4 && numAt l 8 4 ≤ l.length && numAt l 0x0C 4 = crc32c ((l.take (numAt l 8 4)).drop 64)

/-- Where a device ID is now: chain and address; this head itself is address 0. -/
def State.findHub (s : State) (id : Nat) : Option (Nat × Nat) :=
  if id = s.devId then some (0, 0)
  else (([0, 1] : List Nat).flatMap (fun ch => ((s.headChain ch).dir.filter (fun e => e.2.valid && e.2.id = id)).map (fun e => (ch, e.1)))).head?

/-- The valid entries of an image: number, words, device ID. -/
def imgDirs (l : List Byte) : List (Nat × List Nat × Nat) :=
  let b := imgBody l 2
  ((List.range 16).map (fun f => (f, (List.range 4).map (fun i => numAt b (24 * f + 4 * i) 4), numAt b (24 * f + 16) 8))).filter (fun x => dirV (x.2.1.getD 0 0))

/-- DIRf_CFG with another chain and hub. -/
def dirMove (w ch hub : Nat) : Nat := w - bitsOf w 26 20 * 2 ^ 20 + ch * 2 ^ 26 + hub * 2 ^ 20

/-- An image's entries with their hubs' current addresses; none where a hub is in neither directory. -/
def State.imgMoved (s : State) (l : List Byte) : Option (List (Nat × List Nat × Nat)) :=
  (imgDirs l).mapM (fun x => (s.findHub x.2.2).map (fun h =>
    let w := x.2.1.getD 0 0
    (x.1, (if h.2 = 0 then dirMove w (dirChain w) 0 else dirMove w h.1 h.2) :: x.2.1.drop 1, w)))

/-- A routing word whose far end is at another address, for another VHC. -/
def routeMove (w a v : Nat) : Nat :=
  routeWord (Tun.cls w) (if Tun.shub w = 0 && (Tun.sport w = 8 || Tun.sport w = 5) then 0 else a) (Tun.sport w)
    (if Tun.shub w = 0 && (Tun.sport w = 8 || Tun.sport w = 5) then a else 0) (Tun.dport w) v (Tun.dbay w)

/-- The tunnel entries of an image as they are to be written: chain, tunnel ID, routing word, parameters. -/
def imgTuns (l : List Byte) (dirs : List (Nat × List Nat × Nat)) (v : Nat) : List (Nat × Nat × Nat × Nat × Nat) :=
  let b := imgBody l 3
  (List.range (b.length / 20)).filterMap (fun i =>
    let at4 := fun k => numAt b (20 * i + k) 4
    let ch := at4 0 / 2 ^ 31
    let n := at4 0 % 4096
    match dirs.find? (fun x => dirChain x.2.2 = ch && (wordTuns x.2.1).any (fun t => t.2 = n)) with
    | none => none
    | some x =>
      let c := dirChain (x.2.1.getD 0 0)
      let w := routeMove (at4 (if ch = 0 then 4 else 8)) (dirHub (x.2.1.getD 0 0)) v
      let w3 := at4 16
      some (c, n, w, at4 12, w3 - bitOf w3 23 * 2 ^ 23 + c * 2 ^ 23))

/-- The entries at the head that an image's tunnels make. -/
def State.imgEntries (s : State) (ts : List (Nat × Nat × Nat × Nat × Nat)) : List (Nat × TunEnt) :=
  ts.foldl (fun es t =>
    let old := ((es.filter (fun x => x.1 = t.2.1)).getLast?.map (·.2)).getD (s.cfgEnt t.2.1)
    es ++ [(t.2.1, old.withHalf t.1 t.2.2.1 t.2.2.2.1 t.2.2.2.2)]) []

/-- The first check of R229 that an image fails, 0 for none. -/
def State.imgCheck (s : State) (v : Nat) (l : List Byte) : Nat :=
  if !imgGood l then vhImgCheck
  else if numAt l 0x18 2 != s.profileId then vhImgProfile
  else match s.imgMoved l with
    | none => vhHubMissing
    | some dirs =>
      let ts := imgTuns l dirs v
      let adm := State.admitAll (s.imgEntries ts) s
      if ts.any (fun t => Tun.v ((s.cfgEnt t.2.1).half t.1)) then vhNoTunnel
      else if adm != 0 then 0x20 + adm
      else if dirs.any (fun x => let w := x.2.1.getD 0 0; dirKind w ≤ 4 && (s.ownerOf (dirChain w) (dirHub w) (dirKind w) (dirUnit w)).isSome) then vhOwned
      else if 4096 < s.quotaSum v + numAt (imgBody l 1) 1096 4 then vhQuota
      else 0

/-- The words of the VHC page that an image brings: those that software or the head keeps there, but state and generation. -/
def State.imgPage (s : State) (v : Nat) (b : List Byte) : State :=
  s.each (VHC.rows.map (·.fld)) (fun s f =>
    if 0x48 ≤ f.off ∧ f.off < 0x7C ∧ f.off != 0x74 ∧ f.acc != .wo then s.wr (Pg.vhc v) f (numAt b (f.off - 0x40) 4 / 2 ^ f.lsb) else s)

/-- The MSI-X state and the held entries that an image brings. -/
def State.imgCtx (s : State) (v : Nat) (l : List Byte) (ctxLoad : Bool) : State :=
  let b := imgBody l 1
  let h := imgBody l 5
  let word := fun k i => numAt b (64 + 16 * k + 4 * i) 4
  let msix := (List.range 64).flatMap (fun k => ((List.range 3).filter (fun i => word k i != 0)).map (fun i => (4 * k + i, word k i)))
  s.setVhcCtx v { s.vhcCtx v with
    msix := msix, unmasked := (List.range 64).filter (fun k => word k 3 % 2 = 0),
    pba := (List.range 64).filter (fun k => (numAt b 1088 8).testBit k || (numAt h (h.length - 8) 8).testBit k),
    held := (List.range ((h.length - 8) / 32)).map (fun i => (List.range 8).map (fun j => numAt h (32 * i + 4 * j) 4)),
    ctxs := imgBody l 4, ctxLoad := ctxLoad, taken := false, genNext := numAt l 0x1B 1, job := 9 }

/-- RESTORE checks the image and loads it: directory, page, MSI-X; then the tunnels are written (R229 steps 1 and 2). -/
def State.restore (s : State) (v : Nat) (image : Option (List Byte)) : State := match image with
  | none => s.imgFail vhDmaErr
  | some l =>
    let code := s.imgCheck v l
    let dirs := (s.imgMoved l).getD []
    let es := s.imgEntries (imgTuns l dirs v)
    if code != 0 then s.imgFail code
    else
      let s := (s.setVst v vRestoring).setQuota v (numAt (imgBody l 1) 1096 4)
      let s := ((s.imgPage v (imgBody l 1)).imgCtx v l (s.on Pg.vhg VHG.VHG_CMD_ctx_load))
      let s := s.each dirs (fun s x => s.putDir v x.1 (x.2.1.take 3 ++ [bitsOf (x.2.1.getD 3 0) 31 28 * 2 ^ 28]))
      let s := s.each dirs (fun s x => if dirKind (x.2.1.getD 0 0) = 4 then s.bindFn v x.1 else s)
      s.commitEntries es { steps := [], vhc := v, fn := 0 }

/-- The first value after `g` that no hub reports (R223). -/
def nextGen (g : Nat) (seen : List Nat) : Nat := (((List.range 255).map (fun i => (g + 1 + i) % 256)).find? (fun x => !seen.contains x)).getD ((g + 1) % 256)

/-- The generation is taken and the hubs are told (R229 steps 3 and 4). -/
def State.restoreGen (s : State) (v : Nat) (seen : List Nat) : State :=
  let x := s.vhcCtx v
  let g := nextGen x.genNext seen
  let s := (s.setVgen v g).setVhcCtx v { x with taken := true }
  let r := s.genSend 0x30 v g 1 (s.hubsOf v) 1
  r.2.2.setVhcCtx v { r.2.2.vhcCtx v with job := if r.1 then 12 else 11 }

/-- The tunnels stand: the hubs are asked for the generations that they hold (R223). -/
def State.restoreAsk (s : State) (v : Nat) : State :=
  let r := s.genSend 0x32 v 0 0 (s.hubsOf v) 1
  if r.1 then r.2.2.restoreGen v r.2.1 else r.2.2.setVhcCtx v { r.2.2.vhcCtx v with job := 10 }

/-- The functions have their contexts or their parked state: the VHC is ACTIVE and what was held is delivered (R229 step 5). -/
def State.restoreDone (s : State) (v : Nat) : State :=
  let x := s.vhcCtx v
  if s.mode != .head || x.job != 12 then s
  else
    let s := if x.ctxLoad then s.emit (.note "function contexts" (v :: x.ctxs.map BitVec.toNat)) else s
    let s := (s.setVhcCtx v { x with job := 0, ctxs := [], ctxLoad := false, taken := false, snapped := false }).setVst v Machine.vActive
    ((s.deliverHeld v).raise Pg.vhg VHG.ev_restore_done).vhgEnd vhOk

/-! ### What waits for tunnels (R153, R154, R218, R225, R229) -/

/-- A tunnel job of the VHC logic has ended. -/
def State.jobEnded (s : State) (j : TunJob) : State :=
  let v := j.vhc
  let x := s.vhcCtx v
  match x.job with
  | 3 =>
    if j.result = 0 then s.addWire v
    else (s.setVhcCtx v { x with job := 13, undo := 0x20 + j.result }).deleteTuns v j.fn (wordTuns x.entry)
  | 5 => s.removeWait v
  | 7 => ((s.vhcFree v).setJob v 0 0).vhgEnd vhOk
  | 9 =>
    if j.result = 0 then s.restoreAsk v
    else (s.setVhcCtx v { x with job := 14, undo := 0x20 + j.result }).deleteTuns v 0 (s.vhcTuns v)
  | 13 => (s.setVhcCtx v { x with job := 0, entry := [], undo := 0 }).vhgEnd x.undo
  | 14 => (s.vhcFree v).imgFail x.undo
  | _ => s

/-- Jobs that have ended are taken up. -/
def State.takeEnded1 (s : State) : State :=
  let l := s.sched.ended
  if l.isEmpty then s else ({ s with sched := { s.sched with ended := [] } } : State).each l State.jobEnded

def State.takeEnded (s : State) : State := s.takeEnded1.takeEnded1.takeEnded1

/-! ### The commands (R217) -/

def execVhcAddFunc (w : Nat) (s : State) : Host.Outcome State Fault Refusal :=
  s.run (fun s => (s.vhgCmd 2 w (fun st => st = Machine.vActive || st = vDisabled) (fun s v => s.addFunc v (bitsOf w 11 8))).takeEnded)

def execVhcRemoveFunc (w : Nat) (s : State) : Host.Outcome State Fault Refusal :=
  s.run (fun s => (s.vhgCmd 3 w (fun st => st = Machine.vActive || st = vDisabled) (fun s v => s.removeFunc v (bitsOf w 11 8))).takeEnded)

def execVhcDisable (w : Nat) (s : State) : Host.Outcome State Fault Refusal :=
  s.run (fun s => s.vhgCmd 4 w (fun st => st = Machine.vActive || st = vFrozen) (fun s v => s.drainStart v 1 true))

def State.enable (s : State) (v : Nat) : State :=
  let r := s.enableSend v 1
  if r.1 then (r.2.enableDone v).vhgEnd vhOk else r.2.setJob v 1 0

def execVhcEnable (w : Nat) (s : State) : Host.Outcome State Fault Refusal :=
  s.run (fun s => s.vhgCmd 5 w (fun st => st = vDisabled) (fun s v => s.enable v))

def execVhcFreeze (w : Nat) (s : State) : Host.Outcome State Fault Refusal :=
  s.run (fun s => s.vhgCmd 6 w (fun st => st = Machine.vActive) (fun s v => s.freeze v))

def execVhcThaw (w : Nat) (s : State) : Host.Outcome State Fault Refusal :=
  s.run (fun s => s.vhgCmd 7 w (fun st => st = vFrozen) (fun s v => s.thaw v))

def execVhcSave (w : Nat) (s : State) : Host.Outcome State Fault Refusal :=
  s.run (fun s => s.vhgCmd 8 w (fun st => st = vFrozen) (fun s v => s.save v))

def execVhcRestore (w : Nat) (image : Option (List Byte)) (s : State) : Host.Outcome State Fault Refusal :=
  s.run (fun s => (s.vhgCmd 9 w (fun st => st = vFree) (fun s v => s.restore v image)).takeEnded)

def execVhcDestroy (w : Nat) (s : State) : Host.Outcome State Fault Refusal :=
  s.run (fun s => (s.vhgCmd 10 w (fun st => st = vDisabled) (fun s v => s.destroy v)).takeEnded)

/-- An undefined op (R232): a defined one is another command. -/
def State.vhgBad (s : State) (w : Nat) : State :=
  let op := bitsOf w 27 24
  if 1 ≤ op && op ≤ 10 then s else s.vhgCmd op w (fun _ => true) (fun s _ => s.vhgEnd vhBadOp)

def execVhgBadOp (w : Nat) (s : State) : Host.Outcome State Fault Refusal := s.run (fun s => s.vhgBad w)

/-! ### Drains end (R224, R225, R227) -/

/-- Nothing is outstanding any more. -/
def State.drained (s : State) (v : Nat) : State :=
  let x := s.vhcCtx v
  if s.mode != .head then s
  else if s.hostNp v + s.devNp v = 0 && (x.drain = 1 || x.drain = 4 || x.drain = 5) then s.disabled v
  else if s.hostNp v + s.devNp v = 0 && x.drain = 2 then s.frozenNow v vhOk false
  else if x.job = 6 && s.fnNp v x.jobFn = 0 then s.removeDone v
  else s

def execDrainComplete (v : Vhc) (s : State) : Host.Outcome State Fault Refusal := s.run (fun s => s.drained v.val)

/-- T_drain has passed. -/
def State.drainTimeout (s : State) (v : Nat) : State :=
  let x := s.vhcCtx v
  if s.mode != .head then s
  else if x.drain = 1 || x.drain = 4 || x.drain = 5 then s.disabled v
  else if x.drain = 2 then s.frozenNow v vhDrainTmo false
  else if x.job = 6 then s.removeDone v
  else s

def execDrainTimeout (v : Vhc) (s : State) : Host.Outcome State Fault Refusal := s.run (fun s => s.drainTimeout v.val)

/-- A VHC that DISABLE would take is disabled without a command. -/
def State.hostDisable (s : State) (v kind : Nat) : State :=
  let st := s.vState v
  if s.mode = .head && (st = Machine.vActive || st = vFrozen) then s.drainStart v kind false else s

def execVfFlr (v : Vhc) (s : State) : Host.Outcome State Fault Refusal := s.run (fun s => s.hostDisable v.val 4)

/-- The PF clears VF Enable (R224). -/
def State.vfOff (s : State) : State :=
  ({ s with vhg := { s.vhg with numVfs := 0 } } : State).each (List.range 64) (fun s v => s.hostDisable v 5)

def execVfEnableClear (s : State) : Host.Outcome State Fault Refusal := s.run State.vfOff

/-- B0_PERST_N (R489): while low the endpoint is in reset; VF Enable is clear after it, the MSI-X tables are at reset (PRESUMED, log entry 48). -/
def State.hostPerst (s : State) (low : Bool) : State :=
  if s.mode != .head then s
  else
    let was := s.vhg.perst
    let s : State := { s with vhg := { s.vhg with perst := low } }
    if !low || was then s
    else
      let s : State := { s with vhg := { s.vhg with pfUnmasked := [], pfPba := [], pfMsix := [], vhcs := s.vhg.vhcs.map (fun x => (x.1, { x.2 with pba := [], unmasked := [], msix := [] })) } }
      s.vfOff

def execHostPerst (low : Bool) (s : State) : Host.Outcome State Fault Refusal := s.run (fun s => s.hostPerst low)

/-! ### Answers to generation messages (R222) -/

/-- A message has all its answers or goes on without the silent hubs. -/
def State.msgDone (s : State) (m : GenMsg) : State :=
  let v := m.vhc
  let x := s.vhcCtx v
  if m.job = 1 then
    (match x.job with
      | 1 => ((s.setJob v 0 0).enableDone v).vhgEnd vhOk
      | 2 => s.thawDone v
      | 4 => s.addDone v
      | 10 => s.restoreGen v m.seen
      | 11 => s.setVhcCtx v { x with job := 12 }
      | _ => s)
  else if m.job = 2 && x.drain = 3 && m.code = 0x33 then s.frozenNow v vhOk true
  else if m.job = 2 && x.drain = 6 && m.flags = 5 then (s.setVhcCtx v { x with drain := 0 }).enableDone v
  else s

/-- An answer of a hub: the generation that it held. -/
def State.genAnswer (s : State) (p : Port) (c : Cell) : State :=
  let k := hubKey (chainOf p) c.shub
  match s.vhg.msgs.find? (fun m => m.seq = numAt c.payload 2 2 && m.wait.contains k && m.code + 0x80 = byteAt c.payload 0) with
  | none => s
  | some m =>
    let n := { m with wait := m.wait.filter (· != k), seen := m.seen ++ [byteAt c.payload 5] }
    let rest := s.vhg.msgs.filter (fun x => x.seq != m.seq)
    if s.mode != .head then s
    else if n.wait.isEmpty then (s.setMsgs rest).msgDone n else s.setMsgs (rest ++ [n])

def execGenAnswerRx (p : Port) (c : Cell) (s : State) : Host.Outcome State Fault Refusal := s.run (fun s => s.msgIn p c (fun s => s.genAnswer p c))

/-- A message is 1 ms old without an answer of some hub: it goes out again up to three times, then the hubs are silent. -/
def State.genResend (s : State) (seq : Nat) : State := match s.vhg.msgs.find? (fun m => m.seq = seq) with
  | none => s
  | some m =>
    let rest := s.vhg.msgs.filter (fun x => x.seq != m.seq)
    if m.resends < 3 then (s.setMsgs (rest ++ [{ m with resends := m.resends + 1 }])).each m.wait (fun s k => s.genCell m k)
    else
      let s := (s.setMsgs rest).each m.wait (fun s k => ((s.silentHub m.vhc k).bump Pg.vhg VHG.GEN_CNT_gen_nak 1).raise Pg.vhg VHG.ev_gen_nak)
      s.msgDone m

def execGenMessageResend (seq : Nat) (s : State) : Host.Outcome State Fault Refusal := s.run (fun s => s.genResend seq)

def execSaveComplete (v : Vhc) (ok : Bool) (ctxs : List Byte) (s : State) : Host.Outcome State Fault Refusal := s.run (fun s => s.saveDone v.val ok ctxs)

def execRestoreComplete (v : Vhc) (s : State) : Host.Outcome State Fault Refusal := s.run (fun s => s.restoreDone v.val)

/-- EQ_CFG is written: the error queue is configured and EQ_TAIL is 0 (R221, R233). -/
def State.eqCfg (s : State) (v w : Nat) : State :=
  let p := Pg.vhc v
  if s.mode != .head then s
  else (((s.wr p VHC.EQ_CFG_en (bitOf w 31)).wr p VHC.EQ_CFG_size (bitsOf w 19 16)).wr p VHC.EQ_CFG_vector (bitsOf w 5 0)).wr p VHC.EQ_TAIL_tail 0

def execEqCfgWrite (v : Vhc) (w : Nat) (s : State) : Host.Outcome State Fault Refusal := s.run (fun s => s.eqCfg v.val w)

end Sys2Proof.Machine
end

