-- ==== Sys2Proof/Machine/Tunnels.lean ====
section
/-!
DEFINITION. Sys2Proof/Machine/Tunnels.lean: the commands of TUN0 and the tunnel-entry messages (R150–R154, R175); jobs of the VHC logic that end with them go on.
-/
namespace Sys2Proof.Machine

open Sys2Proof

def execTunRead (s : State) : Host.Outcome State Fault Refusal := s.run State.tunRead

def execTunWrite (s : State) : Host.Outcome State Fault Refusal := s.run (fun s => s.tunWrite.takeEnded)

def execTunDelete (s : State) : Host.Outcome State Fault Refusal := s.run (fun s => s.tunDelete.takeEnded)

def execTunWriteParams (s : State) : Host.Outcome State Fault Refusal := s.run (fun s => s.tunParams.takeEnded)

def execTunnelEntryMsgRx (p : Port) (c : Cell) (s : State) : Host.Outcome State Fault Refusal := s.run (fun s => s.msgIn p c (fun s => if s.notHomes p c then s.foreign else s.tunMsg c))

def execTunnelEntryAnswerRx (p : Port) (c : Cell) (s : State) : Host.Outcome State Fault Refusal :=
  s.run (fun s => s.msgIn p c (fun s => (s.tunAnswer p c).takeEnded))

def execTunnelEntryResend (s : State) : Host.Outcome State Fault Refusal := s.run (fun s => s.tunResend.takeEnded)

def execTunnelDeleteWaitEnd (s : State) : Host.Outcome State Fault Refusal := s.run (fun s => s.tunWaited.takeEnded)

end Sys2Proof.Machine
end

