-- ==== Sys2Proof/Machine/Access.lean ====
section
/-!
DEFINITION. Sys2Proof/Machine/Access.lean: reads and writes of the register space by their paths (R7–R11, R210, R211, R455, R456), what a word of its own does when it is
written, counter snapshots (R459), block reset (R460).
-/
namespace Sys2Proof.Machine

open Sys2Proof

/-! ### Fields that a read treats of its own -/

/-- Fields that a mode other than head does not have: they read 0 and ignore writes (R121, R122, R206, R471). -/
def headField (p : Nat) (f : Fld) : Bool := match pageKind p with
  | some .chn => 0x50 ≤ f.off && f.off ≤ 0xA8
  | some .ctim => 0x5C ≤ f.off && f.off ≤ 0x68
  | some .xbr => (f.off = 0x48 && f.lsb = 16) || (f.off = 0x60 && f.lsb = 16) || f.off = 0x64 || f.off = 0x68
  | some .evt => 0x200 ≤ f.off && f.off < 0x220
  | _ => false

/-- The hub-wide registers and event bits of the link layer stand in LNKU only (R92). -/
def wideField (p : Nat) (f : Fld) : Bool := p = Pg.lnk .td && ((0x100 ≤ f.off && f.off < 0x110) || ((f.off = 0x10 || f.off = 0x14) && (f.lsb = 10 || f.lsb = 11)))

/-- A field that the page does not have in this part: it reads 0 and ignores writes. -/
def State.lacksField (s : State) (p : Nat) (f : Fld) : Bool := (s.mode != .head && headField p f) || wideField p f

/-- Measurements and counts of the lines, which no command carries: the spec gives no value, each read takes a free one. -/
def drawnField (p : Nat) (f : Fld) : Bool := match pageKind p with
  | some .svc => f = SVC.SVC_CNT1_crc_err
  | some .tc => f = TC.TC_CNT1_rx_crc
  | some .hvd => f = HVD.LINK_CNT_crc
  | some .pwp => f = PWP.FEED_MEAS_va || f = PWP.FEED_MEAS_vb || f = PWP.EF_MEAS_i_out || f = PWP.EF_MEAS_v_out
  | some .vbs => f = VBS.VBS_MEAS_ibus
  | some .enc => f.off / 16 = 5 && f.lsb = 0
  | _ => false

/-- What the main die itself knows of the supervised link: read live while the companion die's other registers are mirrored (DEDUCED, log entry 51). -/
def linkField (p : Nat) (f : Fld) : Bool := p = Pg.hvd && (f = HVD.HVD_STAT_link || f = HVD.HVD_STAT_held || f.off = 0x48)

/-- The value of a field as a read shows it. -/
def State.shown (s : State) (p : Nat) (f : Fld) : Nat :=
  if !s.present p || s.lacksField p f then 0
  else if !s.alive p then (if f.off < 0x08 then s.fieldVal p f else f.rst)
  else if isCompanion p && !linkField p f then s.companionView.fieldVal p f
  else s.fieldVal p f

/-- The word at an offset, without what its read does; EV_PEND is computed (R458). -/
def State.shownWord (s : State) (p off : Nat) : Nat := match pageKind p with
  | none => 0
  | some k =>
    if off = 0x18 then (if s.alive p then (if isCompanion p then s.companionView else s).evPend p else 0)
    else sumNat ((k.wordFields off).map (fun f => s.shown p f * 2 ^ f.lsb))

/-! ### Reading (R9, R11, R459) -/

/-- An RC field is cleared by its read; while the page is frozen its visible value is taken off the count beneath, unless that has saturated (R459). -/
def State.clearRc (s : State) (p : Nat) (f : Fld) : State :=
  let h := s.home p f
  let k := fkey h.1 h.2
  if s.frozen p then
    let seen := (Tab.find k s.snap).getD 0
    let s : State := { s with snap := Tab.del k s.snap }
    if s.rd h.1 h.2 = 2 ^ f.width - 1 then s else s.wr h.1 h.2 (s.rd h.1 h.2 - seen)
  else s.wr h.1 h.2 0

/-- A field is read: what it gives and what the read leaves. -/
def State.readField (s : State) (p : Nat) (f : Fld) : Nat × State :=
  if drawnField p f && s.alive p then s.draw f.width
  else
    let v := s.shown p f
    (v, if f.acc = .rc && s.alive p && !s.lacksField p f && (!isCompanion p || s.hvLink || linkField p f) then s.clearRc p f else s)

/-- The fields of a word are read one after another. -/
def State.readFields (p : Nat) : List Fld → Nat → State → Nat × State
  | [], v, s => (v, s)
  | f :: t, v, s => let r := s.readField p f; State.readFields p t (v + r.1 * 2 ^ f.lsb) r.2

/-- A word is read. TIME_LO latches TIME_HI (R122), FRAME_T_LO latches FRAME_T_HI (R285), PFQ_DATA2 removes its entry (R468). -/
def State.readWord (s : State) (p off : Nat) : Nat × State := match pageKind p with
  | none => (0, s)
  | some k =>
    if !s.present p then (0, s)
    else if off = 0x18 then (s.shownWord p off, s)
    else
      let r := State.readFields p (k.wordFields off) 0 s
      if k = .ctim && off = 0x44 then (r.1, r.2.wr p CTIM.TIME_HI_time_hi (s.chain.time / 2 ^ 32))
      else if k = .disp && off = 0x78 && s.alive p then (r.1, r.2.wr p DISP.FRAME_T_HI_t_hi ((s.dh (pageBay p)).frameT / 2 ^ 32))
      else if k = .evt && off = 0x21C && s.mode = .head then (r.1, { r.2 with vhg := { r.2.vhg with pfq := r.2.vhg.pfq.drop 1 } })
      else r

/-! ### Block reset (R460) -/

/-- Fields of a page at their reset values, but for those that `keep` names. -/
def State.blockRegs (s : State) (p : Nat) (keep : Nat → Bool := fun _ => false) : State :=
  let gone := fun (k : Nat) => k / 131072 = p && 0x40 ≤ k / 32 % 4096 && !keep (k / 32 % 4096)
  let base := s.regs.filter (fun e => !gone e.1)
  { s with regs := Store.hold ((resetEntries s.mode).filter (fun e => e.1 = p && !keep e.2.1.off)) base, snap := s.snap.filter (fun e => !gone e.1) }

/-- The header fields that a block reset clears: lock, EV_RAW, ER_CAP0–3 with fault, ER_CNT. -/
def State.headReset (s : State) (p : Nat) : State :=
  let gone := fun (k : Nat) => k / 131072 = p && (k / 32 % 4096 = 0x10 || (0x20 ≤ k / 32 % 4096 && k / 32 % 4096 < 0x34) || k = fkey p HDR.PG_CTL_lock || k = fkey p HDR.PG_STAT_fault)
  { s with regs := s.regs.filter (fun e => !gone e.1), snap := s.snap.filter (fun e => !gone e.1) }

/-- The link of a port goes down with FORCED and without notice; a port on its way starts over at step 1 of R39. -/
def State.trunkReset (s : State) (p : Port) : State :=
  if s.isUp p then s.linkDown p dnForced
  else if s.pst p = stDown then s
  else if s.hasTrunks && s.on (Pg.trk p) TRK.PORT_CFG_port_en then s.enterDetect p
  else (s.clearBringUp p).setPst p stDisabled

/-- The generator of a display head stops at once; the Loft keeps its contents. -/
def State.generatorStop (s : State) (n : Nat) : State :=
  let p := Pg.disp n
  let s := (s.wr p DISP.DISP_CTL_run 0).wr p DISP.DISP_STAT_running 0
  (State.commitAll n (2 * commitFuel) (s.setDh n { s.dh n with stopDue := false, read := [], decRow := 0 })).stageOn n

/-- The display head's part beside its DISP registers. -/
def State.dispClear (s : State) (n : Nat) : State :=
  s.setDh n { s.dh n with lockN := 0, acquire := false, trimDue := none, cands := [], training := false, irqHeld := none, sink := none, frameT := 0 }

/-- The freeze detector's part beside its registers. -/
def State.frzClear (s : State) (n : Nat) : State :=
  s.setDh n { s.dh n with base := [], capture := [], wdActs := false, wdUs := 0, phase := 0 }

/-- Both banks are empty; what was FILLING or CLOSED is dropped as parked. -/
def State.stageReset (s : State) (n : Nat) : State :=
  let s := s.parkBanks n
  s.setDh n { s.dh n with bank0 := {}, bank1 := {}, fill := 0, dropping := false, wait := [] }

/-- The Type-C port performs err_recovery; its status follows. -/
def State.tcBlockReset (s : State) (n : Nat) : State :=
  let p := Pg.tc n
  let s := if s.tcLive n then s.errRecovery n else s
  s.each [TC.TC_STAT_orient, TC.TC_STAT_partner, TC.TC_STAT_prole, TC.TC_STAT_pd_rev, TC.TC_STAT_epr, TC.TC_STAT_pps, TC.TC_STAT_moist] (fun s f => s.wr p f 0)

/-- The PX cycle in progress ends; the transfer of a request in service is made again (DESIGN CHOICE, log entry 52). -/
def State.pxReset (s : State) : State :=
  if s.pxOwner = 0 then s
  else ({ s with xbr := { s.xbr with pxExt := none, pxLate := [] } }.pxIdle).emit (.px "end" [])

/-- A block reset of a page other than a BAY page. -/
def State.pageReset (s : State) (p : Nat) : State :=
  if !s.alive p then s
  else
    let n := pageBay p
    match pageKind p with
    | some .trk => let q := if p = Pg.trk .tu then Port.tu else Port.td; ((s.headReset p).blockRegs p (fun off => off = 0x48)).trunkReset q
    | some .lnk => let q := if p = Pg.lnk .tu then Port.tu else Port.td; ((s.headReset p).blockRegs p).trunkReset q
    | some .disp => (((s.headReset p).blockRegs p).generatorStop n).dispClear n
    | some .frz => (((s.headReset p).blockRegs p).generatorStop n).frzClear n
    | some .stg => ((s.headReset p).blockRegs p).stageReset n
    | some .usb => ((s.headReset p).blockRegs p).hcReset n
    | some .eth =>
      let up := s.on p ETH.MAC_STAT_link
      let s := (s.headReset p).blockRegs p
      let s : State := { s with eth := Tab.del n s.eth }
      if up then s.raise p ETH.ev_link_down else s
    | some .pcie => (((s.headReset p).blockRegs p).perstHold n).pcieStart n
    | some .tc => ((s.headReset p).blockRegs p (fun off => off = 0x48 || off = 0x4C || off = 0x50 || off = 0x58)).tcBlockReset n
    | some .pxb => ((s.headReset p).blockRegs p (fun off => off = 0x44)).pxReset
    | some .erl => let s := (s.headReset p).blockRegs p; { s with xbr := { s.xbr with erl := [] } }
    | some .evt => let s := (s.headReset p).blockRegs p; { s with evt := { s.evt with hold := [], due := [] }, vhg := { s.vhg with pfq := [] } }
    | some .tmr => let s := (s.headReset p).blockRegs p; { s with tmr := [] }
    | some .svc => ((s.svcDown.headReset p).blockRegs p).svcAttach
    | _ => s

/-- A write of PG_CTL.srst = 1. -/
def State.blockReset (s : State) (p : Nat) : State :=
  if pageKind p = some .bay then
    (if !s.alive p then s else (s.headReset p).each ((List.range 8).map (fun k => p + 1 + k)) State.pageReset)
  else s.pageReset p

/-! ### Header writes (R9, R458, R459) -/

/-- A write reaches a page: not an absent or a disabled one; the companion die's pages only over the supervised link, which counts what it drops (R361). -/
def State.onPage (s : State) (p : Nat) (f : State → State) : State :=
  if !s.alive p then s
  else if isCompanion p && !s.hvLink then s.bump Pg.hvd HVD.LINK_CNT_wr_drop 1
  else f s

/-- The pages under which counters that a page shows are held. -/
def countPages (p : Nat) : List Nat := match pageKind p with
  | some .swc => p :: (List.range 8).map Pg.cnt
  | some .sch => p :: (List.range 16).map (fun k => Pg.wait (k / 2) (k % 2))
  | _ => [p]

/-- A held number is a counter of a page. -/
def isCount (p key : Nat) : Bool :=
  if key / 131072 = p then
    match pageKind p with
    | some k => (k.wordFields (key / 32 % 4096)).any (fun f => f.lsb = key % 32 && f.counts)
    | none => false
  else (countPages p).contains (key / 131072)

/-- A write of PG_CTL.frz (R459). -/
def State.freeze1 (s : State) (p : Nat) (v : Bool) : State :=
  if v = s.frozen p then s
  else
    let away := s.snap.filter (fun e => !(countPages p).contains (e.1 / 131072))
    let snap := if v then (s.regs.filter (fun e => isCount p e.1)).foldl (fun t e => Tab.put e.1 e.2 t) away else away
    ({ s with snap := snap } : State).wr p HDR.PG_CTL_frz (b2n v)

/-- A write of EV_SET (R458). -/
def State.evSet (s : State) (p w : Nat) : State := match pageKind p with
  | some k => s.each (k.evBits.filter (fun n => bitOf w n = 1 && !wideField p (HDR.raw n))) (fun s n => s.setRaw p n)
  | none => s

/-- A write of PG_CTL. -/
def State.pgCtl (s : State) (p w : Nat) : State :=
  let s := s.freeze1 p (bitOf w 3 = 1)
  let s := if bitOf w 2 = 1 then s.wr p HDR.PG_CTL_lock 1 else s
  let s := if bitOf w 1 = 1 then s.blockReset p else s
  if pageKind p != some .bay then s
  else if bitOf w 0 = 1 then s.bayEnable (pageBay p) else s.bayDisable (pageBay p)

def execBlockReset (p : Nat) (s : State) : Host.Outcome State Fault Refusal := s.run (fun s => s.onPage p (fun s => s.blockReset p))

def execCounterSnapshot (p : Nat) (frz : Bool) (s : State) : Host.Outcome State Fault Refusal := s.run (fun s => s.onPage p (fun s => s.freeze1 p frz))

def execPageLock (p : Nat) (s : State) : Host.Outcome State Fault Refusal := s.run (fun s => s.onPage p (fun s => s.wr p HDR.PG_CTL_lock 1))

def execEventSet (p w : Nat) (s : State) : Host.Outcome State Fault Refusal := s.run (fun s => s.onPage p (fun s => s.evSet p w))

/-! ### Words with behaviour of their own -/

def portAt (p : Nat) : Port := if p % 2 = 0 then .tu else .td

/-- A trunk port's words. -/
def State.trkWord (s : State) (q : Port) (off w : Nat) : State := match off with
  | 0x40 => if bitOf w 0 = s.rd (Pg.trk q) TRK.PORT_CFG_port_en then s else if bitOf w 0 = 1 then s.portEnable q else s.portDisable q
  | 0x44 =>
    let s := if bitOf w 2 = s.rd (Pg.trk q) TRK.PORT_CTL_hold_down then s else s.portHoldDown q (bitOf w 2 = 1)
    let s := if bitOf w 1 = 1 then s.portRenego q else s
    if bitOf w 0 = 1 then s.startRecover q false else s
  | 0x88 => s.eqEnvelope q off w
  | 0x8C => s.eqEnvelope q off w
  | 0x90 => s.eqEnvelope q off w
  | 0xD0 => if bitOf w 0 = 1 then s.beacon q else s
  | _ => if 0x94 ≤ off ∧ off < 0xB8 then s.eqSetpoint q off w else s

/-- A freeze detector's words. -/
def State.frzWord (s : State) (n off w : Nat) : State :=
  if off = 0x5C then s.freezeClear n w
  else if 0x80 ≤ off ∧ off < 0x180 then
    let i := (off - 0x80) / 32
    let k := (off - 0x80) % 32 / 4
    if 3 ≤ k then s
    else
      let s := s.windowCfg n i k w
      if k = 0 && bitOf w 25 = 1 && !(s.dh n).capture.contains i then s.setDh n { s.dh n with capture := (s.dh n).capture ++ [i] } else s
  else s

/-- A bay's PCIe port: PCIE_CTL. -/
def State.pcieWord (s : State) (n off w : Nat) : State :=
  if off != 0x44 then s
  else
    let s := if bitOf w 0 = s.rd (Pg.pcie n) PCIE.PCIE_CTL_perst then s else s.perstWrite n (bitOf w 0 = 1)
    let s := if bitOf w 1 = 1 && s.pcieThere n && (s.pcx n).clock && !(s.pcx n).perst then s.pcieTrain n else s
    if bitOf w 2 = 1 && s.pcieThere n && s.on (Pg.pcie n) PCIE.PCIE_STAT_link_up then s.emit (.bay n "pcie hot reset" []) else s

/-- A Type-C port: TC_CTL. -/
def State.tcWord (s : State) (n off w : Nat) : State :=
  if off != 0x68 || !s.tcLive n then s
  else
    let s := if bitOf w 0 = 1 then s.renegotiate n else s
    let s := if bitOf w 1 = 1 then s.hardReset n 4 true else s
    let s := if bitOf w 2 = 1 && s.tcSt n = tcReady then s.ownSeq n 3 else s
    let s := if bitOf w 3 = 1 then s.ownPrSwap n false else s
    let s := if bitOf w 4 = 1 && s.on (Pg.tc n) TC.TC_ALT_entered then (s.pdSend n "Exit Mode" [0xFF01]).altOff n else s
    if bitOf w 5 = 1 then s.errRecovery n else s

/-- An engine's mailbox and control words; a request carries its message and has commands of its own. -/
def State.engWord (s : State) (p src off w : Nat) : State :=
  let e := 4 * (p - 8) + (off - 0x100) / 64
  if off < 0x100 ∨ 0x200 ≤ off then s
  else match off % 64 with
    | 0x04 => if bitOf w 0 = 0 || e = 15 || !(s.engState e = engRunning || s.engState e = 3) then s else s.engStop e
    | 0x10 => if s.rd p (ENG.MB_OWN_owner (e % 4)) = 0 && w % 4 = src then s.wr p (ENG.MB_OWN_owner (e % 4)) src else s
    | 0x14 => if bitOf w 30 = 0 || s.mbSt e = 1 then s else s.mbFree e
    | _ => s

/-- What the write of a word does beside its plain fields, where the word alone says it. A write that asks for more than its word (a policy hook, a sink's answers, an
acknowledge of AVSBus, an image in host memory, a message) is a command of its own. -/
def State.ownWrite (s : State) (src p off w : Nat) : State :=
  let n := pageBay p
  if off = 0x08 then s.pgCtl p w
  else if off = 0x1C then s.evSet p w
  else if off < 0x40 then s
  else match pageKind p with
    | some .trk => s.trkWord (portAt p) off w
    | some .lnk => if off = 0x50 then s.crdCfg (portAt p) w else s
    | some .chn =>
      if s.mode != .head then s
      else if off = 0x58 then (if bitOf w 31 = 1 then s.handoverReq (s.rd p CHN.HANDOVER_sel) else s)
      else if off = 0x60 then (if bitOf w 31 = 1 then s.cmdSend w (s.rd p CHN.CMD_CTL_cmd) else s)
      else s
    | some .ctim => if off = 0x68 && bitOf w 0 = 1 && s.mode = .head then { s with chain := { s.chain with setDue := true } } else s
    | some .grn =>
      if off = 0x5C then (if bitOf w 31 = 1 then s.glean else s)
      else if 0x100 ≤ off ∧ off < 0x1A0 then
        let a := (off - 0x100) / 16
        if off % 16 = 0 then s.acctLimits a w else if off % 16 = 4 && s.acctRw a then s.setReserve a (bitsOf w 31 16) else s
      else s
    | some .tun0 =>
      if off != 0x44 then s
      else match w % 16 with
        | 1 => s.tunRead
        | 2 => s.tunWrite.takeEnded
        | 3 => s.tunDelete.takeEnded
        | 4 => s.tunParams.takeEnded
        | _ => s.tunBad
    | some .alt => if off = 0x40 then s.altCfg w else if off = 0x68 then s.hopFactor w else s
    | some .xbr => if off = 0x68 then s.quotaWrite w else s
    | some .erl => if off = 0x6C && bitOf w 0 = 1 then { s with xbr := { s.xbr with erl := [] } } else s
    | some .vhc => if off = 0x58 then s.eqCfg (p - 0x080) w else s
    | some .loft =>
      if off != 0x40 || bitOf w 31 = 0 then s
      else match bitsOf w 27 24 with
        | 1 => s.loftAlloc w
        | 2 => s.loftFree w
        | _ => s.loftBad w
    | some .disp =>
      if off = 0x40 then (if bitOf w 31 = s.rd p DISP.DISP_CTL_run then s else if bitOf w 31 = 1 then s.dispRun n else s.dispStop n)
      else if off = 0x70 then s.trimWrite n (w % 65536) else s
    | some .frz => s.frzWord n off w
    | some .eth => if off = 0x54 then s.mdioCmd n w else s
    | some .pcie => s.pcieWord n off w
    | some .tc => s.tcWord n off w
    | some .pwp =>
      if off != 0x60 then s
      else
        let s := if bitOf w 1 = s.rd p PWP.EF_CTL_off then s else s.efOffWrite (bitOf w 1 = 1)
        if bitOf w 2 = 1 && s.ef = efLatched then s.efStart else s
    | some .vbs => if off = 0x5C then s.vbTrimWrite n (bitsOf w 31 16) else s
    | some .eng => s.engWord p src off w
    | some .lrd => if off = 0x68 && bitOf w 0 = 1 then s.gateClose else s
    | some .clk =>
      if off = 0x44 then (let (a, s) := s.draw 1; s.frqEnv w (a = 1)) else if off = 0x48 then (let (a, s) := s.draw 1; s.frqTo (stepCode w) (a = 1)) else s
    | some .avs =>
      if off = 0x40 then (let (a, s) := s.draw 1; s.avsEnv w (a = 1)) else if off = 0x44 then (let (a, s) := s.draw 1; s.avsTo (w % 1024) (a = 1)) else s
    | some .glb => if off = 0x48 then s.commandReset (some w) else if off = 0x4C && bitOf w 0 = 1 then s.padRelease else s
    | some .pws => if off = 0x44 && bitOf w 31 = 1 then s.pwsCtl w else s
    | some .tmr => if 0x80 ≤ off && off < 0x100 && off % 32 = 0 then s.timerCfg ((off - 0x80) / 32) w else s
    | _ => s

/-! ### Plain fields (R9) -/

/-- A field takes what its access code gives it of the word written. -/
def State.putField (s : State) (p w : Nat) (f : Fld) : State :=
  let x := w / 2 ^ f.lsb % 2 ^ f.width
  if f.own || s.lacksField p f then s
  else match f.acc with
    | .rw => s.wr p f x
    | .rwl => if s.locked p then s else s.wr p f x
    | .w1c => s.wr p f (s.rd p f &&& (2 ^ f.width - 1 - x))
    | .w1s => s.wr p f (s.rd p f ||| x)
    | _ => s

/-- A write that has no effect in the state the page is in: a generator's timing while it runs (R265), the isochronous lead while the controller runs (R308), mailbox
data from a source that does not own the mailbox (R403). -/
def State.heldField (s : State) (src p : Nat) (f : Fld) : Bool := match pageKind p with
  | some .disp => 0x48 ≤ f.off && f.off ≤ 0x58 && s.on p DISP.DISP_CTL_run
  | some .usb => f = USB.USB_CFG_lead_us && (s.ufn (pageBay p)).run
  | some .eng => 0x800 ≤ f.off && s.rd p (ENG.MB_OWN_owner ((f.off - 0x800) / 512)) != src
  | _ => false

/-- What follows from plain fields once they are written; `mode` is the mode that an Ethernet MAC had. -/
def State.wordDone (s : State) (p off mode : Nat) : State := match pageKind p with
  | some .eth => if off = 0x40 then s.ethCfg (pageBay p) mode else s
  | some .tc => if off = 0x40 then s.tcApply (pageBay p) else s
  | some .disp =>
    let n := pageBay p
    if off = 0x48 || off = 0x50 then s.each (List.range 8) (fun s w => s.winCheck n w)
    else if off = 0x60 then s.setTrim n (signed 16 (s.rd p DISP.TRIM_trim)) else s
  | some .usb => if off = 0x40 then s.usbCfg (pageBay p) else s
  | some .pcie => if off = 0x40 then s.pcieCfg (pageBay p) else s
  | some .svc => if off != 0x40 then s else if s.svcCond then s.svcAttach else s.svcDown
  | some .vbs => if off = 0x40 || off = 0x44 then s.vbDrive (pageBay p) else s
  | some .pwp => if off = 0x40 then s.feedCfg 0 else if off = 0x44 then s.feedCfg 1 else s
  | some .pws => if off = 0x58 then s.wr p PWS.CELLAR_CFG_ret (s.rd p PWS.CELLAR_CFG_ret ||| 0x80) else s
  | _ => s

/-- The hop factor's pin (R177) is cleared. -/
def State.hopUnpin (s : State) (p off w : Nat) : State :=
  if pageKind p = some .alt && off = 0x68 && bitOf w 9 = 1 then
    let k := s.selHop
    { s with sched := { s.sched with hopPin := s.sched.hopPin.filter (· != k) } }
  else s

/-- The plain fields of a word are written; clearing ER_CAP0.valid clears the capture (R458), and bits of EV_PEND that EV_EN makes 1 make a page event (R464). -/
def State.plainWord (s : State) (src p off w : Nat) : State := match pageKind p with
  | none => s
  | some k =>
    let old := s.rd p HDR.ER_CAP0_valid
    let pend := s.evPend p
    let mode := s.rd p ETH.MAC_CFG_mode
    let s := s.each ((k.wordFields off).filter (fun f => !s.heldField src p f)) (fun s f => s.putField p w f)
    let s := if off = 0x20 && old = 1 && s.rd p HDR.ER_CAP0_valid = 0 then
        s.each [HDR.ER_CAP0_sev, HDR.ER_CAP0_more, HDR.ER_CAP0_code, HDR.ER_CAP1_context, HDR.ER_CAP2_addr_lo, HDR.ER_CAP3_addr_hi, HDR.PG_STAT_fault] (fun s f => s.wr p f 0)
      else s
    let s := if off = 0x14 && s.evPend p &&& (2 ^ 32 - 1 - pend) != 0 then s.freshen p else s
    (s.wordDone p off mode).hopUnpin p off w

/-- A word of a page is written from a source (1 the head, 2 local management, 3 an engine). A window of the PX bridge that is written during a cycle changes at its end (R207). -/
def State.writeWord (s : State) (src p off w : Nat) : State :=
  s.onPage p (fun s =>
    if p = Pg.pxb && 0x60 ≤ off && off < 0xE0 && s.pxOwner != 0 then { s with xbr := { s.xbr with pxLate := s.xbr.pxLate ++ [(off, w)] } }
    else (s.plainWord src p off w).ownWrite src p off w)

/-! ### MSI-X tables (R210) -/

/-- A word of a VHC's MSI-X table is written: unmasking a pending vector sends its message (PRESUMED, log entry 53). -/
def State.vfMsix (s : State) (v off w : Nat) : State :=
  let k := off / 16
  let i := off % 16 / 4
  let x := s.vhcCtx v
  if i < 3 then s.setVhcCtx v { x with msix := if w = 0 then Tab.del (4 * k + i) x.msix else Tab.put (4 * k + i) w x.msix }
  else if bitOf w 0 = 1 then s.setVhcCtx v { x with unmasked := x.unmasked.filter (· != k) }
  else if x.unmasked.contains k then s
  else
    let s := s.setVhcCtx v { x with unmasked := x.unmasked ++ [k] }
    if x.pba.contains k && !(s.vState v = vFreezing || s.vState v = vFrozen) then (s.setVhcCtx v { s.vhcCtx v with pba := x.pba.filter (· != k) }).vecSignal v k else s

/-- A word of the PF's table of 32 vectors. -/
def State.pfMsixWrite (s : State) (off w : Nat) : State :=
  let k := off / 16
  let i := off % 16 / 4
  if i < 3 then { s with vhg := { s.vhg with pfMsix := if w = 0 then Tab.del (4 * k + i) s.vhg.pfMsix else Tab.put (4 * k + i) w s.vhg.pfMsix } }
  else if bitOf w 0 = 1 then { s with vhg := { s.vhg with pfUnmasked := s.vhg.pfUnmasked.filter (· != k) } }
  else if s.vhg.pfUnmasked.contains k then s
  else
    let s : State := { s with vhg := { s.vhg with pfUnmasked := s.vhg.pfUnmasked ++ [k] } }
    if s.vhg.pfPba.contains k then ({ s with vhg := { s.vhg with pfPba := s.vhg.pfPba.filter (· != k) } } : State).pfSignal k else s

/-- A word of an MSI-X table as it reads: bit 0 of word 3 is the mask. -/
def msixWord (t : Tab Nat) (unmasked : List Nat) (off : Nat) : Nat :=
  if off % 16 = 12 then b2n (!unmasked.contains (off / 16)) else (Tab.find (4 * (off / 16) + off % 16 / 4) t).getD 0

/-! ### Paths (R455, R456) -/

/-- The source code of a path (R384, R471). -/
def pathSrc : Path → Nat
  | .lmp => 2
  | .engine => 3
  | _ => 1

/-- A path of the host endpoint answers: in a head whose endpoint is out of reset. -/
def State.pathUp (s : State) (path : Path) : Bool := match path with
  | .pfBar => s.mode = .head && !s.vhg.perst
  | .vfBar v => s.mode = .head && !s.vhg.perst && v.val < s.vhg.numVfs
  | _ => true

/-- The offset in the register space of an address on a path. -/
def pathOff (path : Path) (addr : Nat) : Nat := match path with
  | .vfBar v => Pg.vhc v.val * 4096 + addr
  | _ => addr

/-- An access that breaks R7: recorded, counted, and answered with an error (R456). -/
def State.accErr (s : State) (write : Bool) (src addr be : Nat) : State :=
  let p := Pg.evt
  let s := if s.on p EVT.ACC_ERR_valid then s
    else
      let s := ((s.wr p EVT.ACC_ERR_valid 1).wr p EVT.ACC_ERR_write (b2n write)).wr p EVT.ACC_ERR_src src
      (s.wr p EVT.ACC_ERR_byte_en be).wr p EVT.ACC_ERR_offset addr
  (s.bump p EVT.ACC_CNT_count 1).raise p EVT.ev_acc_err ⟨0, addr % 2 ^ 32, 0⟩

/-- An access obeys R7. -/
def goodAccess (addr be : Nat) : Bool := addr % 4 = 0 && be % 16 = 15

/-- The words of its own VHC page that a VF may write (R211). -/
def vfWritable (off : Nat) : Bool := off = 0x10 || off = 0x14 || off = 0x4C || off = 0x50 || off = 0x54 || off = 0x58 || off = 0x60

/-- A write on a path. -/
def State.busWrite (s : State) (path : Path) (addr be w : Nat) : State :=
  let w := w % 2 ^ 32
  if !s.pathUp path then s
  else if !goodAccess addr be then (s.accErr true (pathSrc path) (pathOff path addr) (be % 16)).emit (.busError path addr)
  else match path with
    | .vfBar v =>
      if addr < 0x1000 then (if vfWritable addr then s.writeWord 1 (Pg.vhc v.val) addr w else s)
      else if addr < 0x1400 then s.vfMsix v.val (addr - 0x1000) w else s
    | .pfBar =>
      if addr < 0x200000 then s.writeWord 1 (addr / 4096) (addr % 4096) w
      else if addr < 0x200200 then s.pfMsixWrite (addr - 0x200000) w else s
    | _ => if addr < 0x200000 then s.writeWord (pathSrc path) (addr / 4096) (addr % 4096) w else s

/-- The word that a read on a path gives, and what the read leaves. -/
def State.busWord (s : State) (path : Path) (addr : Nat) : Nat × State := match path with
  | .vfBar v =>
    if addr < 0x1000 then s.readWord (Pg.vhc v.val) addr
    else if addr < 0x1400 then (msixWord (s.vhcCtx v.val).msix (s.vhcCtx v.val).unmasked (addr - 0x1000), s)
    else if addr = 0x2000 then (vecBits (s.vhcCtx v.val).pba % 2 ^ 32, s)
    else if addr = 0x2004 then (vecBits (s.vhcCtx v.val).pba / 2 ^ 32, s)
    else (0, s)
  | .pfBar =>
    if addr < 0x200000 then s.readWord (addr / 4096) (addr % 4096)
    else if addr < 0x200200 then (msixWord s.vhg.pfMsix s.vhg.pfUnmasked (addr - 0x200000), s)
    else if addr = 0x202000 then (vecBits s.vhg.pfPba % 2 ^ 32, s)
    else (0, s)
  | _ => if addr < 0x200000 then s.readWord (addr / 4096) (addr % 4096) else (0, s)

/-- A read on a path is answered. -/
def State.busRead (s : State) (path : Path) (addr be : Nat) : State :=
  if !s.pathUp path then s
  else if !goodAccess addr be then (s.accErr false (pathSrc path) (pathOff path addr) (be % 16)).emit (.busError path addr)
  else let r := s.busWord path addr; r.2.emit (.busData path addr r.1)

def execRegisterWrite (path : Path) (addr be data : Nat) (s : State) : Host.Outcome State Fault Refusal := s.run (fun s => s.busWrite path addr be data)

def execRcFieldRead (path : Path) (addr be : Nat) (s : State) : Host.Outcome State Fault Refusal := s.run (fun s => s.busRead path addr be)

/-- A word of the map. -/
def mapAddr (p off : Nat) : Nat := 4096 * p + off

def execTimeLoRead (path : Path) (s : State) : Host.Outcome State Fault Refusal := s.run (fun s => s.busRead path (mapAddr Pg.ctim 0x44) 15)

def execFrameTLoRead (path : Path) (n : Bay) (s : State) : Host.Outcome State Fault Refusal := s.run (fun s => s.busRead path (mapAddr (Pg.disp n.val) 0x78) 15)

def execPfqData2Read (path : Path) (s : State) : Host.Outcome State Fault Refusal := s.run (fun s => s.busRead path (mapAddr Pg.evt 0x21C) 15)

end Sys2Proof.Machine
end

