-- ==== Sys2Proof/Machine/Targets.lean ====
section
/-!
DEFINITION. Sys2Proof/Machine/Targets.lean: packets leaving a local egress (R72, R130), the targets of T requests (R181–R183, R189, R192, R197, R287, R316, R325),
host accesses to a function's aperture (R214, R258, R329) and the host's answers (R215).
-/
namespace Sys2Proof.Machine

open Sys2Proof

/-! ### The local egress (R72, R130) -/

/-- How an egress spoils a packet (R72, R80): `fn` is the function of a bay that holds its tunnel (0 USB, 1 NIC, 2 passthrough), `crc` says that its E2E check failed, and else it is
poisoned. -/
def spoilOf (code fn : Nat) (c : Cell) (crc : Bool) : Spoil :=
  if code = 7 then (if crc then .nullified else .ep)
  else if code = 6 then .unperformed
  else if c.dport = 5 then .tile
  else if c.cls = clsE then .fcs
  else if c.cls = clsG then (if crc then .usbCrc else .usbError)
  else if c.cls = clsT && fn = 2 then (if crc then .nullified else .ep)
  else if c.cls = clsT && fn = 0 && !crc then .usbError
  else .unperformed

/-- A chain-control cell of a code that R95 does not list: a part discards it and counts it in hdr_err. -/
def unknownChain (c : Cell) : Bool :=
  c.ctype = 0xA && (c.tunnel = 1 || c.tunnel = 2) && !((0x10 ≤ ccCode c && ccCode c ≤ 0x1B) || (0x20 ≤ ccCode c && ccCode c ≤ 0x22))

/-- A local egress hands the next packet to its function, or ends it spoiled in its own way; where a packet that fails its E2E check is not performed, the failure is logged untrusted
(R72, R198). -/
def State.egressOut (s : State) (code fn : Nat) (e : Ecc) : State :=
  let r := s.dequeue code e
  match r.1 with
  | [] => r.2
  | b :: more =>
    let pk := b :: more
    let x := r.2.checkPacket pk
    let cells := pk.map (·.cell)
    let broken := cells.any (fun c => c.e2e != c.e2eCalc)
    let how := spoilOf code fn b.cell broken
    let s := if broken && how = .unperformed then x.2.erlLog erE2e (reqOf b.cell) 0x3F true else x.2
    if x.1 then s.emit (.spoiled code how cells)
    else if code = 6 && unknownChain b.cell then s.hdrErr (portOf b.src) b.cell
    else s.emit (.deliver code cells)

/-- A chain-control cell waits in CORE while E0 restarts (R383). -/
def State.waitsForE0 (s : State) (code : Nat) : Bool := code = 6 && s.engDown 0 && (match s.localPick code with
  | some (_, b :: _, _) => b.cell.ctype = 0xA && (b.cell.tunnel = 1 || b.cell.tunnel = 2)
  | _ => false)

def State.egressTo (s : State) (code fn : Nat) (e : Ecc) : State := if s.waitsForE0 code then s else s.egressOut code fn e

def execLocalEgressDequeue (who : Consumer) (e : Ecc) (s : State) : Host.Outcome State Fault Refusal := s.run (fun s => s.egressTo (who.code.val + 2) who.fn.val e)

/-! ### Answers of a target (R180, R197) -/

/-- A target ends a request: a completion, or for a posted one the log and an error event when it failed. -/
def State.answerT (s : State) (ch : Nat) (r : TReq) (st cause : Nat) (data : List Byte) : State :=
  if r.posted then (if st = stSC then s else s.erlFail cause r) else s.replyT ch r st 0 (if st = stSC && r.reads then data else [])

/-- A request that its target does not support. -/
def State.unsupported (s : State) (ch : Nat) (r : TReq) : State := s.answerT ch r stUR erUr []

/-- A part of an aperture that reads 0 and ignores writes. -/
def State.answerZero (s : State) (ch : Nat) (r : TReq) : State :=
  if r.op = opMemRd || r.op = opMemWr then s.answerT ch r stSC 0 (List.replicate r.count 0) else s.unsupported ch r

/-- The byte enables of an access within its word. -/
def byteEn (r : TReq) : Nat := ((2 ^ r.count - 1) * 2 ^ (r.addr % 4)) % 16

/-- A request is performed on the register space at an address of the map: one whole aligned word (R7, R456). Its status, the cause of a failure, the data read, and the state then. -/
def State.registerDo (s : State) (r : TReq) (addr : Nat) : Nat × Nat × List Byte × State :=
  if r.op != opMemRd && r.op != opMemWr then (stUR, erUr, [], s)
  else if r.count != 4 || r.addr % 4 != 0 then (stUR, erUr, [], s.accErr (r.op = opMemWr) 1 addr (byteEn r))
  else if r.op = opMemWr then (stSC, 0, [], if addr < 0x200000 then s.writeWord 1 (addr / 4096) (addr % 4096) (numAt r.data 0 4) else s)
  else
    let x := if addr < 0x200000 then s.readWord (addr / 4096) (addr % 4096) else (0, s)
    (stSC, 0, leBytes 4 x.1, x.2)

/-- A request reaches the register space and is answered at once. -/
def State.registerReq (s : State) (ch : Nat) (r : TReq) (addr : Nat) : State :=
  let x := s.registerDo r addr
  x.2.2.2.answerT ch r x.1 x.2.1 x.2.2.1

/-- The register window, a slow target (R189, R192): a non-posted request is performed only with a FREE slot, and held in it behind a RETRY when it takes longer than t_retry_us. -/
def State.windowReq (s : State) (ch : Nat) (slow : Bool) (r : TReq) : State :=
  if r.posted then s.registerReq ch r r.addr
  else match s.freeSlot with
    | none => s.replyT ch r stRetry 0 []
    | some n =>
      if !slow then s.registerReq ch r r.addr
      else
        let x := s.registerDo r r.addr
        let s := x.2.2.2.slotTake n 0 r 0
        (s.setDslot n { s.dslot n with done := true, st := x.1, data := if r.reads then x.2.2.1 else [] }).retryTicket ch n r

/-- The register set of a USB controller: reads of any bytes, writes of whole words (R287). -/
def State.xhciReq (s : State) (ch n : Nat) (r : TReq) : State :=
  if r.op = opMemRd then
    s.answerT ch r stSC 0 ((List.range r.count).map (fun i => let a := r.addr + i; BitVec.ofNat 8 (s.xhciRead n (a / 4 * 4) / 256 ^ (a % 4))))
  else if r.op = opMemWr && r.addr % 4 = 0 && r.count % 4 = 0 then
    (s.each (List.range (r.count / 4)) (fun s i => s.xhciWrite n (r.addr + 4 * i) (numAt r.data (4 * i) 4))).answerT ch r stSC 0 []
  else s.unsupported ch r

/-- A request of a bay's USB function. -/
def State.usbReq (s : State) (ch n : Nat) (r : TReq) : State :=
  if r.addr < 0x10000 then s.xhciReq ch n r
  else if r.addr < 0x11000 then s.registerReq ch r (mapAddr (Pg.usb n) (r.addr - 0x10000))
  else s.answerZero ch r

/-- A request of a bay's NIC function (R316). -/
def State.nicReq (s : State) (ch n : Nat) (r : TReq) : State :=
  if 0x1000 ≤ r.addr && r.addr < 0x2000 then s.registerReq ch r (mapAddr (Pg.eth n) (r.addr - 0x1000)) else s.answerZero ch r

/-- A request of a bay's passthrough function (R325); RETRY when its queue is full (R183). -/
def State.passReq (s : State) (p : Port) (n : Nat) (r : TReq) : State :=
  let ch := s.chainIn p
  if s.mode != .hub then s.unsupported ch r
  else
    let cfgOp := r.op = opCfgRd || r.op = opCfgWr
    if cfgOp || ((r.op = opMemRd || r.op = opMemWr) && (r.addr < 0x1000 || (0x200000 ≤ r.addr && r.addr < 0x400000))) then
      (if !r.posted && Config.targetDepth + 1 ≤ (s.pcx n).outs.length then s.npRetry ch r else s.pcieReq n p r)
    else if 0x1000 ≤ r.addr && r.addr < 0x2000 then s.registerReq ch r (mapAddr (Pg.pcie n) (r.addr - 0x1000))
    else s.answerZero ch r

/-- A request of a display function (R284). -/
def State.dispReq (s : State) (ch n : Nat) (r : TReq) : State :=
  if 0x1000 ≤ r.addr && r.addr < 0x2000 then s.registerReq ch r (mapAddr (Pg.disp n) (r.addr - 0x1000))
  else if 0x2000 ≤ r.addr && r.addr < 0x3000 then s.registerReq ch r (mapAddr (Pg.frz n) (r.addr - 0x2000))
  else s.answerZero ch r

/-! ### The head's host port as a target (R215) -/

/-- A host tag that no read holds. -/
def State.hostTag (s : State) : Nat := ((List.range 768).find? (fun t => s.vhg.hostOut.all (fun o => o.1 != t))).getD 0

/-- A DMA request of a bay function goes onto the host link with the Requester ID of its VF. -/
def State.hostReq (s : State) (p : Port) (r : TReq) : State :=
  let ch := s.chainIn p
  if s.vhg.perst then s.unsupported ch r
  else if r.op = opMemRd then
    (if 768 ≤ s.vhg.hostOut.length then s.npRetry ch r
     else
      let t := s.hostTag
      ({ s with vhg := { s.vhg with hostOut := s.vhg.hostOut ++ [(t, p, r)] } } : State).emit (.hostRead (r.vhc + 1) r.addr r.count t))
  else if r.op = opMemWr then (s.emit (.hostWrite (r.vhc + 1) r.addr r.data)).answerT ch r stSC 0 []
  else s.unsupported ch r

/-- The host completes a read that the head issued for a bay function: its data goes back as Cpl. -/
def State.hostCplIn (s : State) (tag st : Nat) (data : List Byte) : State := match s.vhg.hostOut.find? (fun o => o.1 = tag) with
  | none => s
  | some (_, p, r) =>
    ({ s with vhg := { s.vhg with hostOut := s.vhg.hostOut.filter (fun o => o.1 != tag) } } : State).replyT (s.chainIn p) r st 0 (if st = stSC then data else [])

def execHostCompletionRx (tag st : Nat) (data : List Byte) (s : State) : Host.Outcome State Fault Refusal :=
  s.run (fun s => s.hostCplIn tag (st % 3) data)

/-! ### A request arrives (R181, R183) -/

/-- A request breaks R181. -/
def State.formatError (s : State) (ch : Nat) (r : TReq) (x : Ctx) : State :=
  let s := (s.bump Pg.xbr XBR.XBR_CNT3_fmt_err 1).raise Pg.xbr XBR.ev_fmt_err x
  if r.posted then s.erlFail erFormat r else s.replyT ch r stUR 0 []

/-- The dports of a part at which a request meets its target; `fn` tells which function of a bay (0 USB, 1 NIC, 2 passthrough) holds the tunnel, `slow` whether the register window takes
longer than t_retry_us. -/
def State.requestTo (s : State) (p : Port) (fn : Nat) (slow : Bool) (r : TReq) : State :=
  let ch := s.chainIn p
  if r.dport = 6 then (if r.ticket != 0 then s.reissueIn ch r else s.pxIn p r)
  else if r.dport = 7 then (if r.ticket != 0 then s.reissueIn ch r else s.windowReq ch slow r)
  else if 1 ≤ r.dport && r.dport ≤ 4 then
    let n := r.dport - 1
    if !s.bayOn n then s.unsupported ch r
    else if fn = 0 then s.usbReq ch n r
    else if fn = 1 then s.nicReq ch n r
    else s.passReq p n r
  else if r.dport = 5 then
    let n := Tun.dbay (s.half r.tunnel (s.halfOfPort p))
    if s.bayOn n then s.dispReq ch n r else s.unsupported ch r
  else if r.dport = 8 && s.mode = .head then s.hostReq p r
  else s.unsupported ch r

/-- A T request is taken by the function of its dport; a poisoned one is not performed (R80). -/
def State.requestIn (s : State) (p : Port) (fn : Nat) (slow : Bool) (c : Cell) : State :=
  let r := reqOf c
  let ch := s.chainIn p
  if r.op = opCpl then s
  else if r.badFormat then s.formatError ch r c.ctx
  else if r.psn then
    (if r.dport = 8 then s.emit (.spoiled 7 .ep [c])
     else if r.posted then s.erlFail erPoison r
     else (s.erlLog erPoison r).replyT ch r stCA 0 [])
  else s.requestTo p fn slow r

def execTRequestRx (p : Port) (slow : Bool) (d : Delivery) (s : State) : Host.Outcome State Fault Refusal := s.run (fun s => s.requestIn p d.fn.val slow d.cell)

/-! ### The host's accesses to an aperture (R214, R258, R329, R196) -/

/-- The fields of a function's own register words; a TX ring has no buffer size. -/
def apertureFields (rows : List FRow) (off : Nat) : List Fld :=
  (rows.filterMap (fun r => r.at? off)).filter (fun f => !(0x100 ≤ f.off && f.off < 0x200 && f.off % 32 = 8 && f.lsb = 8))

/-- A word of a function's registers in the head is read; counters clear. -/
def State.apertureRead (s : State) (p : Nat) (rows : List FRow) (off : Nat) : Nat × State :=
  let fs := apertureFields rows off
  (sumNat (fs.map (fun f => s.rd p f * 2 ^ f.lsb)), s.each (fs.filter (fun f => f.acc = .rc)) (fun s f => s.wr p f 0))

/-- A word of a function's registers in the head is written. -/
def State.apertureWrite (s : State) (v f kind off w : Nat) : State :=
  let k := fnKey v f
  if kind = 4 then
    let p := Pg.present k
    if off = 0x08 then s.prCfg v f w
    else if off < 0x08 && s.rd p PR.PR_HEAD_head != s.rd p PR.PR_TAIL_tail then s
    else s.each (apertureFields PR.rows off) (fun s f => s.putField p w f)
  else if ((0x100 ≤ off && off < 0x180) || (0x200 ≤ off && off < 0x280)) && off % 32 < 12 then s.ringCfg v f (0x200 ≤ off) (off % 256 / 32) (off % 32 / 4) w
  else s.each (apertureFields NIC.rows off) (fun s f => s.putField (Pg.nic k) w f)

/-- The registers that the head itself serves: the present interface, the NIC's queue registers. -/
def State.headAperture (s : State) (v f kind : Nat) (write : Bool) (off len : Nat) (data : List Byte) : State :=
  if off % 4 != 0 || len != 4 then
    let s := s.accErr write 1 off (((2 ^ len - 1) * 2 ^ (off % 4)) % 16)
    if write then s.urWrite v else s.emit (.hostCpl v stUR [])
  else if write then s.apertureWrite v f kind off (numAt data 0 4)
  else
    let x := if kind = 4 then s.apertureRead (Pg.present (fnKey v f)) PR.rows off else s.apertureRead (Pg.nic (fnKey v f)) NIC.rows off
    x.2.emit (.hostCpl v stSC (leBytes 4 x.1))

/-- A host access goes on as a T request in the function's tunnel. -/
def State.apertureSend (s : State) (v f : Nat) (write : Bool) (off len : Nat) (data : List Byte) : State :=
  let w := s.dirCfg v f
  let t := bitsOf (s.rd (Pg.vhc v) (VHC.DIR_TUN_tun f)) 27 16
  let r : TReq := { op := if write then opMemWr else opMemRd, count := if write then min 512 data.length else min 4096 len, addr := off, data := if write then data.take 512 else [],
                    tunnel := t, vhc := v, gen := s.vGen v, wc := write && dirWc w }
  s.issue { init := 0, req := r, slot := f, chain := dirChain w }

/-- A host access to a slot of a VF's BAR2. -/
def State.mmio (s : State) (v f : Nat) (write : Bool) (off len : Nat) (data : List Byte) : State :=
  if s.mode != .head || s.vhg.perst then s
  else
    let w := s.dirCfg v f
    let len := if write then data.length else len
    let aper := s.rd (Pg.vhc v) (VHC.DIR_APER_aper f) / 2 ^ 28 % 16
    if s.vState v != Machine.vActive || !dirV w || (s.vhcCtx v).gone.contains f || 2 ^ (aper + 12) ≤ off then
      (if write then s.urWrite v else s.emit (.hostCpl v stUR []))
    else if !write && s.xbr.wrErr.contains (v, f) then
      (({ s with xbr := { s.xbr with wrErr := s.xbr.wrErr.filter (fun x => x != (v, f)) } } : State)).emit (.hostCpl v stCA [])
    else if (dirKind w = 4 || dirKind w = 2) && off < 0x1000 then s.headAperture v f (dirKind w) write off len data
    else if len = 0 then (if write then s else s.emit (.hostCpl v stSC []))
    else s.apertureSend v f write off len data

def execHostMmioRequest (v : Vhc) (slot : Fin 16) (write : Bool) (off len : Nat) (data : List Byte) (s : State) : Host.Outcome State Fault Refusal :=
  s.run (fun s => s.mmio v.val slot.val write off len data)

end Sys2Proof.Machine
end

