-- ==== Sys2Proof/Machine/Epoch.lean ====
section
/-!
DEFINITION. Sys2Proof/Machine/Epoch.lean: the passing of time, what happens at an epoch boundary (R49, R99, R101, R102, R104, R105, R146, R162, R164, R168, R443), and the acknowledgement
of a re-homed hub (R108, R222, R432).
-/
namespace Sys2Proof.Machine

open Sys2Proof

/-! ### Time -/

/-- Whole microseconds that end within the next `ns`. -/
def State.usIn (s : State) (ns : Nat) : Nat := (s.now + ns) / 1000 - s.now / 1000

/-- Local time, and while the main die runs the chain's time, the µs count of TMR and the watchdogs of scanning heads. -/
def State.elapse (s : State) (ns : Nat) : State :=
  let us := s.usIn ns
  if s.life != .running then { s with now := s.now + ns }
  else
    let s : State := { s with now := s.now + ns, chain := { s.chain with time := s.chain.time + ns } }
    let s := s.wr Pg.tmr TMR.TICK_tick (s.rd Pg.tmr TMR.TICK_tick + us)
    s.each [0, 1, 2, 3] (fun s n =>
      if s.scanning n && s.on (Pg.frz n) FRZ.WD_CFG_en then s.setDh n { s.dh n with wdUs := (s.dh n).wdUs + us } else s)

/-- Time passes: tokens of the shapers accrue (R172), and what waited for them goes on. -/
def State.advance (s : State) (ns : Nat) : State :=
  let s := s.elapse ns
  if s.life != .running then s else (s.accrue ns).nicPump.pauseEnds

/-- One tick: 1 µs of an idle part (DESIGN CHOICE, log entry 1), in which the loops and measurements of the trunk lanes move (log entry 128) and E7 writes the curves that it held back (R397). -/
def State.tick (s : State) : State := (s.advance 1000).lanesLive.curvesDue

/-! ### The boundary -/

/-- A pending step of chain time is applied; a pending bank is dropped then (R105). -/
def State.boundaryTime (s : State) : State :=
  let steps := s.chain.pendStep.isSome
  let s := s.timeStep
  let s := if steps then s.dropNext else s
  s.each [0, 1, 2, 3] State.timerStep

/-- The lanes that the bank just swapped in counts stripe again: they are lost no more (R49). -/
def State.rejoin (s : State) (p : Port) : State :=
  let t := s.trunk p
  let l := t.counted &&& t.readyLanes
  if l = 0 || !s.isUp p then s
  else
    let rx := s.trkF p TRK.PORT_STAT_rx_lanes ||| l
    let s := s.setTrunk p { t with readyLanes := t.readyLanes - l, counted := 0 }
    let s := s.setLanes p (s.trkF p TRK.PORT_STAT_tx_lanes) rx
    let s := s.each [0, 1] (fun s k => if bitOf l k = 1 then s.setTrk p (laneFlags k) 14 else s)
    ((s.laneNotice p rx 0xFF).raise (Pg.trk p) TRK.ev_lane_rejoin).linkReport p 4

/-- The next bank swaps in (R168) and ready lanes rejoin. -/
def State.boundarySwap (s : State) : State :=
  let due := s.sched.nxt.isSome && s.rd Pg.sch SCH.SWAP_EPOCH_swap_epoch = s.epochNow % 2 ^ 32
  let s := s.bankSwap
  if due then (s.rejoin .tu).rejoin .td else s

/-- The Granary's ports waited more than wait_pm thousandths of the epoch that ends (R146). -/
def State.overCap (s : State) (rd wr : Nat) : Bool := s.rd1 Pg.swc SWC.CAP_CFG_wait_pm < rd || s.rd1 Pg.swc SWC.CAP_CFG_wait_pm < wr

def State.coreCap (s : State) (rd wr : Nat) : State :=
  let s := (s.wr Pg.swc SWC.CAP_STAT_rd_wait (min 255 rd)).wr Pg.swc SWC.CAP_STAT_wr_wait (min 255 wr)
  if s.overCap rd wr then (s.bump Pg.swc SWC.CAP_STAT_cap_epochs 1).raise Pg.swc SWC.ev_core_cap else s

/-- Everything that an epoch boundary brings: `rd`, `wr` the thousandths of the epoch's clocks in which the Granary's ports had requests waiting, `busy` the busy thousandths of R443,
`ack` whether an AVSBus command is acknowledged. -/
def State.atBoundary (s : State) (rd wr busy : Nat) (ack : Bool) : State :=
  let s := s.coreCap rd wr
  let s : State := { s with gran := { s.gran with plcEpochs := min 15 (s.gran.plcEpochs + 1) } }
  let s := s.boundaryTime
  let s := s.boundarySwap.allotSwap
  let s := if s.listens 0 || s.listens 1 then s.countMiss else s
  let s := (((s.sendHeartbeat 0).sendHeartbeat 1).keepP1200 .tu).keepP1200 .td
  let s := s.sendTimes.reportDemand.sendTables
  s.frqEpoch busy (s.overCap rd wr) ack

/-- Chain time reaches the next boundary. -/
def State.epochBoundary (s : State) (rd wr busy : Nat) (ack : Bool) : State :=
  let next := (s.chain.time / s.epochLen + 1) * s.epochLen
  (s.advance (next - s.chain.time)).atBoundary rd wr busy ack

def execEpochBoundary (rdWait wrWait busy : Nat) (ack : Bool) (s : State) : Host.Outcome State Fault Refusal :=
  s.run (fun s => s.epochBoundary rdWait wrWait busy ack)

/-! ### REHOME_ACK (R108 step 6, R167, R222, R432) -/

/-- The routing halves of a chain whose entries a hub holds. -/
def State.halvesAt (s : State) (ch addr : Nat) : List TunStep :=
  (s.sched.cfg.map (fun e => ({ del := false, half := ch, tunnel := e.1, word := e.2.half ch } : TunStep))).filter (fun x =>
    Tun.v x.word && (Tun.shub x.word = addr || (s.holders ch x.word).contains addr))

/-- A woken hub's tunnel entries are written again by R153. -/
def State.rewriteTunnels (s : State) (ch addr : Nat) : State :=
  let l := s.halvesAt ch addr
  if l.isEmpty then s
  else
    let s := s.wr Pg.tun0 TUN.TUN_STAT_busy 1
    let s : State := { s with sched := { s.sched with jobs := s.sched.jobs ++ [{ steps := l, vhc := 64 }] } }
    if s.sched.op.isSome then s else s.goJobs

/-- GEN_SET for the VHCs in state ACTIVE; `all` or those with a function on the hub. -/
def State.renewGens (s : State) (k : Nat) (all : Bool) : State :=
  s.each ((List.range 64).filter (fun v => s.vState v = Machine.vActive && (all || (s.hubsOf v).contains k))) (fun s v => (s.genSend 0x30 v (s.vGen v) 1 [k] 0).2.2)

/-- The directory entry of a hub of a re-homed chain that answers; the first answer brings the chain up. -/
def State.ackEntry (s : State) (ch addr : Nat) (e : DirEnt) : State := ((s.dirPut ch addr e).wr Pg.chn (CHN.CHAIN_STAT_state ch) 2).dirStats ch

/-- What the hub that answered is given: its generations, its tunnels after a sleep, a full table. -/
def State.ackRest (s : State) (ch addr : Nat) (woken quiet : Bool) : State :=
  let k := hubKey ch addr
  let s := (s.genSend 0x31 0 0 0 [k] 0).2.2
  let s : State := { s with vhg := { s.vhg with silent := s.vhg.silent.filter (· != k) } }
  let s := if woken || quiet then s.renewGens k quiet else s
  let s := if woken then s.rewriteTunnels ch addr else s
  s.tableAfterRehome ch addr

/-- A hub of a re-homed chain answers: its entry, its generations, its tunnels after a sleep, a full table; heartbeats run from the first answer. For a P1200 its upstream neighbour answers
(R114, R115): it takes no such message. -/
def State.rehomeAck (s : State) (p : Port) (c : Cell) : State :=
  let ch := chainOf p
  let e := dirEntOf (c.payload.drop 4)
  if s.mode != .head || !(s.headChain ch).home then s
  else if isP12 e then s.ackEntry ch (c.shub + 1) e
  else (s.ackEntry ch c.shub e).ackRest ch c.shub ((s.headChain ch).asleep.contains c.shub) (s.vhg.silent.contains (hubKey ch c.shub))

def execRehomeAckRx (p : Port) (c : Cell) (s : State) : Host.Outcome State Fault Refusal := s.run (fun s => s.msgIn p c (fun s => s.rehomeAck p c))

end Sys2Proof.Machine
end

