-- ==== Sys2Proof/Machine/Dispatch.lean ====
section
/-!
DEFINITION. Sys2Proof/Machine/Dispatch.lean: one arm per command, each a call of its meaning.
-/
namespace Sys2Proof.Machine

open Sys2Proof

/-- The effect of a command on everything but the queue. -/
def exec (i : Instr) (s : State) : Host.Outcome State Fault Refusal :=
  match i with
  | .registerWrite a b c d => Sys2Proof.Machine.execRegisterWrite a b c d s
  | .rcFieldRead a b c => Sys2Proof.Machine.execRcFieldRead a b c s
  | .timeLoRead a => Sys2Proof.Machine.execTimeLoRead a s
  | .frameTLoRead a b => Sys2Proof.Machine.execFrameTLoRead a b s
  | .pfqData2Read a => Sys2Proof.Machine.execPfqData2Read a s
  | .blockReset a => Sys2Proof.Machine.execBlockReset a s
  | .counterSnapshot a b => Sys2Proof.Machine.execCounterSnapshot a b s
  | .pageLock a => Sys2Proof.Machine.execPageLock a s
  | .eventSet a b => Sys2Proof.Machine.execEventSet a b s
  | .powerOnReset => Sys2Proof.Machine.execPowerOnReset s
  | .pinReset => Sys2Proof.Machine.execPinReset s
  | .commandReset a => Sys2Proof.Machine.execCommandReset a s
  | .watchdogReset => Sys2Proof.Machine.execWatchdogReset s
  | .thermalReset => Sys2Proof.Machine.execThermalReset s
  | .clockReset => Sys2Proof.Machine.execClockReset s
  | .bootComplete a => Sys2Proof.Machine.execBootComplete a s
  | .companionPowerOn => Sys2Proof.Machine.execCompanionPowerOn s
  | .companionPowerOff => Sys2Proof.Machine.execCompanionPowerOff s
  | .companionLinkLost => Sys2Proof.Machine.execCompanionLinkLost s
  | .companionLinkRestored => Sys2Proof.Machine.execCompanionLinkRestored s
  | .portEnable a => Sys2Proof.Machine.execPortEnable a s
  | .portDisable a => Sys2Proof.Machine.execPortDisable a s
  | .portHoldDown a b => Sys2Proof.Machine.execPortHoldDown a b s
  | .portRenego a => Sys2Proof.Machine.execPortRenego a s
  | .portRetrain a => Sys2Proof.Machine.execPortRetrain a s
  | .mediaAutoTimeout a b => Sys2Proof.Machine.execMediaAutoTimeout a b s
  | .trunkCcToggle a => Sys2Proof.Machine.execTrunkCcToggle a s
  | .trunkCcAttach a => Sys2Proof.Machine.execTrunkCcAttach a s
  | .trunkCcDetach a => Sys2Proof.Machine.execTrunkCcDetach a s
  | .enterNegotiate a b => Sys2Proof.Machine.execEnterNegotiate a b s
  | .hopPageSend a => Sys2Proof.Machine.execHopPageSend a s
  | .hopPageRx a b => Sys2Proof.Machine.execHopPageRx a b s
  | .hopAckSend a => Sys2Proof.Machine.execHopAckSend a s
  | .hopAckRx a b => Sys2Proof.Machine.execHopAckRx a b s
  | .keepaliveSend a => Sys2Proof.Machine.execKeepaliveSend a s
  | .keepaliveRx a b => Sys2Proof.Machine.execKeepaliveRx a b s
  | .sidebandLost a => Sys2Proof.Machine.execSidebandLost a s
  | .inbandNegotiate a => Sys2Proof.Machine.execInbandNegotiate a s
  | .trainingFrameRx a b c => Sys2Proof.Machine.execTrainingFrameRx a b c s
  | .ffeRequestRx a b c d => Sys2Proof.Machine.execFfeRequestRx a b c d s
  | .trainingConverged a => Sys2Proof.Machine.execTrainingConverged a s
  | .trainingTimeout a => Sys2Proof.Machine.execTrainingTimeout a s
  | .trainFailRetry a => Sys2Proof.Machine.execTrainFailRetry a s
  | .p1Attempt a => Sys2Proof.Machine.execP1Attempt a s
  | .p1Aligned a b c d => Sys2Proof.Machine.execP1Aligned a b c d s
  | .linkUp a => Sys2Proof.Machine.execLinkUp a s
  | .eqSetpointWrite a b c => Sys2Proof.Machine.execEqSetpointWrite a b c s
  | .eqEnvelopeWrite a b c => Sys2Proof.Machine.execEqEnvelopeWrite a b c s
  | .laneLost a b c => Sys2Proof.Machine.execLaneLost a b c s
  | .laneNoticeRx a b c => Sys2Proof.Machine.execLaneNoticeRx a b c s
  | .laneReady a b => Sys2Proof.Machine.execLaneReady a b s
  | .uncorrectableLimit a b => Sys2Proof.Machine.execUncorrectableLimit a b s
  | .recoverRx a b => Sys2Proof.Machine.execRecoverRx a b s
  | .recoverComplete a => Sys2Proof.Machine.execRecoverComplete a s
  | .recoverTimeout a => Sys2Proof.Machine.execRecoverTimeout a s
  | .linkLoss a b => Sys2Proof.Machine.execLinkLoss a b s
  | .downNoticeRx a => Sys2Proof.Machine.execDownNoticeRx a s
  | .negotiateTimeout a => Sys2Proof.Machine.execNegotiateTimeout a s
  | .downStateExpiry a => Sys2Proof.Machine.execDownStateExpiry a s
  | .sleepNoticeRx a b => Sys2Proof.Machine.execSleepNoticeRx a b s
  | .beaconSend a => Sys2Proof.Machine.execBeaconSend a s
  | .beaconAnswered a => Sys2Proof.Machine.execBeaconAnswered a s
  | .beaconTimeout a => Sys2Proof.Machine.execBeaconTimeout a s
  | .cellRx a b => Sys2Proof.Machine.execCellRx a b s
  | .statusBlockRx a b c d e => Sys2Proof.Machine.execStatusBlockRx a b c d e s
  | .creditBlockRx a b => Sys2Proof.Machine.execCreditBlockRx a b s
  | .statusSend a => Sys2Proof.Machine.execStatusSend a s
  | .replayTimerExpiry a => Sys2Proof.Machine.execReplayTimerExpiry a s
  | .statusTimeout a => Sys2Proof.Machine.execStatusTimeout a s
  | .retrainReqRx a => Sys2Proof.Machine.execRetrainReqRx a s
  | .crdCfgWrite a b => Sys2Proof.Machine.execCrdCfgWrite a b s
  | .slotTransmit a b => Sys2Proof.Machine.execSlotTransmit a b s
  | .localEgressDequeue a b => Sys2Proof.Machine.execLocalEgressDequeue a b s
  | .reseqTimeout a b c d => Sys2Proof.Machine.execReseqTimeout a b c d s
  | .queuePointerMismatch a b => Sys2Proof.Machine.execQueuePointerMismatch a b s
  | .gleanerSweepStep => Sys2Proof.Machine.execGleanerSweepStep s
  | .gleanerPassEnd => Sys2Proof.Machine.execGleanerPassEnd s
  | .gleanerFullPass => Sys2Proof.Machine.execGleanerFullPass s
  | .accountLimitsWrite a b => Sys2Proof.Machine.execAccountLimitsWrite a b s
  | .reserveWrite a b => Sys2Proof.Machine.execReserveWrite a b s
  | .placementLoop => Sys2Proof.Machine.execPlacementLoop s
  | .epochBoundary a b c d => Sys2Proof.Machine.execEpochBoundary a b c d s
  | .hbMiss => Sys2Proof.Machine.execHbMiss s
  | .hbFirstTimeout => Sys2Proof.Machine.execHbFirstTimeout s
  | .heartbeatRx a b => Sys2Proof.Machine.execHeartbeatRx a b s
  | .homeLostRx a b => Sys2Proof.Machine.execHomeLostRx a b s
  | .rehomeRx a b => Sys2Proof.Machine.execRehomeRx a b s
  | .rehomeAckRx a b => Sys2Proof.Machine.execRehomeAckRx a b s
  | .enumRx a b => Sys2Proof.Machine.execEnumRx a b s
  | .enumReplyRx a b => Sys2Proof.Machine.execEnumReplyRx a b s
  | .enumResend a => Sys2Proof.Machine.execEnumResend a s
  | .standbyHelloRx a b => Sys2Proof.Machine.execStandbyHelloRx a b s
  | .tdUpSend => Sys2Proof.Machine.execTdUpSend s
  | .tdUpRx a b => Sys2Proof.Machine.execTdUpRx a b s
  | .timeCellRx a b => Sys2Proof.Machine.execTimeCellRx a b s
  | .ctimSetGo => Sys2Proof.Machine.execCtimSetGo s
  | .handoverRequest a => Sys2Proof.Machine.execHandoverRequest a s
  | .arbitrationWindowEnd => Sys2Proof.Machine.execArbitrationWindowEnd s
  | .handoverReqRx a b => Sys2Proof.Machine.execHandoverReqRx a b s
  | .handoverGoRx a b => Sys2Proof.Machine.execHandoverGoRx a b s
  | .handoverAtTGo => Sys2Proof.Machine.execHandoverAtTGo s
  | .handoverNakRx a b => Sys2Proof.Machine.execHandoverNakRx a b s
  | .dyingGaspRepeat => Sys2Proof.Machine.execDyingGaspRepeat s
  | .dyingGaspRx a b => Sys2Proof.Machine.execDyingGaspRx a b s
  | .cmdPing a => Sys2Proof.Machine.execCmdPing a s
  | .cmdSleepP2 a => Sys2Proof.Machine.execCmdSleepP2 a s
  | .cmdSleepP3 a => Sys2Proof.Machine.execCmdSleepP3 a s
  | .cmdSetEpoch a => Sys2Proof.Machine.execCmdSetEpoch a s
  | .cmdHubReset a => Sys2Proof.Machine.execCmdHubReset a s
  | .cmdReenum a => Sys2Proof.Machine.execCmdReenum a s
  | .cmdRx a b => Sys2Proof.Machine.execCmdRx a b s
  | .cmdAckRx a b => Sys2Proof.Machine.execCmdAckRx a b s
  | .cmdTimeout => Sys2Proof.Machine.execCmdTimeout s
  | .cancelRx a b => Sys2Proof.Machine.execCancelRx a b s
  | .setEpochApply => Sys2Proof.Machine.execSetEpochApply s
  | .reenumApply => Sys2Proof.Machine.execReenumApply s
  | .sleepEntry a => Sys2Proof.Machine.execSleepEntry a s
  | .tunRead => Sys2Proof.Machine.execTunRead s
  | .tunWrite => Sys2Proof.Machine.execTunWrite s
  | .tunDelete => Sys2Proof.Machine.execTunDelete s
  | .tunWriteParams => Sys2Proof.Machine.execTunWriteParams s
  | .tunnelEntryMsgRx a b => Sys2Proof.Machine.execTunnelEntryMsgRx a b s
  | .tunnelEntryAnswerRx a b => Sys2Proof.Machine.execTunnelEntryAnswerRx a b s
  | .tunnelEntryResend => Sys2Proof.Machine.execTunnelEntryResend s
  | .tunnelDeleteWaitEnd => Sys2Proof.Machine.execTunnelDeleteWaitEnd s
  | .demandReportRx a b c => Sys2Proof.Machine.execDemandReportRx a b c s
  | .linkReportRx a b => Sys2Proof.Machine.execLinkReportRx a b s
  | .allotterCompute a => Sys2Proof.Machine.execAllotterCompute a s
  | .allotmentTableRx a b => Sys2Proof.Machine.execAllotmentTableRx a b s
  | .altCfgWrite a => Sys2Proof.Machine.execAltCfgWrite a s
  | .hopFactorWrite a => Sys2Proof.Machine.execHopFactorWrite a s
  | .tRequestRx a b c => Sys2Proof.Machine.execTRequestRx a b c s
  | .completionRx a => Sys2Proof.Machine.execCompletionRx a s
  | .completionTimeout a b c => Sys2Proof.Machine.execCompletionTimeout a b c s
  | .quarantineExpiry a b c => Sys2Proof.Machine.execQuarantineExpiry a b c s
  | .slowTargetRetry a b => Sys2Proof.Machine.execSlowTargetRetry a b s
  | .delayedOpComplete a => Sys2Proof.Machine.execDelayedOpComplete a s
  | .slotDiscardExpiry a => Sys2Proof.Machine.execSlotDiscardExpiry a s
  | .headReissue a b => Sys2Proof.Machine.execHeadReissue a b s
  | .windowReadLimit a b => Sys2Proof.Machine.execWindowReadLimit a b s
  | .errorEventRx a b => Sys2Proof.Machine.execErrorEventRx a b s
  | .quotaWrite a => Sys2Proof.Machine.execQuotaWrite a s
  | .erlClr => Sys2Proof.Machine.execErlClr s
  | .pxInboundCycle => Sys2Proof.Machine.execPxInboundCycle s
  | .pxCycleEnd a => Sys2Proof.Machine.execPxCycleEnd a s
  | .pxTimeout => Sys2Proof.Machine.execPxTimeout s
  | .externalMasterCycle a b c d => Sys2Proof.Machine.execExternalMasterCycle a b c d s
  | .masterRetry => Sys2Proof.Machine.execMasterRetry s
  | .pxint => Sys2Proof.Machine.execPxint s
  | .hostMmioRequest a b c d e f => Sys2Proof.Machine.execHostMmioRequest a b c d e f s
  | .vhcCreate a b => Sys2Proof.Machine.execVhcCreate a b s
  | .vhcAddFunc a => Sys2Proof.Machine.execVhcAddFunc a s
  | .vhcRemoveFunc a => Sys2Proof.Machine.execVhcRemoveFunc a s
  | .vhcDisable a => Sys2Proof.Machine.execVhcDisable a s
  | .vhcEnable a => Sys2Proof.Machine.execVhcEnable a s
  | .vhcFreeze a => Sys2Proof.Machine.execVhcFreeze a s
  | .vhcThaw a => Sys2Proof.Machine.execVhcThaw a s
  | .vhcSave a => Sys2Proof.Machine.execVhcSave a s
  | .vhcRestore a b => Sys2Proof.Machine.execVhcRestore a b s
  | .vhcDestroy a => Sys2Proof.Machine.execVhcDestroy a s
  | .vhgBadOp a => Sys2Proof.Machine.execVhgBadOp a s
  | .vfFlr a => Sys2Proof.Machine.execVfFlr a s
  | .vfEnableClear => Sys2Proof.Machine.execVfEnableClear s
  | .drainComplete a => Sys2Proof.Machine.execDrainComplete a s
  | .drainTimeout a => Sys2Proof.Machine.execDrainTimeout a s
  | .genSetRx a b c => Sys2Proof.Machine.execGenSetRx a b c s
  | .genClearRx a b => Sys2Proof.Machine.execGenClearRx a b s
  | .genQueryRx a b => Sys2Proof.Machine.execGenQueryRx a b s
  | .freezeFnRx a b => Sys2Proof.Machine.execFreezeFnRx a b s
  | .genAnswerRx a b => Sys2Proof.Machine.execGenAnswerRx a b s
  | .genMessageResend a => Sys2Proof.Machine.execGenMessageResend a s
  | .interruptEventRx a b => Sys2Proof.Machine.execInterruptEventRx a b s
  | .fenceRelease a => Sys2Proof.Machine.execFenceRelease a s
  | .saveComplete a b c => Sys2Proof.Machine.execSaveComplete a b c s
  | .restoreComplete a => Sys2Proof.Machine.execRestoreComplete a s
  | .eqCfgWrite a b => Sys2Proof.Machine.execEqCfgWrite a b s
  | .prTailWrite a b c d => Sys2Proof.Machine.execPrTailWrite a b c d s
  | .prCfgWrite a b c => Sys2Proof.Machine.execPrCfgWrite a b c s
  | .encodeSubsetStart a b => Sys2Proof.Machine.execEncodeSubsetStart a b s
  | .pixelFetchComplete a b c d => Sys2Proof.Machine.execPixelFetchComplete a b c d s
  | .tileCellRx a b c => Sys2Proof.Machine.execTileCellRx a b c s
  | .stagingTimeout a => Sys2Proof.Machine.execStagingTimeout a s
  | .tileRowCommit a => Sys2Proof.Machine.execTileRowCommit a s
  | .presentDoneRx a b => Sys2Proof.Machine.execPresentDoneRx a b s
  | .loftAllocate a => Sys2Proof.Machine.execLoftAllocate a s
  | .loftFree a => Sys2Proof.Machine.execLoftFree a s
  | .decodeTileRow a b => Sys2Proof.Machine.execDecodeTileRow a b s
  | .frameStart a => Sys2Proof.Machine.execFrameStart a s
  | .dispRun a => Sys2Proof.Machine.execDispRun a s
  | .dispStop a => Sys2Proof.Machine.execDispStop a s
  | .dispRetrain a b => Sys2Proof.Machine.execDispRetrain a b s
  | .edidRead a b => Sys2Proof.Machine.execEdidRead a b s
  | .hpdPlug a b => Sys2Proof.Machine.execHpdPlug a b s
  | .hpdIrq a b => Sys2Proof.Machine.execHpdIrq a b s
  | .hpdUnplug a => Sys2Proof.Machine.execHpdUnplug a s
  | .linkTrainingDone a b c => Sys2Proof.Machine.execLinkTrainingDone a b c s
  | .trimWrite a b => Sys2Proof.Machine.execTrimWrite a b s
  | .windowSignature a b => Sys2Proof.Machine.execWindowSignature a b s
  | .windowCfgWrite a b c d => Sys2Proof.Machine.execWindowCfgWrite a b c d s
  | .windowCapture a b => Sys2Proof.Machine.execWindowCapture a b s
  | .freezeClear a b => Sys2Proof.Machine.execFreezeClear a b s
  | .presentWatchdogExpiry a => Sys2Proof.Machine.execPresentWatchdogExpiry a s
  | .portscPpWrite a b c => Sys2Proof.Machine.execPortscPpWrite a b c s
  | .configureEndpoint a b c d e f g h => Sys2Proof.Machine.execConfigureEndpoint a b c d e f g h s
  | .stopEndpoint a b c d e f g => Sys2Proof.Machine.execStopEndpoint a b c d e f g s
  | .resetDevice a b c d e => Sys2Proof.Machine.execResetDevice a b c d e s
  | .doorbellWrite a b c d e => Sys2Proof.Machine.execDoorbellWrite a b c d e s
  | .usbPortReset a b c d => Sys2Proof.Machine.execUsbPortReset a b c d s
  | .usbDisconnect a b c d => Sys2Proof.Machine.execUsbDisconnect a b c d s
  | .stallRx a b c d e => Sys2Proof.Machine.execStallRx a b c d e s
  | .memoryRequestFailure a b c d e f => Sys2Proof.Machine.execMemoryRequestFailure a b c d e f s
  | .isoIntervalStart a b c d e => Sys2Proof.Machine.execIsoIntervalStart a b c d e s
  | .isoStagingRx a b c => Sys2Proof.Machine.execIsoStagingRx a b c s
  | .isoAckRx a b c => Sys2Proof.Machine.execIsoAckRx a b c s
  | .isoAckTimeout a b c => Sys2Proof.Machine.execIsoAckTimeout a b c s
  | .isoOutDataRx a b => Sys2Proof.Machine.execIsoOutDataRx a b s
  | .hostResumeWrite a b => Sys2Proof.Machine.execHostResumeWrite a b s
  | .deviceRemoteWake a b => Sys2Proof.Machine.execDeviceRemoteWake a b s
  | .svcAttach => Sys2Proof.Machine.execSvcAttach s
  | .svcDetach => Sys2Proof.Machine.execSvcDetach s
  | .svcBusReset a => Sys2Proof.Machine.execSvcBusReset a s
  | .svcSuspend => Sys2Proof.Machine.execSvcSuspend s
  | .svcResume => Sys2Proof.Machine.execSvcResume s
  | .svcControlRequest a b => Sys2Proof.Machine.execSvcControlRequest a b s
  | .svcBulkOut a b => Sys2Proof.Machine.execSvcBulkOut a b s
  | .ethRxFrame a b c d => Sys2Proof.Machine.execEthRxFrame a b c d s
  | .pauseRepeat a => Sys2Proof.Machine.execPauseRepeat a s
  | .ethTxFrame a b c => Sys2Proof.Machine.execEthTxFrame a b c s
  | .ethLinkUp a b c => Sys2Proof.Machine.execEthLinkUp a b c s
  | .ethLinkDown a b => Sys2Proof.Machine.execEthLinkDown a b s
  | .mdioCmd a b => Sys2Proof.Machine.execMdioCmd a b s
  | .mdioDone a b => Sys2Proof.Machine.execMdioDone a b s
  | .nicTxTailWrite a b c d e => Sys2Proof.Machine.execNicTxTailWrite a b c d e s
  | .nicFrameRx a b c d => Sys2Proof.Machine.execNicFrameRx a b c d s
  | .rxIrqTimer a b c => Sys2Proof.Machine.execRxIrqTimer a b c s
  | .timestampEventRx a b => Sys2Proof.Machine.execTimestampEventRx a b s
  | .timestampTimeout a b c d => Sys2Proof.Machine.execTimestampTimeout a b c d s
  | .nicRingCfgWrite a b c d e f => Sys2Proof.Machine.execNicRingCfgWrite a b c d e f s
  | .bayEnable a => Sys2Proof.Machine.execBayEnable a s
  | .bayDisable a => Sys2Proof.Machine.execBayDisable a s
  | .perstRelease a => Sys2Proof.Machine.execPerstRelease a s
  | .pcieLinkUp a b c d => Sys2Proof.Machine.execPcieLinkUp a b c d s
  | .pcieLinkDown a => Sys2Proof.Machine.execPcieLinkDown a s
  | .pcieRetrainTimer a => Sys2Proof.Machine.execPcieRetrainTimer a s
  | .pciePerstWrite a b => Sys2Proof.Machine.execPciePerstWrite a b s
  | .pcieHotReset a => Sys2Proof.Machine.execPcieHotReset a s
  | .pcieRetrain a => Sys2Proof.Machine.execPcieRetrain a s
  | .configCrsRetry a b c => Sys2Proof.Machine.execConfigCrsRetry a b c s
  | .deviceCompletionTimeout a b => Sys2Proof.Machine.execDeviceCompletionTimeout a b s
  | .deviceMemoryRequest a b c => Sys2Proof.Machine.execDeviceMemoryRequest a b c s
  | .ccToggle a => Sys2Proof.Machine.execCcToggle a s
  | .ccAttach a => Sys2Proof.Machine.execCcAttach a s
  | .ccDetach a => Sys2Proof.Machine.execCcDetach a s
  | .sinkDisconnect a => Sys2Proof.Machine.execSinkDisconnect a s
  | .vbusOnTimeout a => Sys2Proof.Machine.execVbusOnTimeout a s
  | .sourceCapsSend a b c => Sys2Proof.Machine.execSourceCapsSend a b c s
  | .pdRequestRx a b c d e f => Sys2Proof.Machine.execPdRequestRx a b c d e f s
  | .senderResponseTimeout a => Sys2Proof.Machine.execSenderResponseTimeout a s
  | .srcTransitionExpiry a => Sys2Proof.Machine.execSrcTransitionExpiry a s
  | .psRdySend a => Sys2Proof.Machine.execPsRdySend a s
  | .ppsTimeout a => Sys2Proof.Machine.execPpsTimeout a s
  | .pdEprModeRx a b => Sys2Proof.Machine.execPdEprModeRx a b s
  | .eprKeepaliveTimeout a => Sys2Proof.Machine.execEprKeepaliveTimeout a s
  | .pdPrSwapRx a b => Sys2Proof.Machine.execPdPrSwapRx a b s
  | .pdDrSwapRx a => Sys2Proof.Machine.execPdDrSwapRx a s
  | .pdVconnSwapRx a b => Sys2Proof.Machine.execPdVconnSwapRx a b s
  | .pdHardResetRx a => Sys2Proof.Machine.execPdHardResetRx a s
  | .pdSourceCapsRx a b c d => Sys2Proof.Machine.execPdSourceCapsRx a b c d s
  | .pdPsRdyRx a => Sys2Proof.Machine.execPdPsRdyRx a s
  | .swapPsRdyTimeout a => Sys2Proof.Machine.execSwapPsRdyTimeout a s
  | .sinktxWaitEnd a => Sys2Proof.Machine.execSinktxWaitEnd a s
  | .vconnOvercurrent a => Sys2Proof.Machine.execVconnOvercurrent a s
  | .pdVdmRx a b c => Sys2Proof.Machine.execPdVdmRx a b c s
  | .srcRecoverExpiry a => Sys2Proof.Machine.execSrcRecoverExpiry a s
  | .moistureMeasure a b c d e f => Sys2Proof.Machine.execMoistureMeasure a b c d e f s
  | .dryWaitMeasure a b c d => Sys2Proof.Machine.execDryWaitMeasure a b c d s
  | .hookTimeout a => Sys2Proof.Machine.execHookTimeout a s
  | .tcErrRecovery a => Sys2Proof.Machine.execTcErrRecovery a s
  | .tcExitAlt a => Sys2Proof.Machine.execTcExitAlt a s
  | .tcPrSwap a b => Sys2Proof.Machine.execTcPrSwap a b s
  | .tcVconnSwap a => Sys2Proof.Machine.execTcVconnSwap a s
  | .tcHardReset a => Sys2Proof.Machine.execTcHardReset a s
  | .tcRenegotiate a => Sys2Proof.Machine.execTcRenegotiate a s
  | .feedForward a => Sys2Proof.Machine.execFeedForward a s
  | .feedReverse a => Sys2Proof.Machine.execFeedReverse a s
  | .feedLow a b => Sys2Proof.Machine.execFeedLow a b s
  | .feedRecover a => Sys2Proof.Machine.execFeedRecover a s
  | .efuseWaitExpiry => Sys2Proof.Machine.execEfuseWaitExpiry s
  | .prechargeDone => Sys2Proof.Machine.execPrechargeDone s
  | .prechargeTimeout => Sys2Proof.Machine.execPrechargeTimeout s
  | .gateEnhanced => Sys2Proof.Machine.execGateEnhanced s
  | .pgDeglitchDone => Sys2Proof.Machine.execPgDeglitchDone s
  | .limitStart => Sys2Proof.Machine.execLimitStart s
  | .limitEnd => Sys2Proof.Machine.execLimitEnd s
  | .faultTimerExpiry a => Sys2Proof.Machine.execFaultTimerExpiry a s
  | .fastTrip a => Sys2Proof.Machine.execFastTrip a s
  | .pgWindowExit => Sys2Proof.Machine.execPgWindowExit s
  | .cooldownEnd => Sys2Proof.Machine.execCooldownEnd s
  | .efClr => Sys2Proof.Machine.execEfClr s
  | .efOffWrite a => Sys2Proof.Machine.execEfOffWrite a s
  | .efuseOv => Sys2Proof.Machine.execEfuseOv s
  | .efuseOvRecover => Sys2Proof.Machine.execEfuseOvRecover s
  | .companionThermalShutdown => Sys2Proof.Machine.execCompanionThermalShutdown s
  | .companionThermalRecover => Sys2Proof.Machine.execCompanionThermalRecover s
  | .baySwitchTrip a b => Sys2Proof.Machine.execBaySwitchTrip a b s
  | .dischargeDone a => Sys2Proof.Machine.execDischargeDone a s
  | .dischargeFail a => Sys2Proof.Machine.execDischargeFail a s
  | .vbusTrimStep a b => Sys2Proof.Machine.execVbusTrimStep a b s
  | .vbsTrimWrite a b => Sys2Proof.Machine.execVbsTrimWrite a b s
  | .engineWatchdogExpiry a => Sys2Proof.Machine.execEngineWatchdogExpiry a s
  | .engineRestart a => Sys2Proof.Machine.execEngineRestart a s
  | .engineRestartComplete a b => Sys2Proof.Machine.execEngineRestartComplete a b s
  | .mailboxClaim a b => Sys2Proof.Machine.execMailboxClaim a b s
  | .mailboxRelease a => Sys2Proof.Machine.execMailboxRelease a s
  | .mailboxOwnTimeout a => Sys2Proof.Machine.execMailboxOwnTimeout a s
  | .getInfo a b c => Sys2Proof.Machine.execGetInfo a b c s
  | .loadTiming a b c d => Sys2Proof.Machine.execLoadTiming a b c d s
  | .loadWindow a b c d e f => Sys2Proof.Machine.execLoadWindow a b c d e f s
  | .loadFreeze a b c d => Sys2Proof.Machine.execLoadFreeze a b c d s
  | .updBegin a b c d e => Sys2Proof.Machine.execUpdBegin a b c d e s
  | .updData a b c d e => Sys2Proof.Machine.execUpdData a b c d e s
  | .updVerify a b c => Sys2Proof.Machine.execUpdVerify a b c s
  | .updCommit a b c => Sys2Proof.Machine.execUpdCommit a b c s
  | .updAbort a b c => Sys2Proof.Machine.execUpdAbort a b c s
  | .confirm a b c => Sys2Proof.Machine.execConfirm a b c s
  | .profilePin a b c d => Sys2Proof.Machine.execProfilePin a b c d s
  | .updateIdleTimeout => Sys2Proof.Machine.execUpdateIdleTimeout s
  | .curveLoad a => Sys2Proof.Machine.execCurveLoad a s
  | .keyWrite a b c d e f g => Sys2Proof.Machine.execKeyWrite a b c d e f g s
  | .keyDerive a b c d e f g h => Sys2Proof.Machine.execKeyDerive a b c d e f g h s
  | .keyInvalidate a b c d => Sys2Proof.Machine.execKeyInvalidate a b c d s
  | .keyMac a b c d e => Sys2Proof.Machine.execKeyMac a b c d e s
  | .keyUpdate a b c d => Sys2Proof.Machine.execKeyUpdate a b c d s
  | .gateClose a b c => Sys2Proof.Machine.execGateClose a b c s
  | .attest a b c d => Sys2Proof.Machine.execAttest a b c d s
  | .lrdGateClose => Sys2Proof.Machine.execLrdGateClose s
  | .kxHelloRx a b => Sys2Proof.Machine.execKxHelloRx a b s
  | .kxConfirmRx a b => Sys2Proof.Machine.execKxConfirmRx a b s
  | .kxTimeout a => Sys2Proof.Machine.execKxTimeout a s
  | .hopMacRx a b => Sys2Proof.Machine.execHopMacRx a b s
  | .hopMacTimeout a => Sys2Proof.Machine.execHopMacTimeout a s
  | .remask => Sys2Proof.Machine.execRemask s
  | .trimEnter a => Sys2Proof.Machine.execTrimEnter a s
  | .trimExit a => Sys2Proof.Machine.execTrimExit a s
  | .pwsSleepRequest a => Sys2Proof.Machine.execPwsSleepRequest a s
  | .watchSample a => Sys2Proof.Machine.execWatchSample a s
  | .wakeFromP2 a b c d e => Sys2Proof.Machine.execWakeFromP2 a b c d e s
  | .wakeFromP3 a b c d e f g h => Sys2Proof.Machine.execWakeFromP3 a b c d e f g h s
  | .osc32Trim a => Sys2Proof.Machine.execOsc32Trim a s
  | .avsInterval a b => Sys2Proof.Machine.execAvsInterval a b s
  | .timingGuard => Sys2Proof.Machine.execTimingGuard s
  | .frqSetWrite a b => Sys2Proof.Machine.execFrqSetWrite a b s
  | .avsSetWrite a b => Sys2Proof.Machine.execAvsSetWrite a b s
  | .frqEnvWrite a b => Sys2Proof.Machine.execFrqEnvWrite a b s
  | .avsEnvWrite a b => Sys2Proof.Machine.execAvsEnvWrite a b s
  | .padRelease => Sys2Proof.Machine.execPadRelease s
  | .eventHoldExpiry a => Sys2Proof.Machine.execEventHoldExpiry a s
  | .pageEventCellRx a b => Sys2Proof.Machine.execPageEventCellRx a b s
  | .timerEnable a b => Sys2Proof.Machine.execTimerEnable a b s
  | .timerExpiry a => Sys2Proof.Machine.execTimerExpiry a s
  | .resetRelease a b c d e => Sys2Proof.Machine.execResetRelease a b c d e s
  | .thermalWarning a b => Sys2Proof.Machine.execThermalWarning a b s
  | .hostPerst a => Sys2Proof.Machine.execHostPerst a s
  | .usbDeviceConnect a b => Sys2Proof.Machine.execUsbDeviceConnect a b s
  | .transferComplete a b c d e f g => Sys2Proof.Machine.execTransferComplete a b c d e f g s
  | .disableSlot a b c d => Sys2Proof.Machine.execDisableSlot a b c d s
  | .hostControllerReset a => Sys2Proof.Machine.execHostControllerReset a s
  | .pauseTimerExpiry a => Sys2Proof.Machine.execPauseTimerExpiry a s
  | .errorRecoveryEnd a => Sys2Proof.Machine.execErrorRecoveryEnd a s
  | .ccTerminationChange a b c => Sys2Proof.Machine.execCcTerminationChange a b c s
  | .trunkCcTerminationChange a b => Sys2Proof.Machine.execTrunkCcTerminationChange a b s
  | .pdResponseRx a b => Sys2Proof.Machine.execPdResponseRx a b s
  | .eprKeepaliveRx a => Sys2Proof.Machine.execEprKeepaliveRx a s
  | .deviceCompletionRx a b c d => Sys2Proof.Machine.execDeviceCompletionRx a b c d s
  | .hostCompletionRx a b c => Sys2Proof.Machine.execHostCompletionRx a b c s

end Sys2Proof.Machine
end

