-- ==== Sys2Proof/Safety.lean ====
section
/-!
DEFINITION. Sys2Proof/Safety.lean: the predicates that the statements speak of: the invariants of the part, what it means that nothing is left for the part to do by itself, and the
bytes and fields that frames compare.
-/
namespace Sys2Proof.Machine

open Sys2Proof

/-- Nothing is left that the part does by itself after a command: no cell waits for a buffer, no group was cut, no page event is due. -/
def State.quiet (s : State) : Prop := s.gran.waiting = [] ∧ s.gran.cuts = [] ∧ s.evt.fresh = []

/-- INT_N while the main die runs with its pads released, and in a reset (R463, R448): low exactly when EVT_CFG.int_en is 1 and a present page with route bit 0 is pending. -/
def State.intWf (s : State) : Prop :=
  (s.life = .running → s.on Pg.glb GLB.GLB_STAT_pads_held = false → s.intN = s.intLow) ∧ (s.life = .inReset → s.intN = false)

/-- Every register field, every counter snapshot and every structure of the part but the queue of commands is as before. -/
def State.sameBut (s t : State) : Prop := { t with pending := s.pending } = s

/-- A message cell that arrived on a port reaches the core: its hop count is legal (R65) and the hop's filter admits it (R94). -/
def State.hears (s : State) (p : Port) (c : Cell) : Bool := c.hops ≤ 62 && (!s.standbyHop p || standbyAdmits c)

/-- The state in which the core consumes a message cell that arrived on a port: what the cell tells of the hubs beyond is noted, and the forwarded copy of R126 is made. -/
def State.copied (s : State) (p : Port) (c : Cell) : State :=
  let s := s.noteBelow p c
  if (s.transitPort p c).isSome then s.forwardMsg p c else s

/-- A field counts up by one and saturates. -/
def State.counted (s t : State) (p : Nat) (f : Fld) : Prop := t.rd p f = min (s.rd p f + 1) (2 ^ f.width - 1)

/-- An event of a page is set. -/
def State.raised (s : State) (p : Nat) (e : Ev) : Prop := s.rd p (HDR.raw e.bit) = 1

/-- A hub has lost its home and kept its address (R108, R105). -/
def State.lostHome (s t : State) : Prop :=
  t.rd Pg.chn CHN.CHN_STAT_home_state = 2 ∧ t.addr = s.addr ∧ t.raised Pg.chn CHN.ev_home_lost ∧ t.on Pg.ctim CTIM.CTIM_STAT_free = true ∧ t.chain.hbSeen = false

/-- VHG_CMD with go is taken at a head that runs no command: its fields, the VHC, and busy (R217). -/
def State.vhgTaken (s : State) (op w : Nat) : State :=
  ((((((s.wr Pg.vhg VHG.VHG_CMD_op op).wr Pg.vhg VHG.VHG_CMD_vhc (bitsOf w 21 16)).wr Pg.vhg VHG.VHG_CMD_func (bitsOf w 11 8)).wr Pg.vhg VHG.VHG_CMD_ctx_load (bitOf w 1)).wr
    Pg.vhg VHG.VHG_CMD_snapshot (bitOf w 0)).wr Pg.vhg VHG.VHG_STAT_vhc (bitsOf w 21 16)).wr Pg.vhg VHG.VHG_STAT_busy 1

/-- A VHG command has ended with a result (R217, R232). -/
def State.vhgDone (s : State) (code : Nat) : Prop :=
  s.rd Pg.vhg VHG.VHG_STAT_result = code ∧ s.on Pg.vhg VHG.VHG_STAT_busy = false ∧ s.raised Pg.vhg (if code = 0 then VHG.ev_cmd_done else VHG.ev_refused)

/-- Two states agree on every register field that a test does not name. -/
def State.regsAgree (s t : State) (but : Nat → Fld → Prop) : Prop := ∀ p f, ¬ but p f → t.rd p f = s.rd p f

end Sys2Proof.Machine
end

