-- ==== Sys2Proof/WellFormed.lean ====
section
/-!
DEFINITION. Sys2Proof/WellFormed.lean: which commands a sender can form: numbers that fit what carries them, cells whose fields fit the header of R62 and R63, frames of their length.
The model gives every command a meaning, well-formed or not; a number that is too large is cut where a field takes it.
-/
namespace Sys2Proof

/-- A number fits a width. -/
def fitsBits (k n : Nat) : Bool := decide (n < 2 ^ k)

/-- The fields of a cell fit the header's (R62, R63). -/
def Cell.wf (c : Cell) : Bool :=
  fitsBits 4 c.ctype && fitsBits 2 c.cls && fitsBits 6 c.dhub && fitsBits 4 c.dport && fitsBits 6 c.shub && fitsBits 4 c.sport && fitsBits 12 c.tunnel && fitsBits 16 c.tseq &&
    fitsBits 6 c.vhc && fitsBits 8 c.gen && fitsBits 12 c.tag && fitsBits 12 c.lseq && fitsBits 6 c.hops && fitsBits 32 c.e2e && c.pad.length ≤ 256

/-- A string of bytes is no longer than the largest image in the flash (R388). -/
def bytesOk (l : List Byte) : Bool := decide (l.length ≤ 2 ^ 25)

/-- A sideband frame carries bytes 1 to 6 (R36). -/
def SbFrame.wf (f : SbFrame) : Bool := decide (f.bytes.length = 6)

/-- A command that can be formed. -/
def Instr.wf : Instr → Bool
  | .registerWrite _ addr be data => fitsBits 64 addr && fitsBits 4 be && fitsBits 32 data
  | .rcFieldRead _ addr be => fitsBits 64 addr && fitsBits 4 be
  | .timeLoRead _ => true
  | .frameTLoRead _ _ => true
  | .pfqData2Read _ => true
  | .blockReset p => fitsBits 64 p
  | .counterSnapshot p _ => fitsBits 64 p
  | .pageLock p => fitsBits 64 p
  | .eventSet p w => fitsBits 64 p && fitsBits 32 w
  | .powerOnReset => true
  | .pinReset => true
  | .commandReset _ => true
  | .watchdogReset => true
  | .thermalReset => true
  | .clockReset => true
  | .bootComplete _ => true
  | .companionPowerOn => true
  | .companionPowerOff => true
  | .companionLinkLost => true
  | .companionLinkRestored => true
  | .portEnable _ => true
  | .portDisable _ => true
  | .portHoldDown _ _ => true
  | .portRenego _ => true
  | .portRetrain _ => true
  | .mediaAutoTimeout _ _ => true
  | .trunkCcToggle _ => true
  | .trunkCcAttach _ => true
  | .trunkCcDetach _ => true
  | .enterNegotiate _ _ => true
  | .hopPageSend _ => true
  | .hopPageRx _ f => f.wf
  | .hopAckSend _ => true
  | .hopAckRx _ f => f.wf
  | .keepaliveSend _ => true
  | .keepaliveRx _ f => f.wf
  | .sidebandLost _ => true
  | .inbandNegotiate _ => true
  | .trainingFrameRx _ page ack => bytesOk page && bytesOk ack
  | .ffeRequestRx _ _ pre post => fitsBits 64 pre && fitsBits 64 post
  | .trainingConverged _ => true
  | .trainingTimeout _ => true
  | .trainFailRetry _ => true
  | .p1Attempt _ => true
  | .p1Aligned _ _ serial beyond => fitsBits 64 serial && fitsBits 64 beyond
  | .linkUp _ => true
  | .eqSetpointWrite _ off v => fitsBits 64 off && fitsBits 32 v
  | .eqEnvelopeWrite _ off v => fitsBits 64 off && fitsBits 32 v
  | .laneLost _ _ cause => fitsBits 64 cause
  | .laneNoticeRx _ delims bytes => (SbFrame.mk delims bytes).wf
  | .laneReady _ _ => true
  | .uncorrectableLimit _ n => fitsBits 64 n
  | .recoverRx _ f => f.all SbFrame.wf
  | .recoverComplete _ => true
  | .recoverTimeout _ => true
  | .linkLoss _ cause => fitsBits 64 cause
  | .downNoticeRx a => a.frame.wf
  | .negotiateTimeout _ => true
  | .downStateExpiry _ => true
  | .sleepNoticeRx _ f => f.wf
  | .beaconSend _ => true
  | .beaconAnswered _ => true
  | .beaconTimeout _ => true
  | .cellRx _ raw => raw.all bytesOk
  | .statusBlockRx _ w0 ts echo hold => fitsBits 64 w0 && fitsBits 64 ts && fitsBits 64 echo && fitsBits 64 hold
  | .creditBlockRx _ _ => true
  | .statusSend _ => true
  | .replayTimerExpiry _ => true
  | .statusTimeout _ => true
  | .retrainReqRx r => fitsBits 8 r.cause
  | .crdCfgWrite _ v => fitsBits 32 v
  | .slotTransmit _ _ => true
  | .localEgressDequeue _ _ => true
  | .reseqTimeout tunnel shub dhub half => fitsBits 64 tunnel && fitsBits 64 shub && fitsBits 64 dhub && fitsBits 64 half
  | .queuePointerMismatch q cause => fitsBits 64 q && fitsBits 64 cause
  | .gleanerSweepStep => true
  | .gleanerPassEnd => true
  | .gleanerFullPass => true
  | .accountLimitsWrite a v => fitsBits 64 a && fitsBits 32 v
  | .reserveWrite a v => fitsBits 64 a && fitsBits 32 v
  | .placementLoop => true
  | .epochBoundary rdWait wrWait busy _ => fitsBits 64 rdWait && fitsBits 64 wrWait && fitsBits 64 busy
  | .hbMiss => true
  | .hbFirstTimeout => true
  | .heartbeatRx _ c => c.wf
  | .homeLostRx _ c => c.wf
  | .rehomeRx _ c => c.wf
  | .rehomeAckRx _ c => c.wf
  | .enumRx _ c => c.wf
  | .enumReplyRx _ c => c.wf
  | .enumResend _ => true
  | .standbyHelloRx _ c => c.wf
  | .tdUpSend => true
  | .tdUpRx _ c => c.wf
  | .timeCellRx _ c => c.wf
  | .ctimSetGo => true
  | .handoverRequest _ => true
  | .arbitrationWindowEnd => true
  | .handoverReqRx _ c => c.wf
  | .handoverGoRx _ c => c.wf
  | .handoverAtTGo => true
  | .handoverNakRx _ c => c.wf
  | .dyingGaspRepeat => true
  | .dyingGaspRx _ c => c.wf
  | .cmdPing v => fitsBits 32 v
  | .cmdSleepP2 v => fitsBits 32 v
  | .cmdSleepP3 v => fitsBits 32 v
  | .cmdSetEpoch v => fitsBits 32 v
  | .cmdHubReset v => fitsBits 32 v
  | .cmdReenum v => fitsBits 32 v
  | .cmdRx _ c => c.wf
  | .cmdAckRx _ c => c.wf
  | .cmdTimeout => true
  | .cancelRx _ c => c.wf
  | .setEpochApply => true
  | .reenumApply => true
  | .sleepEntry _ => true
  | .tunRead => true
  | .tunWrite => true
  | .tunDelete => true
  | .tunWriteParams => true
  | .tunnelEntryMsgRx _ c => c.wf
  | .tunnelEntryAnswerRx _ c => c.wf
  | .tunnelEntryResend => true
  | .tunnelDeleteWaitEnd => true
  | .demandReportRx _ _ l => bytesOk l
  | .linkReportRx _ c => c.wf
  | .allotterCompute _ => true
  | .allotmentTableRx _ m => bytesOk m.bytes
  | .altCfgWrite v => fitsBits 32 v
  | .hopFactorWrite v => fitsBits 32 v
  | .tRequestRx _ _ d => d.cell.wf
  | .completionRx d => d.cell.wf
  | .completionTimeout _ _ tag => fitsBits 16 tag
  | .quarantineExpiry _ _ tag => fitsBits 16 tag
  | .slowTargetRetry _ tag => fitsBits 16 tag
  | .delayedOpComplete _ => true
  | .slotDiscardExpiry _ => true
  | .headReissue _ tag => fitsBits 16 tag
  | .windowReadLimit _ _ => true
  | .errorEventRx _ c => c.wf
  | .quotaWrite v => fitsBits 32 v
  | .erlClr => true
  | .pxInboundCycle => true
  | .pxCycleEnd ad => fitsBits 16 ad
  | .pxTimeout => true
  | .externalMasterCycle _ addr _ data => fitsBits 64 addr && fitsBits 32 data
  | .masterRetry => true
  | .pxint => true
  | .hostMmioRequest _ _ _ off len data => fitsBits 64 off && fitsBits 64 len && bytesOk data
  | .vhcCreate w numVfs => fitsBits 32 w && fitsBits 64 numVfs
  | .vhcAddFunc w => fitsBits 32 w
  | .vhcRemoveFunc w => fitsBits 32 w
  | .vhcDisable w => fitsBits 32 w
  | .vhcEnable w => fitsBits 32 w
  | .vhcFreeze w => fitsBits 32 w
  | .vhcThaw w => fitsBits 32 w
  | .vhcSave w => fitsBits 32 w
  | .vhcRestore w _ => fitsBits 32 w
  | .vhcDestroy w => fitsBits 32 w
  | .vhgBadOp w => fitsBits 32 w
  | .vfFlr _ => true
  | .vfEnableClear => true
  | .drainComplete _ => true
  | .drainTimeout _ => true
  | .genSetRx _ c _ => c.wf
  | .genClearRx _ c => c.wf
  | .genQueryRx _ c => c.wf
  | .freezeFnRx _ c => c.wf
  | .genAnswerRx _ c => c.wf
  | .genMessageResend seq => fitsBits 32 seq
  | .interruptEventRx _ c => c.wf
  | .fenceRelease _ => true
  | .saveComplete _ _ ctxs => bytesOk ctxs
  | .restoreComplete _ => true
  | .eqCfgWrite _ w => fitsBits 32 w
  | .prTailWrite _ _ tail _ => fitsBits 64 tail
  | .prCfgWrite _ _ w => fitsBits 32 w
  | .encodeSubsetStart _ _ => true
  | .pixelFetchComplete _ _ _ _ => true
  | .tileCellRx _ _ c => c.wf
  | .stagingTimeout _ => true
  | .tileRowCommit _ => true
  | .presentDoneRx _ c => c.wf
  | .loftAllocate w => fitsBits 32 w
  | .loftFree w => fitsBits 32 w
  | .decodeTileRow _ _ => true
  | .frameStart _ => true
  | .dispRun _ => true
  | .dispStop _ => true
  | .dispRetrain _ _ => true
  | .edidRead _ _ => true
  | .hpdPlug _ _ => true
  | .hpdIrq _ _ => true
  | .hpdUnplug _ => true
  | .linkTrainingDone _ _ _ => true
  | .trimWrite _ v => fitsBits 32 v
  | .windowSignature _ _ => true
  | .windowCfgWrite _ _ _ v => fitsBits 32 v
  | .windowCapture _ _ => true
  | .freezeClear _ v => fitsBits 32 v
  | .presentWatchdogExpiry _ => true
  | .portscPpWrite _ _ _ => true
  | .configureEndpoint _ t slot port _ _ _ _ => fitsBits 64 t && fitsBits 64 slot && fitsBits 64 port
  | .stopEndpoint _ t slot dci _ _ _ => fitsBits 64 t && fitsBits 64 slot && fitsBits 64 dci
  | .resetDevice _ t slot _ _ => fitsBits 64 t && fitsBits 64 slot
  | .doorbellWrite _ t slot dci _ => fitsBits 64 t && fitsBits 64 slot && fitsBits 64 dci
  | .usbPortReset _ t _ _ => fitsBits 64 t
  | .usbDisconnect _ t _ _ => fitsBits 64 t
  | .stallRx _ t slot dci _ => fitsBits 64 t && fitsBits 64 slot && fitsBits 64 dci
  | .memoryRequestFailure _ t _ slot dci _ => fitsBits 64 t && fitsBits 64 slot && fitsBits 64 dci
  | .isoIntervalStart _ t _ _ _ => fitsBits 64 t
  | .isoStagingRx _ c _ => c.wf
  | .isoAckRx _ t c => fitsBits 64 t && c.wf
  | .isoAckTimeout _ t k => fitsBits 64 t && fitsBits 64 k
  | .isoOutDataRx _ c => c.wf
  | .hostResumeWrite _ _ => true
  | .deviceRemoteWake _ _ => true
  | .svcAttach => true
  | .svcDetach => true
  | .svcBusReset _ => true
  | .svcSuspend => true
  | .svcResume => true
  | .svcControlRequest setup _ => bytesOk setup
  | .svcBulkOut seq _ => fitsBits 32 seq
  | .ethRxFrame _ frame _ nic => bytesOk frame && fitsBits 64 nic
  | .pauseRepeat _ => true
  | .ethTxFrame _ _ c => c.wf
  | .ethLinkUp _ _ _ => true
  | .ethLinkDown _ _ => true
  | .mdioCmd _ w => fitsBits 32 w
  | .mdioDone _ data => fitsBits 32 data
  | .nicTxTailWrite _ _ _ tail _ => fitsBits 64 tail
  | .nicFrameRx _ _ c _ => c.wf
  | .rxIrqTimer _ _ _ => true
  | .timestampEventRx _ c => c.wf
  | .timestampTimeout _ _ _ idx => fitsBits 64 idx
  | .nicRingCfgWrite _ _ _ _ _ w => fitsBits 32 w
  | .bayEnable _ => true
  | .bayDisable _ => true
  | .perstRelease _ => true
  | .pcieLinkUp _ gen width _ => fitsBits 64 gen && fitsBits 64 width
  | .pcieLinkDown _ => true
  | .pcieRetrainTimer _ => true
  | .pciePerstWrite _ _ => true
  | .pcieHotReset _ => true
  | .pcieRetrain _ => true
  | .configCrsRetry _ id _ => fitsBits 64 id
  | .deviceCompletionTimeout _ id => fitsBits 64 id
  | .deviceMemoryRequest _ t _ => fitsBits 64 t
  | .ccToggle _ => true
  | .ccAttach _ => true
  | .ccDetach _ => true
  | .sinkDisconnect _ => true
  | .vbusOnTimeout _ => true
  | .sourceCapsSend _ _ _ => true
  | .pdRequestRx _ _ pos v i _ => fitsBits 64 pos && fitsBits 32 v && fitsBits 64 i
  | .senderResponseTimeout _ => true
  | .srcTransitionExpiry _ => true
  | .psRdySend _ => true
  | .ppsTimeout _ => true
  | .pdEprModeRx _ _ => true
  | .eprKeepaliveTimeout _ => true
  | .pdPrSwapRx _ _ => true
  | .pdDrSwapRx _ => true
  | .pdVconnSwapRx _ _ => true
  | .pdHardResetRx _ => true
  | .pdSourceCapsRx _ _ _ _ => true
  | .pdPsRdyRx _ => true
  | .swapPsRdyTimeout _ => true
  | .sinktxWaitEnd _ => true
  | .vconnOvercurrent _ => true
  | .pdVdmRx _ _ _ => true
  | .srcRecoverExpiry _ => true
  | .moistureMeasure _ _ cc sbu _ _ => fitsBits 64 cc && fitsBits 64 sbu
  | .dryWaitMeasure _ cc sbu _ => fitsBits 64 cc && fitsBits 64 sbu
  | .hookTimeout _ => true
  | .tcErrRecovery _ => true
  | .tcExitAlt _ => true
  | .tcPrSwap _ _ => true
  | .tcVconnSwap _ => true
  | .tcHardReset _ => true
  | .tcRenegotiate _ => true
  | .feedForward _ => true
  | .feedReverse _ => true
  | .feedLow _ _ => true
  | .feedRecover _ => true
  | .efuseWaitExpiry => true
  | .prechargeDone => true
  | .prechargeTimeout => true
  | .gateEnhanced => true
  | .pgDeglitchDone => true
  | .limitStart => true
  | .limitEnd => true
  | .faultTimerExpiry e => fitsBits 64 e
  | .fastTrip e => fitsBits 64 e
  | .pgWindowExit => true
  | .cooldownEnd => true
  | .efClr => true
  | .efOffWrite _ => true
  | .efuseOv => true
  | .efuseOvRecover => true
  | .companionThermalShutdown => true
  | .companionThermalRecover => true
  | .baySwitchTrip _ _ => true
  | .dischargeDone _ => true
  | .dischargeFail _ => true
  | .vbusTrimStep _ _ => true
  | .vbsTrimWrite _ v => fitsBits 32 v
  | .engineWatchdogExpiry _ => true
  | .engineRestart _ => true
  | .engineRestartComplete _ _ => true
  | .mailboxClaim _ _ => true
  | .mailboxRelease _ => true
  | .mailboxOwnTimeout _ => true
  | .getInfo _ _ seq => fitsBits 32 seq
  | .loadTiming _ _ seq id => fitsBits 32 seq && fitsBits 64 id
  | .loadWindow _ _ seq w id _ => fitsBits 32 seq && fitsBits 32 w && fitsBits 64 id
  | .loadFreeze _ _ seq id => fitsBits 32 seq && fitsBits 64 id
  | .updBegin _ _ seq kind size => fitsBits 32 seq && fitsBits 64 kind && fitsBits 64 size
  | .updData _ _ seq off d => fitsBits 32 seq && fitsBits 64 off && bytesOk d
  | .updVerify _ _ seq => fitsBits 32 seq
  | .updCommit _ _ seq => fitsBits 32 seq
  | .updAbort _ _ seq => fitsBits 32 seq
  | .confirm _ _ seq => fitsBits 32 seq
  | .profilePin _ _ seq id => fitsBits 32 seq && fitsBits 64 id
  | .updateIdleTimeout => true
  | .curveLoad _ => true
  | .keyWrite _ _ seq slot use _ key => fitsBits 32 seq && fitsBits 64 slot && fitsBits 64 use && bytesOk key
  | .keyDerive _ _ seq slot parent use label context => fitsBits 32 seq && fitsBits 64 slot && fitsBits 64 parent && fitsBits 64 use && bytesOk label && bytesOk context
  | .keyInvalidate _ _ seq slot => fitsBits 32 seq && fitsBits 64 slot
  | .keyMac _ _ seq slot d => fitsBits 32 seq && fitsBits 64 slot && bytesOk d
  | .keyUpdate _ _ seq m => fitsBits 32 seq && bytesOk m
  | .gateClose _ _ seq => fitsBits 32 seq
  | .attest _ _ seq nonce => fitsBits 32 seq && bytesOk nonce
  | .lrdGateClose => true
  | .kxHelloRx _ payload => bytesOk payload
  | .kxConfirmRx _ payload => bytesOk payload
  | .kxTimeout _ => true
  | .hopMacRx _ payload => bytesOk payload
  | .hopMacTimeout _ => true
  | .remask => true
  | .trimEnter _ => true
  | .trimExit _ => true
  | .pwsSleepRequest v => fitsBits 32 v
  | .watchSample _ => true
  | .wakeFromP2 _ _ _ periods us => fitsBits 64 periods && fitsBits 64 us
  | .wakeFromP3 _ _ _ _ _ _ periods us => fitsBits 64 periods && fitsBits 64 us
  | .osc32Trim _ => true
  | .avsInterval _ _ => true
  | .timingGuard => true
  | .frqSetWrite v _ => fitsBits 32 v
  | .avsSetWrite v _ => fitsBits 32 v
  | .frqEnvWrite v _ => fitsBits 32 v
  | .avsEnvWrite v _ => fitsBits 32 v
  | .padRelease => true
  | .eventHoldExpiry page => fitsBits 64 page
  | .pageEventCellRx _ c => c.wf
  | .timerEnable _ v => fitsBits 32 v
  | .timerExpiry _ => true
  | .resetRelease _ _ _ _ tj => fitsBits 64 tj
  | .thermalWarning _ temp => fitsBits 64 temp
  | .hostPerst _ => true
  | .usbDeviceConnect _ _ => true
  | .transferComplete _ t slot dci _ _ _ => fitsBits 64 t && fitsBits 64 slot && fitsBits 64 dci
  | .disableSlot _ t slot _ => fitsBits 64 t && fitsBits 64 slot
  | .hostControllerReset _ => true
  | .pauseTimerExpiry _ => true
  | .errorRecoveryEnd _ => true
  | .ccTerminationChange _ _ _ => true
  | .trunkCcTerminationChange _ line => fitsBits 64 line
  | .pdResponseRx _ _ => true
  | .eprKeepaliveRx _ => true
  | .deviceCompletionRx _ id _ data => fitsBits 64 id && bytesOk data
  | .hostCompletionRx tag st data => fitsBits 16 tag && fitsBits 64 st && bytesOk data

end Sys2Proof
end

