-- ==== Sys2Proof/Certificates/Slice0/Obligations.lean ====
section
/-!
DEFINITION. Sys2Proof/Certificates/Slice0/Obligations.lean: the statements for the provers. A statement of what a command does has the form: exec answers the next state `s.after u`, and `u`,
the state that the command's own effect leaves, has the registers, the contexts and the output that the rules give; `AfterKeeps` and `AfterQuiet` say what `after` adds.
-/

open Sys2Proof Sys2Proof.Machine

/-- A step with a command at the front of the queue is exec of it with the queue's rest (the block's queue is the model's own). -/
def Obligations.StepRunsFront : Prop :=
  ∀ (c : Instr) (rest : List Instr) (s : State), s.pending = c :: rest → step s = exec c { s with pending := rest }

/-- Model's choice (log entry 1): a step on an empty queue is 1 µs. -/
def Obligations.IdleStepIsOneMicrosecond : Prop :=
  ∀ (s : State), s.pending = [] →
    step s = .next (s.after s.tick) ∧ s.tick = (s.advance 1000).lanesLive.curvesDue ∧ (s.elapse 1000).now = s.now + 1000 ∧
    (s.life = .running → (s.elapse 1000).chain.time = s.chain.time + 1000 ∧
      (s.elapse 1000).rd Pg.tmr TMR.TICK_tick = (s.rd Pg.tmr TMR.TICK_tick + 1) % 2 ^ 32) ∧
    (s.life ≠ .running → s.tick = { s with now := s.now + 1000 })

/-- No command stops the part, and none touches the queue of commands. -/
def Obligations.EveryCommandAnswersNext : Prop :=
  ∀ (c : Instr) (s : State), ∃ t, exec c s = .next t ∧ t.pending = s.pending

/-- R463: the interrupt pin follows the pending pages across every command. -/
def Obligations.PinFollowsPendingPages : Prop :=
  ∀ (s t : State), s.intWf → step s = .next t → t.intWf

/-- The invariant holds of the part after a power-on reset. -/
def Obligations.ResetPinReleased : Prop := State.reset.intWf ∧ State.reset.intN = false

/-- What `after` adds to a quiet state: the level of INT_N, and the output that reports a change of it. -/
def Obligations.AfterQuiet : Prop :=
  ∀ (s u : State), u.quiet →
    ∃ out, (out = [] ∨ out = [Output.pin "INT_N" (b2n (!u.intPad))]) ∧
      s.after u = { u with intN := u.intPad, outbox := u.outbox ++ out, pending := s.pending }

/-- R9, R458: EV_EN is RW in every page. -/
def Obligations.RegisterWriteEnables : Prop :=
  ∀ (s : State) (path : Path) (p w : Nat) (k : PageKind), s.life = .running → s.pathUp path = true → (∀ v, path ≠ .vfBar v) → p < 0x200 → pageKind p = some k → s.alive p = true →
    (isCompanion p = true → s.hvLink = true) → w < 2 ^ 32 →
    ∃ u, exec (.registerWrite path (4096 * p + 0x14) 15 w) s = .next (s.after u) ∧
      (∀ n ∈ k.evBits, s.lacksField p (HDR.evEn n) = false → u.rd p (HDR.evEn n) = bitOf w n) ∧
      (∀ q g, g.off < 4096 → g.lsb < 32 → ¬ (q = p ∧ g.off = 0x14) → u.rd q g = s.rd q g)

/-- R7, and R456 for the log. -/
def Obligations.MisalignedAccess : Prop :=
  ∀ (s : State) (path : Path) (addr be w : Nat), s.life = .running → s.pathUp path = true → (addr % 4 ≠ 0 ∨ be % 16 ≠ 15) →
    (let logged (u : State) (dir : Nat) : Prop := u.rd Pg.evt EVT.ACC_CNT_count = min (s.rd Pg.evt EVT.ACC_CNT_count + 1) 0xFFFF ∧ u.rd Pg.evt (HDR.raw EVT.ev_acc_err.bit) = 1 ∧
      (s.rd Pg.evt EVT.ACC_ERR_valid = 0 → u.rd Pg.evt EVT.ACC_ERR_valid = 1 ∧ u.rd Pg.evt EVT.ACC_ERR_write = dir ∧ u.rd Pg.evt EVT.ACC_ERR_src = pathSrc path ∧
        u.rd Pg.evt EVT.ACC_ERR_byte_en = be % 16 ∧ u.rd Pg.evt EVT.ACC_ERR_offset = pathOff path addr % 2 ^ 21)
     let wroteNothing (u : State) : Prop := (∀ q g, g.off < 4096 → g.lsb < 32 → ¬ (q = Pg.evt ∧ (g.off < 0x40 ∨ g.off = 0x44 ∨ g.off = 0x48)) → u.rd q g = s.rd q g) ∧
      { u with regs := s.regs, evt := s.evt, outbox := s.outbox } = s ∧ u.outbox = s.outbox ++ [.busError path addr]
     (∃ u, exec (.registerWrite path addr be w) s = .next (s.after u) ∧ wroteNothing u ∧ logged u 1) ∧
     (∃ u, exec (.rcFieldRead path addr be) s = .next (s.after u) ∧ wroteNothing u ∧ logged u 0))

/-- R11, R459 on ACC_CNT, the counter of EVT; R122, R285, R468. -/
def Obligations.ReadsWithEffects : Prop :=
  ∀ (s : State) (path : Path), s.life = .running → (path = .window ∨ path = .lmp ∨ path = .engine) →
    (s.frozen Pg.evt = false →
      ∃ u, exec (.rcFieldRead path 0x170048 15) s = .next (s.after u) ∧ u.outbox = s.outbox ++ [.busData path 0x170048 (s.rd Pg.evt EVT.ACC_CNT_count)] ∧ u.rd Pg.evt EVT.ACC_CNT_count = 0) ∧
    (s.frozen Pg.evt = true → ∀ v, Tab.find (fkey Pg.evt EVT.ACC_CNT_count) s.snap = some v →
      ∃ u, exec (.rcFieldRead path 0x170048 15) s = .next (s.after u) ∧ u.outbox = s.outbox ++ [.busData path 0x170048 v] ∧
        Tab.find (fkey Pg.evt EVT.ACC_CNT_count) u.snap = none ∧
        (s.rd Pg.evt EVT.ACC_CNT_count ≠ 0xFFFF → u.rd Pg.evt EVT.ACC_CNT_count = (s.rd Pg.evt EVT.ACC_CNT_count - v) % 2 ^ 16) ∧
        (s.rd Pg.evt EVT.ACC_CNT_count = 0xFFFF → u.rd Pg.evt EVT.ACC_CNT_count = 0xFFFF)) ∧
    (s.frozen Pg.evt = false → ∃ u, exec (.counterSnapshot Pg.evt true) s = .next (s.after u) ∧ u.frozen Pg.evt = true ∧
      ∀ n, (fkey Pg.evt EVT.ACC_CNT_count, n) ∈ s.regs → Tab.wf s.regs = true → Tab.find (fkey Pg.evt EVT.ACC_CNT_count) u.snap = some n) ∧
    (∃ u, exec (.timeLoRead path) s = .next (s.after u) ∧ u.outbox = s.outbox ++ [.busData path 0x15044 (s.chain.time % 2 ^ 32)] ∧
      u.rd Pg.ctim CTIM.TIME_HI_time_hi = s.chain.time / 2 ^ 32 % 2 ^ 32) ∧
    (∀ n : Bay, s.alive (Pg.disp n.val) = true → ∃ u, exec (.frameTLoRead path n) s = .next (s.after u) ∧ u.rd (Pg.disp n.val) DISP.FRAME_T_HI_t_hi = (s.dh n.val).frameT / 2 ^ 32 % 2 ^ 32) ∧
    (s.mode = .head → ∀ e rest, s.vhg.pfq = e :: rest → ∃ u, exec (.pfqData2Read path) s = .next (s.after u) ∧
      u.outbox = s.outbox ++ [.busData path 0x17021C (e.getD 4 0 % 2 ^ 32)] ∧ u.vhg.pfq = rest)

/-- R9, R458, R460. -/
def Obligations.LockAndEventSet : Prop :=
  ∀ (s : State), s.life = .running →
    (∀ p, s.alive p = true → (isCompanion p = true → s.hvLink = true) →
      (∃ u, exec (.pageLock p) s = .next (s.after u) ∧ u.locked p = true ∧
        ∀ q g, g.off < 4096 → g.lsb < 32 → ¬ (q = p ∧ g.off = 0x08 ∧ g.lsb = 2) → u.rd q g = s.rd q g) ∧
      (∀ w k, pageKind p = some k → ∃ u, exec (.eventSet p w) s = .next (s.after u) ∧
        (∀ n ∈ k.evBits, bitOf w n = 1 → wideField p (HDR.raw n) = false → u.rd p (HDR.raw n) = 1) ∧
        (∀ q g, g.off < 4096 → g.lsb < 32 → ¬ (q = p ∧ g.off = 0x10) → u.rd q g = s.rd q g))) ∧
    (∃ u, exec (.blockReset Pg.evt) s = .next (s.after u) ∧ u.locked Pg.evt = false ∧ (∀ n, n < 32 → u.rd Pg.evt (HDR.raw n) = 0) ∧ u.rd Pg.evt HDR.ER_CAP0_valid = 0 ∧
      u.rd Pg.evt EVT.EVT_CFG_int_en = 1 ∧ u.rd Pg.evt EVT.EVT_CFG_hold_us = 0x64 ∧ u.rd Pg.evt EVT.ACC_CNT_count = 0 ∧ u.vhg.pfq = [])

/-- R22, R361, R448, R451: the six reset kinds. -/
def Obligations.MainDieResets : Prop :=
  let left (s u : State) : Prop := u.life = .inReset ∧ u.homed = false ∧ u.addr = 63 ∧ (∀ n, n < 4 → u.vbConducts n = false) ∧
    (∀ f, f.off < 4096 → f.lsb < 32 → u.rd Pg.pwp f = s.rd Pg.pwp f) ∧
    (∀ f, f.off < 4096 → f.lsb < 32 → ¬ (f.off = HVD.HVD_STAT_link.off ∧ f.lsb = HVD.HVD_STAT_link.lsb) → u.rd Pg.hvd f = s.rd Pg.hvd f)
  let kept (s u : State) (bit : Nat) : Prop := u.rd Pg.glb GLB.RST_CAUSE_cause = (s.rd Pg.glb GLB.RST_CAUSE_cause ||| 2 ^ bit) % 64 ∧
    u.rd Pg.pws PWS.WAKE_SRC_en = s.rd Pg.pws PWS.WAKE_SRC_en ∧ u.rd Pg.pws PWS.WATCH_MARK_marks = s.rd Pg.pws PWS.WATCH_MARK_marks
  ∀ (s : State), Tab.wf s.regs = true →
    (∃ u, exec .powerOnReset s = .next (s.after u) ∧ left s u ∧ u.rd Pg.glb GLB.RST_CAUSE_cause = 1 ∧ u.rd Pg.pws PWS.WAKE_SRC_en = PWS.WAKE_SRC_en.rst ∧ u.rd Pg.pws PWS.WATCH_MARK_marks = 0) ∧
    (∃ u, exec .pinReset s = .next (s.after u) ∧ left s u ∧ kept s u 1) ∧
    (∃ u, exec .thermalReset s = .next (s.after u) ∧ left s u ∧ kept s u 4 ∧ u.pm.hot = true) ∧
    (s.life = .running →
      (∃ u, exec .watchdogReset s = .next (s.after u) ∧ left s u ∧ kept s u 3) ∧
      (∃ u, exec .clockReset s = .next (s.after u) ∧ left s u ∧ kept s u 5 ∧ u.pm.noLock = true) ∧
      (∀ w, bitsOf w 15 8 = 0xA5 → bitOf w 0 = 1 → ∃ u, exec (.commandReset (some w)) s = .next (s.after u) ∧ left s u ∧ kept s u 2) ∧
      (∀ w, bitsOf w 15 8 ≠ 0xA5 → exec (.commandReset (some w)) s = .next (s.after s)))

/-- R14, R15, R446, R448, R450. -/
def Obligations.ResetRelease : Prop :=
  ∀ (s : State) (k : Fin 4) (compat refsel pll : Bool) (tj : Nat), s.life = .inReset →
    ((s.pm.hot = true → tj < 110) → (s.pm.noLock = true → pll = true) → s.rd Pg.fus FUS.SEC_debug = 0 →
      ∃ u, exec (.resetRelease k compat refsel pll tj) s = .next (s.after u) ∧ u.life = .running ∧ u.mode = modeOf k.val ∧ u.compat = compat ∧ u.refsel = refsel ∧
        u.rd Pg.glb GLB.GLB_STAT_mode = k.val ∧ u.rd Pg.glb GLB.GLB_STAT_compat = b2n compat ∧ u.rd Pg.glb GLB.GLB_STAT_refsel = b2n refsel ∧
        (k.val = 3 → u.rd Pg.glb (HDR.raw GLB.ev_strap_fault.bit) = 1)) ∧
    (s.pm.hot = true → 110 ≤ tj → exec (.resetRelease k compat refsel pll tj) s = .next (s.after s)) ∧
    (s.pm.noLock = true → pll = false → exec (.resetRelease k compat refsel pll tj) s = .next (s.after s))

/-- R390, R402, R431, R450. -/
def Obligations.BootEnds : Prop :=
  ∀ (s : State) (f : Flash), s.life = .running → s.rd Pg.glb GLB.GLB_STAT_boot_done = 0 → s.rd Pg.glb GLB.GLB_STAT_boot_err = 0 →
    let lock := s.wr Pg.clk CLK.CLK_STAT_pll_lock 1
    let v := ({ lock with eng := { bank7 := s.eng.bank7, boot := flashRecord f, pin := f.pin } } : State).trial
    (f.answers = false ∨ (∀ k ∈ v.fwSlots f, v.fwFits f k = false) → ∃ u, exec (.bootComplete f) s = .next (s.after u) ∧ u.rd Pg.glb GLB.GLB_STAT_boot_err = 1 ∧ u.rd Pg.glb (HDR.raw GLB.ev_boot_err.bit) = 1 ∧
      u.rd Pg.glb GLB.GLB_STAT_boot_done = 0 ∧ u.engState 15 = engRunning ∧ ∀ e, e < 15 → u.engState e = s.engState e) ∧
    (f.answers = true → ∀ k ∈ v.fwSlots f, v.fwFits f k = true → ∃ t u, lock.bootLoad f = some t ∧ (∀ e, e < 16 → t.engState e = engRunning) ∧
      exec (.bootComplete f) s = .next (s.after (State.startPorts u)) ∧ u.rd Pg.glb GLB.GLB_STAT_boot_done = 1 ∧ u.rd Pg.glb (HDR.raw GLB.ev_boot_done.bit) = 1 ∧ u.eng.bank7.isSome = true)

/-- R39 step 1, R50, R51, R59, R61. -/
def Obligations.PortControls : Prop :=
  ∀ (s : State) (p : Port), s.life = .running →
    let forced (v : State) : Prop := v.pst p = stDown ∧ v.trkF p TRK.PORT_CAUSE_cause = dnForced ∧ v.rd (Pg.trk p) (HDR.raw TRK.ev_link_down.bit) = 1
    (s.hasTrunks = true → s.pst p = stDisabled → s.trkF p TRK.PORT_CTL_hold_down = 0 → 1 ≤ s.trkF p TRK.PORT_CFG_media → s.trkF p TRK.PORT_CFG_media ≤ 4 →
      ∃ u, exec (.portEnable p) s = .next (s.after u) ∧ u.pst p = stDetect ∧ u.trkF p TRK.PORT_CFG_port_en = 1 ∧ (u.trunk p).medium = s.trkF p TRK.PORT_CFG_media) ∧
    (s.hasTrunks = true → s.pst p = stDisabled → 5 ≤ s.trkF p TRK.PORT_CFG_media →
      ∃ u, exec (.portEnable p) s = .next (s.after u) ∧ u.pst p = stDisabled ∧ u.rd (Pg.trk p) (HDR.raw TRK.ev_cfg_err.bit) = 1) ∧
    (s.isUp p = true → ∃ (v : State) (b : Bool), exec (.portDisable p) s = .next (s.after (v.linkStop p b)) ∧ forced v ∧ v.trkF p TRK.PORT_CFG_port_en = 0) ∧
    ((s.pst p = stDetect ∨ s.pst p = stNegotiate ∨ s.pst p = stTrain ∨ s.pst p = stAlign) → ∃ u, exec (.portDisable p) s = .next (s.after u) ∧ u.pst p = stDisabled) ∧
    (s.isUp p = true → ∃ (v : State) (b : Bool), exec (.portHoldDown p true) s = .next (s.after (v.linkStop p b)) ∧ forced v ∧ v.trkF p TRK.PORT_CTL_hold_down = 1) ∧
    (s.pst p = stNegotiate → s.trkF p TRK.PORT_CFG_media ≤ 4 → ∃ u, exec (.portHoldDown p true) s = .next (s.after u) ∧ u.pst p = stDetect ∧ (u.trunk p).txOn = false) ∧
    (s.isUp p = true → ∃ (v : State) (b : Bool), exec (.portRenego p) s = .next (s.after (v.linkStop p b)) ∧ forced v ∧ v.trkF p TRK.PORT_STAT_failed = 0) ∧
    (s.pst p = stUp → s.fallbackDue p = false → ∃ u, exec (.portRetrain p) s = .next (s.after u) ∧ u.pst p = stRecover ∧
      u.trkF p TRK.LINK_CNT_recovers = min (s.trkF p TRK.LINK_CNT_recovers + 1) 255)

/-- R34, R39 steps 2 to 4, R42, R52, R53, R58. -/
def Obligations.MediaAndAttach : Prop :=
  ∀ (s : State) (p : Port), s.life = .running →
    (s.pst p = stDetect → (s.trunk p).autoWin = true → (s.trunk p).medium = 0 → ∃ u, exec (.mediaAutoTimeout p false) s = .next (s.after u) ∧ (u.trunk p).medium = 1 ∧ u.pst p = stDetect) ∧
    (∀ sb, s.mayNegotiate p = true → s.sideband p = true → (s.trunk p).inbandDue = false → ∃ u, exec (.enterNegotiate p sb) s = .next (s.after u) ∧ u.pst p = stNegotiate ∧
      (u.trunk p).pageSeq = (if (s.trunk p).pageLast = u.pageHead p then (s.trunk p).pageSeq else ((s.trunk p).pageSeq + 1) % 256) ∧ (u.trunk p).pageLast = u.pageHead p ∧
      (u.trunk p).sel = none ∧ (u.trunk p).partner = none) ∧
    (s.trkF p TRK.TTC_CFG_cc_role = 2 → s.trkF p TRK.TTC_STAT_attached = 0 → (s.trunk p).ccSeen = 0 → ∃ u, exec (.trunkCcToggle p) s = .next (s.after u) ∧ (u.trunk p).ccTerm = 1 - (s.trunk p).ccTerm) ∧
    (∀ line, s.trkF p TRK.TTC_STAT_attached = 0 → s.ownTerm p ≠ 3 → (line = 1 ∨ line = 2) → ∃ u, exec (.trunkCcTerminationChange p line) s = .next (s.after u) ∧ (u.trunk p).ccSeen = line) ∧
    (s.trkF p TRK.TTC_STAT_attached = 0 → ((s.trunk p).ccSeen = 1 ∨ (s.trunk p).ccSeen = 2) → s.ownTerm p ≠ 3 → s.ccInUse p = true → ∃ u, exec (.trunkCcAttach p) s = .next (s.after u) ∧
      u.trkF p TRK.TTC_STAT_attached = 1 ∧ u.trkF p TRK.TTC_STAT_orient = (s.trunk p).ccSeen - 1 ∧ u.rd (Pg.trk p) (HDR.raw TRK.ev_cc_attach.bit) = 1 ∧
      ((s.trunk p).autoWin = true → s.pst p = stDetect → (u.trunk p).medium = 3)) ∧
    (s.on (Pg.trk p) TRK.TTC_STAT_attached = true → (s.trunk p).medium = 3 → s.pst p = stNegotiate → s.trkF p TRK.PORT_CFG_media ≤ 4 → ∃ u, exec (.trunkCcDetach p) s = .next (s.after u) ∧
      u.trkF p TRK.TTC_STAT_attached = 0 ∧ u.trkF p TRK.PORT_STAT_failed = 0 ∧ (u.trunk p).snap = none ∧ u.pst p = stDetect ∧ u.rd (Pg.trk p) (HDR.raw TRK.ev_cc_detach.bit) = 1)

/-- R36–R40. -/
def Obligations.SidebandNegotiation : Prop :=
  ∀ (s : State) (p : Port) (f : SbFrame), s.life = .running →
    ((s.optical p = true ∨ s.trkF p TRK.PORT_CFG_sb_en = 0) → exec (.hopPageRx p f) s = .next (s.after s) ∧ exec (.hopAckRx p f) s = .next (s.after s) ∧ exec (.keepaliveRx p f) s = .next (s.after s)) ∧
    (s.trkF p TRK.PORT_CFG_sb_en = 1 → s.optical p = false → sbValid f = false →
      (exec (.hopPageRx p f) s = .next (s.after (s.bump (Pg.trk p) TRK.SB_ERR_sb_crc 1))) ∧ (exec (.hopAckRx p f) s = .next (s.after (s.bump (Pg.trk p) TRK.SB_ERR_sb_crc 1)))) ∧
    (s.trkF p TRK.PORT_CFG_sb_en = 1 → s.optical p = false → sbValid f = true → s.pst p = stNegotiate → (s.trunk p).failWait = false → (s.trunk p).p1Try = false → numAt f.bytes 0 1 = 1 →
      ∃ u, exec (.hopPageRx p f) s = .next (s.after u) ∧ (u.trunk p).partner = some (pageOf (f.bytes.drop 1)) ∧ u.trkF p TRK.PORT_STAT_sb_up = 1 ∧ u.trkF p TRK.SB_STAT_last_type = 1 ∧
        (u.trunk p).sel = u.select p ∧
        ∀ g, u.select p = some g → (bitOf (u.pageModes p &&& numAt (f.bytes.drop 1) 0 1 % 16) g.mode = 1 ∧ ∀ m, g.mode < m → m ≤ 3 → bitOf (u.pageModes p &&& numAt (f.bytes.drop 1) 0 1 % 16) m = 0)) ∧
    (∀ g, s.trkF p TRK.PORT_CFG_sb_en = 1 → s.optical p = false → sbValid f = true → s.pst p = stNegotiate → (s.trunk p).sel = some g → s.trkF p TRK.PORT_STAT_inband = 0 → numAt f.bytes 0 1 = 2 →
      (ackOf (f.bytes.drop 1) = g → s.rd (Pg.eng 0) (ENG.ENG_STAT_state (1 + Port.idx p)) = 0 → ∃ u, exec (.hopAckRx p f) s = .next (s.after u) ∧ u.pst p = stTrain ∧ (u.trunk p).training = g.mode) ∧
      (ackOf (f.bytes.drop 1) ≠ g → ∃ u, exec (.hopAckRx p f) s = .next (s.after u) ∧ u.pst p = stNegotiate ∧ (u.trunk p).sel = none)) ∧
    (s.sbNegotiates p = true → exec (.hopPageSend p) s = .next (s.after (s.sbSend p 1 (s.pageBytes p)))) ∧
    (∀ g, s.sbNegotiates p = true → (s.trunk p).sel = some g → exec (.hopAckSend p) s = .next (s.after (s.sbSend p 2 (s.ackBytes p g)))) ∧
    (s.hasSideband p = true → (s.trunk p).txOn = true → exec (.keepaliveSend p) s = .next (s.after (s.sbSend p 3 [s.pst p, s.trkF p TRK.PORT_STAT_rx_lanes]))) ∧
    (s.trkF p TRK.PORT_CFG_sb_en = 1 → s.optical p = false → sbValid f = true → s.mayNegotiate p = false → ∃ u, exec (.keepaliveRx p f) s = .next (s.after u) ∧ u.trkF p TRK.PORT_STAT_sb_up = 1 ∧ u.trkF p TRK.SB_STAT_up = 1) ∧
    (s.on (Pg.trk p) TRK.PORT_STAT_sb_up = true → ∃ u, exec (.sidebandLost p) s = .next (s.after u) ∧ u.trkF p TRK.PORT_STAT_sb_up = 0 ∧ (u.trunk p).inbandDue = true ∧
      u.rd (Pg.trk p) (HDR.raw TRK.ev_sb_err.bit) = 1 ∧ u.pst p = s.pst p)

/-- R39 steps 5a and 8 to 11. -/
def Obligations.TrainingAndLinkUp : Prop :=
  ∀ (s : State) (p : Port), s.life = .running →
    let open_ : Prop := s.pst p = stNegotiate ∧ (s.trunk p).failWait = false ∧ (s.trunk p).p1Try = false
    (s.pst p = stTrain → (s.trunk p).p1Try = false → ∃ u, exec (.trainingConverged p) s = .next (s.after u) ∧ u.pst p = stAlign) ∧
    (∀ g, (s.pst p = stTrain ∨ s.pst p = stAlign) → (s.trunk p).sel = some g → s.trkF p TRK.PORT_STAT_fast = 0 → (s.trunk p).partner = none → bitOf (s.trunk p).allow 0 = 0 →
      ∃ u, exec (.trainingTimeout p) s = .next (s.after u) ∧ u.pst p = stNegotiate ∧ (u.trunk p).failWait = true ∧ u.trkF p TRK.PORT_STAT_failed = 0 ∧ u.rd (Pg.trk p) (HDR.raw TRK.ev_train_fail.bit) = 1) ∧
    (∀ g, s.pst p = stTrain → (s.trunk p).sel = some g → 1 ≤ g.mode → g.mode ≤ 3 → s.trkF p TRK.PORT_STAT_fast = 0 → (s.trunk p).partner = none → bitOf (s.pageModes p) 0 = 1 →
      ∃ u, exec (.trainingTimeout p) s = .next (s.after u) ∧ u.trkF p TRK.PORT_STAT_failed = (s.trkF p TRK.PORT_STAT_failed ||| 2 ^ g.mode) % 16 ∧ (u.trunk p).p1Try = true) ∧
    (open_ → (s.trunk p).training = 0 → (s.trunk p).sbSeen = false → s.inbandMode p ≠ 0 → s.rd (Pg.eng 0) (ENG.ENG_STAT_state (1 + Port.idx p)) = 0 →
      ∃ u, exec (.inbandNegotiate p) s = .next (s.after u) ∧ u.trkF p TRK.PORT_STAT_inband = 1 ∧ (u.trunk p).training = s.inbandMode p) ∧
    (∀ page, open_ → s.on (Pg.trk p) TRK.PORT_STAT_inband = true → ∃ u, exec (.trainingFrameRx p page []) s = .next (s.after u) ∧ (u.trunk p).partner = some (pageOf page) ∧ (u.trunk p).sel = u.select p) ∧
    (open_ → s.noMode p = true → bitOf (s.pageModes p) 0 = 1 → ∃ u, exec (.p1Attempt p) s = .next (s.after u) ∧ (u.trunk p).p1Try = true ∧ (u.trunk p).training = mdP1) ∧
    (open_ → s.noMode p = false → exec (.p1Attempt p) s = .next (s.after s)) ∧
    (s.pst p = stNegotiate → (s.trunk p).p1Try = true → ∃ u, exec (.trainingTimeout p) s = .next (s.after u) ∧ (u.trunk p).failWait = true ∧ u.trkF p TRK.PORT_STAT_failed = 0 ∧
      u.trkF p TRK.LINK_CNT_train_fails = min (s.trkF p TRK.LINK_CNT_train_fails + 1) 255 ∧ u.rd (Pg.trk p) (HDR.raw TRK.ev_train_fail.bit) = 1) ∧
    (s.pst p = stNegotiate → (s.trunk p).failWait = true → s.sideband p = true → (s.trunk p).inbandDue = false → ∃ u, exec (.trainFailRetry p) s = .next (s.after u) ∧ u.pst p = stNegotiate ∧ (u.trunk p).failWait = false) ∧
    (∀ is serial beyond, s.pst p = stNegotiate → (s.trunk p).p1Try = true → ∃ v : State, exec (.p1Aligned p is serial beyond) s = .next (s.after (v.linkStart p)) ∧ v.pst p = stUp ∧ v.trkF p TRK.PORT_STAT_mode = mdP1 ∧
      (v.trunk p).isP1200 = is ∧ v.rd (Pg.trk p) (HDR.raw TRK.ev_link_up.bit) = 1) ∧
    (∀ g, s.pst p = stAlign → (s.trunk p).sel = some g → g.mode < 8 → g.txl < 4 → g.rxl < 4 → ∃ v : State, exec (.linkUp p) s = .next (s.after (v.linkStart p)) ∧ v.pst p = stUp ∧ v.trkF p TRK.PORT_STAT_mode = g.mode ∧
      v.trkF p TRK.PORT_STAT_tx_lanes = g.txl ∧ v.trkF p TRK.PORT_STAT_rx_lanes = g.rxl ∧ v.rd (Pg.trk p) (HDR.raw TRK.ev_link_up.bit) = 1)

/-- R43–R45. -/
def Obligations.EqualiserEnvelopes : Prop :=
  ∀ (s : State) (p : Port), s.life = .running →
    let lo := s.trkF p TRK.CTLE_ENV_ctle_min
    let hi := s.trkF p TRK.CTLE_ENV_ctle_max
    (∀ v, lo ≤ hi → hi < 32 → ∃ u, exec (.eqSetpointWrite p 0x94 v) s = .next (s.after u) ∧ u.trkF p TRK.CTLE_SET_ctle_l0 = min (max (bitsOf v 4 0) lo) hi ∧
      u.trkF p TRK.CTLE_SET_ctle_l1 = min (max (bitsOf v 12 8) lo) hi ∧ ((bitsOf v 4 0 < lo ∨ hi < bitsOf v 4 0) → u.trkF p TRK.EQ_PIN_ctle_l0 = 1 ∧ u.rd (Pg.trk p) (HDR.raw TRK.ev_eq_pinned.bit) = 1)) ∧
    (∀ v, bitsOf v 12 8 < bitsOf v 4 0 → ∃ u, exec (.eqEnvelopeWrite p 0x88 v) s = .next (s.after u) ∧ u.rd (Pg.trk p) (HDR.raw TRK.ev_cfg_err.bit) = 1 ∧
      ∀ q g, g.off < 4096 → g.lsb < 32 → ¬ (q = Pg.trk p ∧ g.off < 0x40) → u.rd q g = s.rd q g) ∧
    (∀ v, bitsOf v 4 0 ≤ bitsOf v 12 8 → ∃ u, exec (.eqEnvelopeWrite p 0x88 v) s = .next (s.after u) ∧ u.trkF p TRK.CTLE_ENV_ctle_min = bitsOf v 4 0 ∧ u.trkF p TRK.CTLE_ENV_ctle_max = bitsOf v 12 8 ∧
      bitsOf v 4 0 ≤ u.trkF p TRK.CTLE_SET_ctle_l0 ∧ u.trkF p TRK.CTLE_SET_ctle_l0 ≤ bitsOf v 12 8 ∧ bitsOf v 4 0 ≤ u.trkF p TRK.CTLE_SET_ctle_l1 ∧ u.trkF p TRK.CTLE_SET_ctle_l1 ≤ bitsOf v 12 8) ∧
    (∀ (l : Fin 2) pre post, (s.pst p = stTrain ∨ s.pst p = stRecover) → s.on (Pg.trk p) (ffeHold l.val) = false → pre ≤ s.trkF p TRK.FFE_ENV_pre_max → post ≤ s.trkF p TRK.FFE_ENV_post_max → pre < 16 → post < 32 →
      ∃ u, exec (.ffeRequestRx p l pre post) s = .next (s.after u) ∧ u.trkF p (ffePre l.val) = pre ∧ u.trkF p (ffePost l.val) = post ∧ u.trkF p (ffeMain l.val) = 63 - pre - post ∧
        u.outbox = s.outbox ++ [.training p 6 [BitVec.ofNat 8 l.val, 0]]) ∧
    (∀ (l : Fin 2) pre post, (s.pst p = stTrain ∨ s.pst p = stRecover) → s.trkF p TRK.FFE_ENV_pre_max < pre → ∃ u, exec (.ffeRequestRx p l pre post) s = .next (s.after u) ∧ u.trkF p (ffePin l.val) = 1 ∧
      u.outbox = s.outbox ++ [.training p 6 [BitVec.ofNat 8 l.val, 1]])

/-- R46, R47, R49, R50. -/
def Obligations.LanesAndRecover : Prop :=
  ∀ (s : State) (p : Port), s.life = .running →
    let sees (f : SbFrame) : Prop := s.trkF p TRK.PORT_CFG_sb_en = 1 ∧ s.optical p = false ∧ sbValid f = true
    (∀ (l : Fin 2), (s.pst p = stUp ∨ s.pst p = stDegraded) → s.trkF p TRK.PORT_STAT_rx_lanes = 3 → (s.trunk p).fullRx = 3 → ∃ v : State,
      exec (.laneLost p l dnLos) s = .next (s.after ((v.laneNotice p (3 - 2 ^ l.val) l.val).linkReport p 2)) ∧ v.trkF p TRK.PORT_STAT_rx_lanes = 3 - 2 ^ l.val ∧ v.pst p = stDegraded ∧
      v.trkF p (laneFlags l.val) = 1 ∧ v.rd (Pg.trk p) (HDR.raw TRK.ev_lane_lost.bit) = 1 ∧ v.trkF p TRK.LINK_CNT_lane_losses = min (s.trkF p TRK.LINK_CNT_lane_losses + 1) 255) ∧
    (∀ (l : Fin 2), s.isUp p = true → bitOf (s.trkF p (laneFlags l.val)) 0 = 1 → bitOf (s.trunk p).readyLanes l.val = 0 → ∃ v : State, exec (.laneReady p l) s = .next (s.after (v.linkReport p 3)) ∧
      v.trkF p (laneFlags l.val) = 15 ∧ bitOf (v.trunk p).readyLanes l.val = 1 ∧ v.rd (Pg.trk p) (HDR.raw TRK.ev_lane_ready.bit) = 1) ∧
    (∀ (f : SbFrame) l, sees f → numAt f.bytes 0 1 = 4 → numAt f.bytes 1 1 = l → numAt f.bytes 2 1 ≠ 0xFF → s.pst p = stUp → (s.trunk p).fullTx = 3 → s.trkF p TRK.PORT_STAT_tx_lanes = 3 → (l = 1 ∨ l = 2) →
      ∃ v : State, exec (.laneNoticeRx p f.delims f.bytes) s = .next (s.after (v.linkReport p 2)) ∧ v.pst p = stDegraded ∧ v.trkF p TRK.PORT_STAT_tx_lanes = l) ∧
    (∀ n, s.pst p = stUp → s.fallbackDue p = false → s.rd1 (Pg.trk p) TRK.DEGRADE_CFG_unc_max ≤ n → ∃ u, exec (.uncorrectableLimit p n) s = .next (s.after u) ∧ u.pst p = stRecover ∧
      u.trkF p TRK.FEC_UNC_fec_unc = min (s.trkF p TRK.FEC_UNC_fec_unc + n) (2 ^ TRK.FEC_UNC_fec_unc.width - 1)) ∧
    (∀ (f : SbFrame), sees f → numAt f.bytes 0 1 = 5 → numAt f.bytes 1 1 ≠ 2 → s.pst p = stUp → s.fallbackDue p = false → ∃ u, exec (.recoverRx p (some f)) s = .next (s.after u) ∧ u.pst p = stRecover ∧
      u.outbox.getLast? = some (.sideband p (s.sbLine p) (sbFrameOf 5 [2]))) ∧
    (s.pst p = stUp → s.fallbackDue p = false → ∃ u, exec (.recoverRx p none) s = .next (s.after u) ∧ u.pst p = stRecover) ∧
    (s.pst p = stRecover → ∃ u, exec (.recoverComplete p) s = .next (s.after u) ∧ u.rd (Pg.trk p) (HDR.raw TRK.ev_recover.bit) = 1 ∧ (u.link p).replayWait = true ∧ (u.link p).owedRs = some (s.link p).ackCount ∧
      u.pst p = (if s.trkF p TRK.PORT_STAT_tx_lanes = (s.trunk p).fullTx ∧ s.trkF p TRK.PORT_STAT_rx_lanes = (s.trunk p).fullRx then stUp else stDegraded)) ∧
    (s.pst p = stRecover → ∃ (v : State) (b : Bool), exec (.recoverTimeout p) s = .next (s.after (v.linkStop p b)) ∧ v.pst p = stDown ∧ v.trkF p TRK.PORT_CAUSE_state_at_down = stRecover ∧
      v.trkF p TRK.PORT_CAUSE_cause = (if (s.trunk p).recLink then dnLinkLayer else dnRecover))

/-- R55, R56, R58, R59. -/
def Obligations.LinkEnds : Prop :=
  ∀ (s : State) (p : Port), s.life = .running →
    let sees (f : SbFrame) : Prop := s.trkF p TRK.PORT_CFG_sb_en = 1 ∧ s.optical p = false ∧ sbValid f = true
    (∀ c, (c = dnLos ∨ c = dnLock ∨ c = dnModuleLos ∨ c = dnSer) → s.isUp p = true → ∃ (v : State) (b : Bool), exec (.linkLoss p c) s = .next (s.after (v.linkStop p b)) ∧ v.pst p = stDown ∧ v.trkF p TRK.PORT_CAUSE_cause = c ∧
      v.trkF p TRK.PORT_CAUSE_state_at_down = s.pst p ∧ v.trkF p TRK.LINK_CNT_downs = min (s.trkF p TRK.LINK_CNT_downs + 1) 255 ∧ v.rd (Pg.trk p) (HDR.raw TRK.ev_link_down.bit) = 1) ∧
    ((s.pst p = stTrain ∨ s.pst p = stAlign) → s.trkF p TRK.PORT_CFG_media ≤ 4 → ∃ u, exec (.linkLoss p dnLos) s = .next (s.after u) ∧ u.pst p = stDetect ∧ u.trkF p TRK.PORT_STAT_failed = s.trkF p TRK.PORT_STAT_failed ∧
      u.rd (Pg.trk p) (HDR.raw TRK.ev_link_down.bit) = s.rd (Pg.trk p) (HDR.raw TRK.ev_link_down.bit)) ∧
    (∀ (f : SbFrame), sees f → numAt f.bytes 0 1 = 7 → s.isUp p = true → ∃ (v : State) (b : Bool), exec (.downNoticeRx ⟨p, f⟩) s = .next (s.after (v.linkStop p b)) ∧ v.pst p = stDown ∧ v.trkF p TRK.PORT_CAUSE_cause = dnPartner) ∧
    (s.pst p = stNegotiate → s.trkF p TRK.PORT_CFG_media ≤ 4 → ∃ u, exec (.negotiateTimeout p) s = .next (s.after u) ∧ u.pst p = stDetect ∧ u.trkF p TRK.LINK_CNT_downs = s.trkF p TRK.LINK_CNT_downs) ∧
    (s.pst p = stDown → s.trkF p TRK.PORT_CFG_port_en = 0 → ∃ u, exec (.downStateExpiry p) s = .next (s.after u) ∧ u.pst p = stDisabled) ∧
    (s.pst p = stDown → s.trkF p TRK.PORT_CFG_port_en = 1 → s.trkF p TRK.PORT_CFG_media ≤ 4 → ∃ u, exec (.downStateExpiry p) s = .next (s.after u) ∧ u.pst p = stDetect) ∧
    (∀ (f : SbFrame), sees f → numAt f.bytes 0 1 = 6 → ∃ u, exec (.sleepNoticeRx p f) s = .next (s.after u) ∧ (u.trunk p).partnerSleep = numAt f.bytes 1 1) ∧
    (s.on (Pg.trk p) TRK.PORT_CFG_beacon_en = true → s.pst p = stDetect → s.on (Pg.trk p) TRK.PORT_CTL_hold_down = false → ∃ u, exec (.beaconSend p) s = .next (s.after u) ∧ u.pst p = stBeacon ∧
      (s.optical p = false → u.outbox = s.outbox ++ [.bay (Port.idx p) "trunk: beacon on a pair" [1, s.pairOf p 0]]) ∧
      (s.optical p = true → (u.trunk p).txOn = true ∧ u.outbox.getLast? = some (.bay (Port.idx p) "trunk: continuous light" [1]))) ∧
    (s.pst p = stBeacon → (s.setPst p stDetect).mayNegotiate p = true → (s.trunk p).snap = none → s.sideband p = true → (s.trunk p).inbandDue = false → ∃ u, exec (.beaconAnswered p) s = .next (s.after u) ∧ u.pst p = stNegotiate) ∧
    (s.pst p = stBeacon → s.trkF p TRK.PORT_CFG_media ≤ 4 → ∃ u, exec (.beaconTimeout p) s = .next (s.after u) ∧ u.pst p = stDetect ∧ u.rd (Pg.trk p) (HDR.raw TRK.ev_beacon_unanswered.bit) = 1)

/-- R30, R65, R69, R73, R78, R82, R84, R87, R125, R126. -/
def Obligations.LinkReceive : Prop :=
  ∀ (s : State) (p : Port) (raw : List (List Byte)), s.life = .running →
    let l := s.laneBytes p raw
    let v := s.laneStep p l.length
    let c := cellOf l
    let native : Prop := s.hopRuns p = true ∧ s.p1 p = false ∧ v.cutOf p c = none
    let good : Prop := native ∧ hopAbort l = false ∧ hopGood l = true ∧ c.hopLocal = false
    let owes (u : State) : Prop := (u.link p).replayWait = true ∧ (u.link p).owedNak = true ∧ (u.link p).rxCount = (s.link p).rxCount
    (s.hopRuns p = false → exec (.cellRx p raw) s = .next (s.after s)) ∧
    (native → hopAbort l = true → exec (.cellRx p raw) s = .next (s.after (v.bump (Pg.lnk p) LNK.LNK_CNT0_aborts_rx 1))) ∧
    (native → hopAbort l = false → hopGood l = false → (s.link p).replayWait = false → ∃ u, exec (.cellRx p raw) s = .next (s.after u) ∧ owes u ∧
      u.rd (Pg.lnk p) (HDR.raw LNK.ev_hop_crc.bit) = 1 ∧ s.counted u (Pg.lnk p) LNK.LNK_CNT0_hop_crc) ∧
    (s.hopRuns p = true → s.p1 p = true → fcellGood l = false → v.p1Cut p (fcellOf l) = none → (s.link p).replayWait = false → ∃ u, exec (.cellRx p raw) s = .next (s.after u) ∧ owes u ∧
      u.rd (Pg.lnk p) (HDR.raw LNK.ev_p1_err.bit) = 1 ∧ s.counted u (Pg.lnk p) LNK.LNK_CNT6_p1_crc) ∧
    (good → (s.link p).replayWait = false → (s.link p).replayRx = none → c.lseq ≠ (s.link p).rxCount % 4096 → ∃ u, exec (.cellRx p raw) s = .next (s.after u) ∧ owes u ∧ u.regs = s.regs ∧ u.gran = s.gran) ∧
    (good → (s.link p).replayWait = true → ∃ u, exec (.cellRx p raw) s = .next (s.after u) ∧ (u.link p).rxCount = (s.link p).rxCount ∧ (u.link p).owedNak = (s.link p).owedNak ∧ u.regs = s.regs ∧ u.gran = s.gran) ∧
    (∀ k, good → (s.link p).take c.lseq = .accept → c.hopCtl = false → s.badHeader p c = true → s.isMine p c = false → s.rxPool p c.cls 1 = some k → ∃ u, exec (.cellRx p raw) s = .next (s.after u) ∧
      (u.link p).rxCount = (s.link p).rxCount + 1 ∧ (u.link p).rcvd = (s.link p).rcvd.charge k ∧ (u.link p).returned = (s.link p).returned.charge k ∧
      s.counted u (Pg.lnk p) LNK.LNK_CNT3_hdr_err ∧ u.rd (Pg.lnk p) (HDR.raw LNK.ev_hdr_err.bit) = 1 ∧ u.gran = s.gran) ∧
    (∀ o, good → (s.link p).take c.lseq = .accept → c.hopCtl = false → s.badHeader p c = false → (s.rxPool p c.cls 1).isSome = true → (s.link p).kx < 2 →
      s.transitPort p c = some o → s.routed o = true → c.dhub ≠ 63 → s.gran.waiting = [] → s.gran.broken = [] → s.gran.stopped = [] → ownGasp c = false → s.eDropped (Port.idx o) (s.trunkQueue o c) c = false →
      ∃ u b, exec (.cellRx p raw) s = .next (s.after u) ∧ (u.link p).rxCount = (s.link p).rxCount + 1 ∧
        u.queue (s.trunkQueue o c) = s.queue (s.trunkQueue o c) ++ [b] ∧ ({ b.cell with ce := c.ce } : Cell) = c)

/-- R50, R67, R73–R75. -/
def Obligations.AckAndReplay : Prop :=
  ∀ (s : State) (p : Port), s.life = .running → s.hopRuns p = true →
    let l := s.link p
    let asks (u : State) (cause : Nat) : Prop := (u.link p).owedRetrain = some cause ∧ u.rd (Pg.lnk p) LNK.LNK_STAT_rtr_cause = cause
    let d (w0 : Nat) := (bitsOf w0 23 12 + 1 + 4096 - l.ackCount % 4096) % 4096
    (∀ w0 ts echo hold, bitOf w0 30 = 0 → bitOf w0 31 = 0 → serialDist 32 echo s.now < hold → d w0 < 2048 → l.ackCount + d w0 ≤ l.txCount →
      ∃ u, exec (.statusBlockRx p w0 ts echo hold) s = .next (s.after u) ∧ (u.link p).ackCount = l.ackCount + d w0 ∧ (u.link p).txCount = l.txCount ∧
        (u.link p).store = l.store.filter (fun x => l.ackCount + d w0 < x.count + s.sentCost p x)) ∧
    (∀ w0 ts echo hold, bitOf w0 30 = 0 → serialDist 32 echo s.now < hold → (2048 ≤ d w0 ∨ l.txCount < l.ackCount + d w0) →
      ∃ u, exec (.statusBlockRx p w0 ts echo hold) s = .next (s.after u) ∧ asks u 3 ∧ (u.link p).ackCount = l.ackCount ∧ (u.link p).store = l.store ∧ u.rd (Pg.lnk p) (HDR.raw LNK.ev_ack_err.bit) = 1) ∧
    (l.owedNak = false →
      let t := s.sendLocal p 9 (s.statusBlock p false false)
      (s.p1 p = false → exec (.statusSend p) s = .next (s.after t)) ∧
      (s.p1 p = true → exec (.statusSend p) s = .next (s.after (State.slotRest p .good 2 (t.sendLocal p 8 (t.creditBlock p)))))) ∧
    (l.owedNak = true → s.p1 p = false → ∃ u, exec (.statusSend p) s = .next (s.after u) ∧ (u.link p).owedNak = false ∧ u.outbox = (s.sendLocal p 9 (s.statusBlock p true false)).outbox ∧
      u.rd (Pg.lnk p) LNK.LNK_CNT1_naks_tx = min (s.rd (Pg.lnk p) LNK.LNK_CNT1_naks_tx + 1) (2 ^ LNK.LNK_CNT1_naks_tx.width - 1)) ∧
    (l.store = [] → exec (.replayTimerExpiry p) s = .next (s.after s) ∧ exec (.statusTimeout p) s = .next (s.after s)) ∧
    (l.store ≠ [] → s.rd (Pg.lnk p) LNK.RTT_rtt_ns ≠ 0 → l.replayN = 0 → ∃ u, exec (.replayTimerExpiry p) s = .next (s.after u) ∧ (u.link p).owedRs = some l.ackCount ∧ (u.link p).replayN = 1 ∧
      u.rd (Pg.lnk p) LNK.LNK_CNT2_replays = min (s.rd (Pg.lnk p) LNK.LNK_CNT2_replays + 1) (2 ^ LNK.LNK_CNT2_replays.width - 1)) ∧
    (l.store ≠ [] → s.rd (Pg.lnk p) LNK.RTT_rtt_ns ≠ 0 → l.replayN ≠ 0 → l.replayBase = l.ackCount → s.rd1 (Pg.lnk p) LNK.LNK_CFG_replay_max ≤ l.replayN →
      ∃ u, exec (.replayTimerExpiry p) s = .next (s.after u) ∧ asks u 1 ∧ u.rd (Pg.lnk p) (HDR.raw LNK.ev_replay_limit.bit) = 1) ∧
    (l.store ≠ [] → ∃ u, exec (.statusTimeout p) s = .next (s.after u) ∧ asks u 2 ∧ u.rd (Pg.lnk p) (HDR.raw LNK.ev_status_tmo.bit) = 1) ∧
    (∀ cause, l.sinceRecover = false → s.fallbackDue p = false → ∃ u, exec (.retrainReqRx ⟨p, cause⟩) s = .next (s.after u) ∧ u.pst p = stRecover ∧
      u.rd (Pg.lnk p) LNK.LNK_STAT_rtr_cause = cause % 2 ^ LNK.LNK_STAT_rtr_cause.width ∧
      u.rd (Pg.trk p) TRK.LINK_CNT_recovers = min (s.rd (Pg.trk p) TRK.LINK_CNT_recovers + 1) (2 ^ TRK.LINK_CNT_recovers.width - 1)) ∧
    (∀ cause, l.sinceRecover = true → exec (.retrainReqRx ⟨p, cause⟩) s = .next (s.after (s.wr (Pg.lnk p) LNK.LNK_STAT_rtr_cause cause)))

/-- R67, R81–R83. -/
def Obligations.CreditsAndLimits : Prop :=
  ∀ (s : State) (p : Port), s.life = .running →
    let x := s.link p
    let g (l : List Nat) (i : Nat) := l.getD i 0 % 65536
    let fits (back sent n : Nat) : Prop := usedOf n back ≤ usedOf sent back
    let within (l : List Nat) : Prop := fits x.pReturned.m x.sent.m (g l 0) ∧ fits x.pReturned.g x.sent.g (g l 1) ∧ fits x.pReturned.t x.sent.t (g l 2) ∧ fits x.pReturned.e x.sent.e (g l 3) ∧
      fits x.pReturned.ts x.sent.ts (g l 4) ∧ fits x.pReturned.es x.sent.es (g l 5)
    (∀ l, s.hopRuns p = true → within l → ∃ u, exec (.creditBlockRx p l) s = .next (s.after u) ∧
        (u.link p).pReturned = { m := g l 0, g := g l 1, t := g l 2, e := g l 3, ts := g l 4, es := g l 5 } ∧ (u.link p).pLimits = { m := g l 6, g := g l 7, t := g l 8, e := g l 9, sh := g l 10 }) ∧
    (∀ l, s.hopRuns p = true → ¬ within l → ∃ u, exec (.creditBlockRx p l) s = .next (s.after u) ∧ (u.link p).pReturned = x.pReturned ∧ (u.link p).pLimits = x.pLimits ∧
      (u.link p).owedRetrain = some 4 ∧ u.rd (Pg.lnk p) LNK.LNK_STAT_rtr_cause = 4 ∧ u.rd (Pg.lnk p) (HDR.raw LNK.ev_credit_err.bit) = 1) ∧
    (∀ v, 15 < bitsOf v 3 0 + bitsOf v 11 8 → ∃ u, exec (.crdCfgWrite p v) s = .next (s.after u) ∧ u.rd (Pg.lnk p) (HDR.raw LNK.ev_cfg_err.bit) = 1 ∧
      u.rd (Pg.lnk p) LNK.CRD_CFG_rt_cells = s.rd (Pg.lnk p) LNK.CRD_CFG_rt_cells ∧ u.rd (Pg.lnk p) LNK.CRD_CFG_m_share = s.rd (Pg.lnk p) LNK.CRD_CFG_m_share ∧ u.rd (Pg.lnk p) LNK.CRD_CFG_g_share = s.rd (Pg.lnk p) LNK.CRD_CFG_g_share) ∧
    (∀ v, bitsOf v 3 0 + bitsOf v 11 8 ≤ 15 → ∃ u, exec (.crdCfgWrite p v) s = .next (s.after u) ∧
      u.rd (Pg.lnk p) LNK.CRD_CFG_rt_cells = bitsOf v 31 16 ∧ u.rd (Pg.lnk p) LNK.CRD_CFG_m_share = bitsOf v 3 0 ∧ u.rd (Pg.lnk p) LNK.CRD_CFG_g_share = bitsOf v 11 8 ∧
      u.rd (Pg.lnk p) LNK.CRD_LIM0_m_lim = shareCells (bitsOf v 31 16) (bitsOf v 3 0) + 16 ∧ u.rd (Pg.lnk p) LNK.CRD_LIM0_g_lim = shareCells (bitsOf v 31 16) (bitsOf v 11 8) + 16)

/-- R64, R70, R72, R75, R80, R84, R95, R130, R131, R140, R157. -/
def Obligations.EgressSlots : Prop :=
  ∀ (s : State), s.life = .running →
    (∀ p e, s.hopRuns p = true →
      let l := s.link p
      let q := classQ (Port.idx p) clsM
      let moved (u : State) : Prop := s.p1 p = false → u.rd Pg.sch (SCH.CAL_STAT_pos (Port.idx p)) = (s.calPos p + 1) % 4096
      let wire (b : List Byte) : Output := .wire p b (s.laneStreams p (s.trkF p TRK.PORT_STAT_tx_lanes) l.txUnit b)
      let idle : Prop := l.owedRetrain = none ∧ l.owedRs = none ∧ l.owedNak = false
      (∀ cause, l.owedRetrain = some cause → s.fallbackDue p = false → ∃ u, exec (.slotTransmit p e) s = .next (s.after u) ∧ moved u ∧ u.pst p = stRecover ∧ (u.link p).owedRetrain = none ∧
        (u.link p).txCount = l.txCount + s.wireCost p (ctlCell (leBytes 1 0x04 ++ leBytes 1 cause ++ [0, 0, 0]))) ∧
      (∀ n x, idle → l.replayAt = some n → l.store.find? (fun y => n < y.count + s.sentCost p y) = some x → x.part = none → n ≤ x.count → s.p1 p = false → ∃ u, exec (.slotTransmit p .good) s = .next (s.after u) ∧ moved u ∧
        u.outbox = s.outbox ++ [wire ({ s.stamped x.cell with lseq := x.count % 4096 } : Cell).bytes] ∧ (u.link p).txCount = l.txCount ∧ (u.link p).replayAt = if x.count + 1 < l.txCount then some (x.count + 1) else none) ∧
      (∀ b rest k, idle → l.replayAt = none → l.macTx = [] → l.hopCtl = [] → s.slotTunnel p = none → s.canSend p q = true → s.queue q = b :: rest → s.p1 p = false → s.txPool p b.cell = some k → l.kx < 2 →
        let sent := s.stamped { b.cell with hops := (b.cell.hops + 1) % 64 }
        ∃ u, exec (.slotTransmit p .good) s = .next (s.after u) ∧ moved u ∧ u.queue q = rest ∧ (u.link p).txCount = l.txCount + 1 ∧ (u.link p).sent = l.sent.charge k ∧
          (u.link p).store = l.store ++ [⟨l.txCount, sent, b.bid, none⟩] ∧ u.outbox = s.outbox ++ [wire ({ sent with lseq := l.txCount % 4096 } : Cell).bytes]) ∧
      (idle → l.replayAt = none → l.macTx = [] → l.hopCtl = [] → s.slotTunnel p = none → s.pickQueue p = none →
        exec (.slotTransmit p e) s = .next (s.after (State.slotRest p e 2 (s.sendFill p))))) ∧
    (∀ (code : Fin 6) (fn : Fin 3) e, (s.localPick (code.val + 2) = none ∨ s.waitsForE0 (code.val + 2) = true) → exec (.localEgressDequeue ⟨code, fn⟩ e) s = .next (s.after s)) ∧
    (∀ (code : Fin 6) (fn : Fin 3) b, firstPacket (s.queue (classQ (code.val + 2) 0)) = [b] → s.gran.stopped = [] → s.engDown 0 = false → b.cell.cls = clsM → b.cell.e2e = b.cell.e2eCalc →
      let stray : Prop := code.val = 4 ∧ unknownChain b.cell = true
      ∃ u, exec (.localEgressDequeue ⟨code, fn⟩ .good) s = .next (s.after u) ∧ b ∉ u.queue (classQ (code.val + 2) 0) ∧
        (b.cell.psn = true → u.outbox = s.outbox ++ [.spoiled (code.val + 2) (spoilOf (code.val + 2) fn.val b.cell false) [b.cell]]) ∧
        (b.cell.psn = false → ¬ stray → u.outbox = s.outbox ++ [.deliver (code.val + 2) [b.cell]]) ∧
        (b.cell.psn = false → stray → u.outbox = s.outbox ∧ s.counted u (Pg.lnk (portOf b.src)) LNK.LNK_CNT3_hdr_err))

/-- R86, R143–R145, R208. -/
def Obligations.QueuesAndGleaner : Prop :=
  ∀ (s : State), s.life = .running →
    (∀ tunnel shub dhub half r, s.rsq (rsqKey { tunnel := tunnel, shub := shub, dhub := dhub } half) = some r →
      let k := rsqKey { tunnel := tunnel, shub := shub, dhub := dhub } half
      (r.held = [] → exec (.reseqTimeout tunnel shub dhub half) s = .next (s.after s)) ∧
      (∀ b, b ∈ r.held → (∀ x, x ∈ r.held → x ≠ b → serialDist 16 r.exp b.cell.tseq < serialDist 16 r.exp x.cell.tseq) →
        ∃ v : State, exec (.reseqTimeout tunnel shub dhub half) s = .next (s.after (State.releaseHeld k 64 (v.gapIn r.code b.cell))) ∧
          v.rsq k = some { r with exp := b.cell.tseq } ∧ v.rd (Pg.lnk .tu) LNK.RSQ_GAP_gap_tseq = r.exp % 65536 ∧ v.rd (Pg.lnk .tu) LNK.RSQ_GAP_gap_tunnel = b.cell.tunnel % 4096 ∧
          v.rd (Pg.lnk .tu) LNK.RSQ_CNT0_rsq_gap = min (s.rd (Pg.lnk .tu) LNK.RSQ_CNT0_rsq_gap + 1) (2 ^ LNK.RSQ_CNT0_rsq_gap.width - 1) ∧ v.rd (Pg.lnk .tu) (HDR.raw LNK.ev_rsq_gap.bit) = 1)) ∧
    (∀ q cause, 4128 ≤ q → exec (.queuePointerMismatch q cause) s = .next (s.after s)) ∧
    (∀ q, q < 4128 →
      let lost := ((s.queue q).filter (fun b => b.cell.cls = clsT && (b.cell.ctype = 1 || b.cell.ctype = 4))).take 64
      ∃ u, exec (.queuePointerMismatch q 1) s = .next (s.after u) ∧ (lost = [] → u.queue q = []) ∧ Tab.find q u.gran.incs = some (((Tab.find q s.gran.incs).getD 0 + 1) % 16) ∧
        u.rd Pg.grn GRN.QRST_cause = 1 ∧ u.rd Pg.grn GRN.QRST_queue = q ∧ u.rd Pg.grn GRN.GLN_STAT_busy = 1 ∧ u.rd Pg.grn (HDR.raw GRN.ev_q_reset.bit) = 1 ∧
        (s.mode ≠ .head → u.rd Pg.erl ERL.ERL_STAT_next_seq % 65536 = (s.rd Pg.erl ERL.ERL_STAT_next_seq + lost.length) % 65536)) ∧
    (∀ x, s.gran.stale.find? (fun x => x.2.2.bid = s.gran.sweep + 1) = some x → ∃ u, exec .gleanerSweepStep s = .next (s.after u) ∧ u.gran.stale = s.gran.stale.erase x ∧ u.gran.sweep = (s.gran.sweep + 1) % 32768 ∧
      s.counted u Pg.grn GRN.GLN_RECL_reclaimed) ∧
    ((∀ x, x ∈ s.gran.stale → x.2.2.bid ≠ s.gran.sweep + 1) → (∀ x, x ∈ s.gran.staleRpl → x.2 ≠ s.gran.sweep + 1) →
      exec .gleanerSweepStep s = .next (s.after { s with gran := { s.gran with sweep := (s.gran.sweep + 1) % 32768 } })) ∧
    (∃ u, exec .gleanerPassEnd s = .next (s.after u) ∧ u.gran.stopped = [] ∧ u.rd Pg.grn GRN.GLN_STAT_busy = 0 ∧
      u.rd Pg.grn GRN.GLN_STAT_passes = min (s.rd Pg.grn GRN.GLN_STAT_passes + 1) (2 ^ GRN.GLN_STAT_passes.width - 1) ∧ ∀ a, a < 10 → u.rd Pg.grn (GRN.RES_in_use a) % 65536 = s.sweepRest.swept a % 65536) ∧
    (∃ u, exec .gleanerFullPass s = .next (s.after u) ∧ u.rd Pg.grn GRN.GLN_STAT_busy = 1 ∧ u.gran.sweep = 0 ∧ u.gran.queues = s.gran.queues)

/-- R135: Host software sets floor and ceiling for accounts 4–9. -/
def Obligations.AccountLimits : Prop :=
  ∀ (s : State) (a v : Nat), s.life = .running →
    let f := bitsOf v 31 16
    let c := bitsOf v 15 0
    let total := s.acctSize 0 + s.acctSize 1 + s.acctSize 2 + s.acctSize 3 + sumNat ([4, 5, 6, 7, 8, 9].map (fun b => if b = a then f else s.rd Pg.grn (GRN.LIMITS_floor b)))
    ((a < 4 ∨ 9 < a ∨ a = 9 ∧ s.mode ≠ .head) → exec (.accountLimitsWrite a v) s = .next (s.after s)) ∧
    (4 ≤ a → a ≤ 8 ∨ a = 9 ∧ s.mode = .head →
      (f ≤ c → total ≤ 32768 → ∃ u, exec (.accountLimitsWrite a v) s = .next (s.after u) ∧ u.rd Pg.grn (GRN.LIMITS_floor a) = f ∧ u.rd Pg.grn (GRN.LIMITS_ceiling a) = c ∧
        ∀ b, b < 10 → b ≠ a → u.rd Pg.grn (GRN.LIMITS_floor b) = s.rd Pg.grn (GRN.LIMITS_floor b) ∧ u.rd Pg.grn (GRN.LIMITS_ceiling b) = s.rd Pg.grn (GRN.LIMITS_ceiling b)) ∧
      (c < f ∨ 32768 < total → ∃ u, exec (.accountLimitsWrite a v) s = .next (s.after u) ∧ u.raised Pg.grn GRN.ev_cfg_err ∧ u.gran = s.gran ∧ u.outbox = s.outbox ∧
        ∀ q g, g.off < 4096 → g.lsb < 32 → ¬ (q = Pg.grn ∧ g.off < 0x40) → u.rd q g = s.rd q g))

/-- R137, R442. -/
def Obligations.ReservesAndPlacement : Prop :=
  ∀ (s : State), s.life = .running →
    let floor (a : Nat) := s.rd Pg.grn (GRN.LIMITS_floor a)
    let ceiling (a : Nat) := s.rd Pg.grn (GRN.LIMITS_ceiling a)
    (∀ a v, s.acctRw a = false → exec (.reserveWrite a v) s = .next (s.after s)) ∧
    (∀ a v, s.acctRw a = true → s.on Pg.grn GRN.GRN_STAT_short = false → bitsOf v 31 16 ≤ bitsOf v 15 0 → s.granSum - floor a + bitsOf v 31 16 ≤ 32768 → ∃ u, exec (.accountLimitsWrite a v) s = .next (s.after u) ∧
      u.rd Pg.grn (GRN.RES_reserve a) = min (max (s.rd Pg.grn (GRN.RES_reserve a)) (bitsOf v 31 16)) (bitsOf v 15 0) ∧ ∀ b, b < 10 → b ≠ a → u.rd Pg.grn (GRN.RES_reserve b) = s.rd Pg.grn (GRN.RES_reserve b)) ∧
    (∀ a v, s.acctRw a = true → ceiling a < 65536 → ∃ u, exec (.reserveWrite a v) s = .next (s.after u) ∧ u.rd Pg.grn (GRN.RES_reserve a) = min (max (bitsOf v 31 16) (floor a)) (ceiling a) ∧
      ((bitsOf v 31 16 < floor a ∨ ceiling a < bitsOf v 31 16) → bitOf (u.rd Pg.grn GRN.PLC_PIN_pin) (a - 4) = 1 ∧ u.rd Pg.grn (HDR.raw GRN.ev_plc_pinned.bit) = 1)) ∧
    (s.placeDue = false → exec .placementLoop s = .next (s.after s)) ∧
    (s.placeDue = true → s.on Pg.grn GRN.PLC_CFG_hold = true → exec .placementLoop s = .next (s.after { s with gran := { s.gran with plcEpochs := 0 } })) ∧
    (let accts := [4, 5, 6, 7, 8, 9]
     let used := sumNat ((List.range 4).map (fun a => max (s.acctSize a) (s.inUse a)))
     let target (a : Nat) := (Tab.find a s.gran.peaks).getD 0 + (Tab.find a s.gran.peaks).getD 0 * s.rd Pg.grn GRN.PLC_CFG_headroom / 16
     let want (a : Nat) := min (max (target a) (floor a)) (ceiling a)
     s.placeDue = true → s.on Pg.grn GRN.PLC_CFG_hold = false → sumNat (accts.map floor) + sumNat (accts.map (fun a => want a - floor a)) + used ≤ 32768 →
      ∃ u, exec .placementLoop s = .next (s.after u) ∧ (∀ a, a ∈ accts → u.rd Pg.grn (GRN.RES_reserve a) = want a % 65536) ∧ (∀ a, a ∈ accts → Tab.find a u.gran.peaks = some (s.inUse a)))

/-- R404, R407, R418, R419. -/
def Obligations.HopKeys : Prop :=
  ∀ (s : State) (p : Port), s.life = .running → s.hopRuns p = true →
    let ended (u : State) (how : Nat) : Prop := (u.link p).kx = how ∧ u.rd Pg.lrd (hopStat p) = how ∧ (how = 3 → u.rd Pg.lrd (HDR.raw LRD.ev_hop_unprot.bit) = 1)
    let dropped (u : State) : Prop := u.rd Pg.lrd LRD.LRD_CNT1_mac_fail = min (s.rd Pg.lrd LRD.LRD_CNT1_mac_fail + 1) (2 ^ LRD.LRD_CNT1_mac_fail.width - 1) ∧ u.rd Pg.lrd (HDR.raw LRD.ev_mac_fail.bit) = 1
    (∀ l, (s.link p).kx ≠ 1 → exec (.kxHelloRx p l) s = .next (s.after s) ∧ exec (.kxConfirmRx p l) s = .next (s.after s) ∧ exec (.kxTimeout p) s = .next (s.after s)) ∧
    ((s.link p).kx = 1 → s.chain.replyDue = none →
      (∀ l,
        let hello := (l.drop 1).take 31
        let w := s.setLink p { s.link p with peerHello := hello }
        let h := w.hellos p
        (numAt hello 0 1 % 4 = 3 → s.keyOk 10 = true → (hello.drop 27).take 4 = s.keyId → ∃ u, exec (.kxHelloRx p l) s = .next (s.after u) ∧ (u.link p).kx = 1 ∧
          u.keyValue (hopSlot p) = kdf (s.keyValue 10) (ascii "HOPK") ((h.1.drop 3).take 8 ++ (h.2.drop 3).take 8 ++ (h.1.drop 11).take 16 ++ (h.2.drop 11).take 16) ∧
          ∃ x, (u.link p).hopCtl = (s.link p).hopCtl ++ [[0x06, 0, 0, 0] ++ x] ∧ x = u.confirmTag p (w.ownD p)) ∧
        ((numAt hello 0 1 % 4 ≠ 3 ∨ s.keyOk 10 = false ∨ (hello.drop 27).take 4 ≠ s.keyId) → ∃ u, exec (.kxHelloRx p l) s = .next (s.after u) ∧ ended u 3)) ∧
      (∀ l, s.keyOk (hopSlot p) = true → ∃ u, exec (.kxConfirmRx p l) s = .next (s.after u) ∧ ended u (if (l.drop 4).take 16 = s.confirmTag p (s.peerD p) then 2 else 3)) ∧
      (∃ u, exec (.kxTimeout p) s = .next (s.after u) ∧ ended u 3)) ∧
    (∀ l, (∀ x, x ∈ (s.link p).macHeld → x.1 ≠ numAt l 4 4) → (∀ x, x ∈ (s.link p).macCut → x.1 ≠ numAt l 4 4) → exec (.hopMacRx p l) s = .next (s.after s)) ∧
    (∀ l n raw pool, (s.link p).macHeld = [(n, raw, pool)] → (s.link p).macCut = [] → numAt l 4 4 = n → (l.drop 8).take 16 ≠ hopTag (s.keyValue (hopSlot p)) (s.peerD p) n raw →
      ∃ u, exec (.hopMacRx p l) s = .next (s.after u) ∧ (u.link p).macHeld = [] ∧ dropped u) ∧
    (∀ l n raw pool, (s.link p).macHeld = [(n, raw, pool)] → (s.link p).macCut = [] → numAt l 4 4 = n → bitOf (numAt l 1 1) 0 = 0 → (l.drop 8).take 16 = hopTag (s.keyValue (hopSlot p)) (s.peerD p) n raw →
      let v := (s.setLink p { s.link p with macHeld := [], macCut := [] }).heldBuf p raw pool
      v.1.cell = cellOf raw ∧ v.1.acct = Port.idx p ∧ v.1.pool = pool ∧ exec (.hopMacRx p l) s = .next (s.after (v.2.forward p v.1 false true))) ∧
    (∀ n raw pool, (s.link p).macHeld = [(n, raw, pool)] → (s.link p).macCut = [] → ∃ u, exec (.hopMacTimeout p) s = .next (s.after u) ∧ (u.link p).macHeld = [] ∧ dropped u) ∧
    ((s.link p).macHeld = [] → (s.link p).macCut = [] → exec (.hopMacTimeout p) s = .next (s.after s))

/-- R96, R99, R100, R107, R108. -/
def Obligations.HomeLossAndRehome : Prop :=
  ∀ (s : State) (p : Port) (c : Cell), s.life = .running →
    let v := s.copied p c
    let ch := chainOf p
    let heard : Prop := s.hears p c = true
    let missMax := s.rd1 Pg.chn CHN.CHN_CFG_hb_miss_max
    let taken (w : State) (k : Nat) : Prop := (w.headChain k).home = true ∧ (w.headChain k).standby = false ∧ (w.headChain k).dir = [] ∧ w.addr = 0 ∧ w.rd Pg.chn (CHN.CHAIN_STAT_state k) = 1
    let told (u : State) : Prop := u.chain.homePrio = ccArg c 16 1 % 16 ∧ u.chain.standbyId = if bitOf (ccArg c 17 1) 0 = 1 then ccArg c 24 8 else 0
    (heard → v.mode = .hub → v.fromHome p c = true → ∃ u, exec (.heartbeatRx p c) s = .next (s.after u) ∧ u.rd Pg.chn CHN.CHN_STAT_hb_missed = 0 ∧ u.chain.hbSeen = true ∧ u.chain.hbNow = true ∧ told u) ∧
    (heard → s.mode = .head → s.fromHome p c = true → ∃ u, exec (.heartbeatRx p c) s = .next (s.after u) ∧ (u.headChain ch).missed = 0 ∧ (u.headChain ch).hbSeen = true ∧ (u.headChain ch).hbNow = true ∧
      told u ∧ u.rd Pg.chn CHN.CHN_STAT_hb_missed = (if (s.headChain (1 - ch)).standby then (s.headChain (1 - ch)).missed else 0) % 16) ∧
    (heard → v.mode = .hub → v.fromHome p c = false → ∃ u, exec (.heartbeatRx p c) s = .next (s.after u) ∧ v.counted u Pg.chn CHN.CHN_STAT_foreign ∧ u.chain.hbNow = v.chain.hbNow) ∧
    (s.mode = .hub → s.homed = true → s.chain.hbSeen = true → missMax ≤ s.rd Pg.chn CHN.CHN_STAT_hb_missed → ∃ w : State,
      exec .hbMiss s = .next (s.after (if w.routed s.tdRole then w.sendHomeLost s.tdRole 2 else w)) ∧ s.lostHome w ∧ w.raised Pg.chn CHN.ev_hb_miss) ∧
    (s.mode = .hub → s.homed = true → s.chain.hbSeen = false → ∃ w : State,
      exec .hbFirstTimeout s = .next (s.after (if w.routed s.tdRole then w.sendHomeLost s.tdRole 2 else w)) ∧ s.lostHome w) ∧
    (∀ k : Fin 2, s.mode = .head → (s.headChain k.val).standby = true → (s.headChain k.val).hbSeen = true → missMax ≤ (s.headChain k.val).missed → s.missDue (1 - k.val) = false →
      ∃ w : State, exec .hbMiss s = .next (s.after (w.sendRehome k.val)) ∧ taken w k.val ∧ w.raised Pg.chn CHN.ev_hb_miss) ∧
    (∀ k : Fin 2, s.mode = .head → (s.headChain k.val).standby = true → (s.headChain k.val).hbSeen = false →
      (s.listens (1 - k.val) = false ∨ s.hbBegun (1 - k.val) = true ∨ ∃ l, s.chain.firstWait = k :: l) →
      ∃ w : State, exec .hbFirstTimeout s = .next (s.after (w.sendRehome k.val)) ∧ taken w k.val) ∧
    (s.mode = .head → s.missDue 0 = true → s.missDue 1 = true → ∃ t, exec .hbMiss s = .next t) ∧
    ((∀ k : Fin 2, s.missDue k.val = false) → exec .hbMiss s = .next (s.after s)) ∧
    ((∀ k : Fin 2, s.listens k.val = true → s.hbBegun k.val = true) → exec .hbFirstTimeout s = .next (s.after s)) ∧
    (heard → v.mode = .hub → v.standbyHop p = false → v.homed = true → ∃ u, exec (.homeLostRx p c) s = .next (s.after u) ∧ v.lostHome u) ∧
    (heard → s.mode = .head → (s.headChain ch).standby = true → ∃ w : State, exec (.homeLostRx p c) s = .next (s.after (w.sendRehome ch)) ∧ taken w ch) ∧
    (let took (w : State) : Prop := w.homed = true ∧ w.addr = c.hops % 64 ∧ w.homeId = ccArg c 4 8 % 2 ^ 64 ∧ w.chain.homePrio = ccArg c 12 1 % 16 ∧ w.tuRole = p ∧ w.rd Pg.chn CHN.CHN_STAT_chain = ccArg c 13 1 % 2
     (heard → v.mode = .hub → v.homed = false → ∃ w : State, exec (.rehomeRx p c) s = .next (s.after (((w.sendReply 0x16 (ccSeq c)).raise Pg.chn CHN.ev_rehomed).replyForP1200 0x16 (ccSeq c))) ∧ took w) ∧
     (heard → s.mode = .hub → s.homed = false → v.mode = .hub → v.homed = false → (v.link p).kx ≠ 1 → ∃ w : State, exec (.enumRx p c) s = .next (s.after (w.sendReply 0x11 (ccSeq c))) ∧ took w) ∧
     (heard → s.mode = .hub → s.homed = false → v.mode = .hub → v.homed = false → (v.link p).kx = 1 → ∃ u, exec (.enumRx p c) s = .next (s.after u) ∧ took u ∧ u.chain.replyDue = some (ccSeq c))) ∧
    (heard → s.mode = .head → (s.headChain ch).home = true →
      let e := dirEntOf (c.payload.drop 4)
      let answered (w : State) (a : Nat) : Prop := Tab.find a (w.headChain ch).dir = some e ∧ w.rd Pg.chn (CHN.CHAIN_STAT_state ch) = 2 ∧ w.raised Pg.chn CHN.ev_hub_added
      (isP12 e = false → ∃ w : State, exec (.rehomeAckRx p c) s = .next (s.after (w.ackRest ch c.shub ((s.headChain ch).asleep.contains c.shub) (s.vhg.silent.contains (hubKey ch c.shub)))) ∧ answered w c.shub) ∧
      (isP12 e = true → ∃ u, exec (.rehomeAckRx p c) s = .next (s.after u) ∧ answered u (c.shub + 1)) ∧
      (∃ u, exec (.standbyHelloRx p c) s = .next (s.after u) ∧ (u.headChain ch).standbyId = ccArg c 4 8 ∧ u.rd Pg.chn (CHN.CHAIN_STAT_standby ch) = 1))

/-- R96–R98, R110, R114, R118. -/
def Obligations.Enumeration : Prop :=
  ∀ (s : State) (p : Port) (c : Cell), s.life = .running →
    let ch := chainOf p
    let h := s.headChain ch
    let e := dirEntOf (c.payload.drop 4)
    let addr := if numAt c.payload 12 1 = 3 then c.shub + 1 else c.shub
    (s.hears p c = true → s.mode = .head → h.home = true → h.waiting = true → isP12 e = false →
      (e.part = 0 → ∃ u, exec (.enumReplyRx p c) s = .next (s.after u) ∧ Tab.find addr (u.headChain ch).dir = some e ∧ (u.headChain ch).waiting = false ∧
        u.rd Pg.chn (CHN.CHAIN_STAT_state ch) = 2 ∧ u.raised Pg.chn CHN.ev_hub_added ∧ u.raised Pg.chn CHN.ev_enum_done) ∧
      ((e.part = 1 ∨ e.part = 2) → ∃ w : State, exec (.enumReplyRx p c) s = .next (s.after (w.enumNext ch)) ∧ Tab.find addr (w.headChain ch).dir = some e ∧ w.raised Pg.chn CHN.ev_hub_added)) ∧
    (∀ ch : Fin 2, s.mode = .head → (s.headChain ch.val).waiting = true → (s.headChain ch.val).resends < 3 → ∃ w : State, exec (.enumResend ch) s = .next (s.after (w.enumCell ch.val)) ∧
      (w.headChain ch.val).resends = (s.headChain ch.val).resends + 1 ∧ w.regs = s.regs) ∧
    (∀ ch : Fin 2, s.mode = .head → (s.headChain ch.val).waiting = true → 3 ≤ (s.headChain ch.val).resends → ∃ u, exec (.enumResend ch) s = .next (s.after u) ∧ (u.headChain ch.val).waiting = false ∧
      u.raised Pg.chn CHN.ev_enum_fail ∧ u.rd Pg.chn (CHN.CHAIN_STAT_state ch.val) = 2) ∧
    (∀ ch : Fin 2, (s.headChain ch.val).waiting = false → exec (.enumResend ch) s = .next (s.after s)) ∧
    (∀ ch : Fin 2, (s.trunk (portOfChain ch.val)).isP1200 = true → (s.enumNext ch.val).raised Pg.chn CHN.ev_enum_fail ∧ (s.enumNext ch.val).rd Pg.chn (CHN.CHAIN_STAT_state ch.val) = 2 ∧
      ((s.enumNext ch.val).headChain ch.val).waiting = false) ∧
    (s.hears p c = true → s.mode = .hub → s.homed = true → ccArg c 4 8 = s.homeId → s.routed s.tdRole = true → s.p1200Due s.tdRole = true → ∃ w : State,
      exec (.enumRx p c) s = .next (s.after (w.sendCore s.tuRole 0xA 2 0 0 (chainPayload 0x11 (ccSeq c) 24 (s.p1200Args s.tdRole)))) ∧ (w.trunk s.tdRole).assigned = true) ∧
    (s.mode = .hub → s.homed = true → s.chain.tdUpDue = true → s.routed s.tdRole = true → (s.link s.tdRole).kx ≠ 1 → (s.trunk s.tdRole).partner.isSome = true →
      ∃ w : State, exec .tdUpSend s = .next (s.after (w.chainSend s.tuRole 2 0 0x12 s.chain.seq 8 (leBytes 1 s.tdPartner))) ∧ w.chain.tdUpDue = false) ∧
    (s.chain.tdUpDue = false → exec .tdUpSend s = .next (s.after s)) ∧
    (s.hears p c = true → s.mode = .head → h.home = true →
      let part := ccArg c 4 1
      let dir := h.dir.map (fun x => (x.1, if x.1 = c.shub then { x.2 with part := part } else x.2))
      ((part = 1 ∨ part = 2) → ∃ w : State, exec (.tdUpRx p c) s = .next (s.after (w.enumNext ch)) ∧ (w.headChain ch).dir = dir) ∧
      (∀ x, part = 3 → (c.shub, x) ∈ h.dir → x.valid = true → ∃ u, exec (.tdUpRx p c) s = .next (s.after u) ∧ (u.headChain ch).dir = dir ∧ u.rd Pg.chn (CHN.CHAIN_STAT_standby ch) = 1) ∧
      (part = 4 → ∃ u, exec (.tdUpRx p c) s = .next (s.after u) ∧ (u.headChain ch).dir = dir ∧ (u.headChain ch).boundaryAt = c.shub)) ∧
    (s.chain.armed = [] → exec .reenumApply s = .next (s.after s)) ∧
    (∀ a rest, s.chain.armed = a :: rest → a.cmd = 6 →
      (s.mode = .hub → s.homed = true → ∃ u, exec .reenumApply s = .next (s.after u) ∧ s.lostHome u ∧ u.chain.armed = rest) ∧
      (s.mode = .head → a.arg < 128 → ∃ w : State, exec .reenumApply s = .next (s.after (w.enumNext (a.arg / 64))) ∧
        (w.headChain (a.arg / 64)).dir = (s.headChain (a.arg / 64)).dir.filter (fun e => e.1 < if a.arg % 64 = 63 then 1 else a.arg % 64)))

/-- R100–R102, R104, R105, R122. -/
def Obligations.ChainTime : Prop :=
  ∀ (s : State), s.life = .running →
    (∀ p c, s.hears p c = true → (s.copied p c).mode = .hub →
      let v := s.copied p c
      let off := v.timeOffset p c
      let rtt := v.rd (Pg.lnk p) LNK.RTT_rtt_ns
      (v.fromHome p c = false → exec (.timeCellRx p c) s = .next (s.after v.foreign)) ∧
      (v.fromHome p c = true → rtt = 0 → exec (.timeCellRx p c) s = .next (s.after v)) ∧
      (v.fromHome p c = true → rtt ≠ 0 → ∃ u, exec (.timeCellRx p c) s = .next (s.after u) ∧ u.rd Pg.ctim CTIM.CTIM_STAT_free = 0 ∧ u.rd Pg.ctim CTIM.OFFSET_offset = unsigned 32 off ∧
        u.chain.lockCnt = min (if off.natAbs < 10 then v.chain.lockCnt + 1 else 0) 16 ∧ (off.natAbs < 10 → 15 ≤ v.chain.lockCnt → u.on Pg.ctim CTIM.CTIM_STAT_locked = true) ∧
        (off.natAbs ≤ 100 * v.rd1 Pg.ctim CTIM.CTIM_CFG_step_thr → u.chain.slew = off * 10 ^ 9 ∧ u.chain.pendStep = v.chain.pendStep) ∧
        (100 * v.rd1 Pg.ctim CTIM.CTIM_CFG_step_thr < off.natAbs → u.chain.slew = 0 ∧ u.chain.pendStep = some off) ∧ u.chain.time = v.chain.time)) ∧
    (s.mode = .head → exec .ctimSetGo s = .next (s.after { s with chain := { s.chain with setDue := true } })) ∧
    (s.mode ≠ .head → exec .ctimSetGo s = .next (s.after s)) ∧
    (∀ rd wr busy ack, ∃ v : State, exec (.epochBoundary rd wr busy ack) s = .next (s.after (((v.accrue (v.now - s.now)).nicPump.pauseEnds).atBoundary rd wr busy ack)) ∧
      v.chain.time = (s.chain.time / s.epochLen + 1) * s.epochLen ∧ v.now - s.now = v.chain.time - s.chain.time) ∧
    (∀ a rest, s.chain.armed = a :: rest → a.cmd = 4 → a.arg ≤ 5 → ∃ u, exec .setEpochApply s = .next (s.after u) ∧ u.rd Pg.ctim CTIM.CTIM_CFG_epoch_code = a.arg ∧ u.sched.nxt = none ∧
      u.raised Pg.ctim CTIM.ev_epoch_change ∧ u.chain.armed = rest) ∧
    (s.chain.armed = [] → exec .setEpochApply s = .next (s.after s)) ∧
    (∀ off, s.mode = .hub → s.chain.pendStep = some off → s.timeStep.chain.time = ((s.chain.time : Int) + off).toNat % 2 ^ 64 ∧ s.timeStep.chain.pendStep = none ∧
      s.counted s.timeStep Pg.ctim CTIM.CTIM_STAT_steps ∧ s.timeStep.raised Pg.ctim CTIM.ev_step) ∧
    (let free := s.on Pg.ctim CTIM.CTIM_STAT_free
     let lim := s.epochLen * s.rd1 Pg.ctim CTIM.CTIM_CFG_slew_ppm / 10 ^ 6
     s.mode = .hub → s.chain.pendStep = none → s.chain.frac < 10 ^ 9 → s.chain.time + lim + 1 < 2 ^ 64 →
      (free = true → s.timeStep = s.trimTime (s.epochLen * s.chain.freq)) ∧
      (free = false → ((s.timeStep.chain.time : Int) - s.chain.time).natAbs ≤ lim + 1 ∧ s.timeStep.chain.frac < 10 ^ 9))

/-- R111, R112, R116, R117. -/
def Obligations.HandoverAndGasp : Prop :=
  ∀ (s : State), s.life = .running →
    let lostReq (u : State) : Prop := u.chain.reqChain = 0 ∧ u.rd Pg.chn CHN.HANDOVER_status = 3 ∧ u.raised Pg.chn CHN.ev_handover_lost
    (∀ ch : Fin 2, s.mode ≠ .head → exec (.handoverRequest ch) s = .next (s.after s)) ∧
    (∀ ch : Fin 2, s.mode = .head → (s.headChain ch.val).home = false → (s.headChain ch.val).standby = false → ∃ u, exec (.handoverRequest ch) s = .next (s.after u) ∧ u.rd Pg.chn CHN.HANDOVER_status = 4 ∧ u.outbox = s.outbox ∧ u.gran = s.gran) ∧
    (∀ ch : Fin 2, s.mode = .head → (s.headChain ch.val).home = true → s.rd Pg.chn (CHN.CHAIN_STAT_standby ch.val) = 0 → ∃ u, exec (.handoverRequest ch) s = .next (s.after u) ∧
      u.rd Pg.chn CHN.HANDOVER_status = 4 ∧ u.outbox = s.outbox ∧ u.gran = s.gran) ∧
    (∀ ch : Fin 2, s.mode = .head → (s.headChain ch.val).standby = true → (s.headChain ch.val).home = false → ∃ w : State,
      exec (.handoverRequest ch) s = .next (s.after (w.chainSend (portOfChain ch.val) 2 63 0x17 s.chain.seq 16 (leBytes 8 s.devId ++ leBytes 1 (s.rd Pg.chn CHN.CHN_CFG_prio)))) ∧
      w.rd Pg.chn CHN.HANDOVER_status = 1 ∧ w.chain.reqChain = ch.val + 1) ∧
    (s.chain.reqChain = 0 → exec .arbitrationWindowEnd s = .next (s.after s)) ∧
    (∀ ch : Fin 2, s.chain.reqChain = ch.val + 1 → ∃ u, exec .arbitrationWindowEnd s = .next (s.after u) ∧
      u.chain.go = some { chain := ch.val, winner := s.devId, prio := s.rd Pg.chn CHN.CHN_CFG_prio, tgo := s.boundaryAfter (s.chain.time + s.window ch.val) }) ∧
    (∀ p c, s.hears p c = true → s.mode = .head → s.chain.reqChain = chainOf p + 1 →
      (better (ccArg c 12 1 % 16) (ccArg c 4 8) (s.rd Pg.chn CHN.CHN_CFG_prio) s.devId = true → ∃ u, exec (.handoverReqRx p c) s = .next (s.after u) ∧ lostReq u) ∧
      (better (ccArg c 12 1 % 16) (ccArg c 4 8) (s.rd Pg.chn CHN.CHN_CFG_prio) s.devId = false → exec (.handoverReqRx p c) s = .next (s.after s)) ∧
      (∃ u, exec (.handoverNakRx p c) s = .next (s.after u) ∧ lostReq u)) ∧
    (∀ p c, s.hears p c = true → (s.copied p c).mode = .hub →
      let v := s.copied p c
      (∀ g, v.homed = true → v.knownHead (ccArg c 4 8) = true → v.chain.goDone = some g → v.chain.time ≤ g.tgo + v.window g.chain →
        exec (.handoverReqRx p c) s = .next (s.after (v.chainSend p (if ccArg c 4 8 = v.homeId then 2 else 1) 63 0x19 (ccSeq c) 16 (leBytes 8 g.winner)))) ∧
      (v.homed = true → v.knownHead (ccArg c 4 8) = true → exec (.handoverGoRx p c) s = .next (s.after { v with chain := { v.chain with
        go := some { chain := v.rd Pg.chn CHN.CHN_STAT_chain, winner := ccArg c 4 8, prio := ccArg c 12 1 % 16, tgo := ccArg c 16 8 } } })) ∧
      ((v.homed = false ∨ v.knownHead (ccArg c 4 8) = false) → exec (.handoverGoRx p c) s = .next (s.after v.foreign))) ∧
    (s.chain.go = none → exec .handoverAtTGo s = .next (s.after s)) ∧
    (∀ g, s.chain.go = some g → s.mode = .hub → s.homed = true → g.winner ≠ s.homeId → ∃ u, exec .handoverAtTGo s = .next (s.after u) ∧ s.lostHome u ∧ u.chain.go = none ∧ u.chain.goDone = some g) ∧
    (∀ g, s.chain.go = some g → s.mode = .hub → g.winner = s.homeId → exec .handoverAtTGo s = .next (s.after { s with chain := { s.chain with go := none, goDone := some g } })) ∧
    (∀ g, s.chain.go = some g → s.mode = .head → g.winner = s.devId → (s.headChain g.chain).home = true → ∃ u, exec .handoverAtTGo s = .next (s.after u) ∧
      u.rd Pg.chn CHN.HANDOVER_status = 2 ∧ u.raised Pg.chn CHN.ev_handover_won ∧ u.chain.reqChain = 0 ∧ u.chain.goDone = some g) ∧
    (∀ g, s.chain.go = some g → s.mode = .head → g.winner ≠ s.devId → (s.headChain g.chain).home = true → ∃ u, exec .handoverAtTGo s = .next (s.after u) ∧
      (u.headChain g.chain).home = false ∧ (u.headChain g.chain).dir = [] ∧ ((u.headChain g.chain).standby = true ↔ s.on Pg.chn CHN.CHN_CFG_standby_en = true)) ∧
    (s.chain.gaspLeft = 0 → exec .dyingGaspRepeat s = .next (s.after s)) ∧
    (s.chain.gaspLeft ≠ 0 → s.mode = .hub → s.homed = true → s.routed s.tuRole = true → ∃ u, exec .dyingGaspRepeat s = .next (s.after u) ∧ u.raised Pg.chn CHN.ev_gasp_tx ∧ u.chain.gaspLeft = s.chain.gaspLeft - 1) ∧
    (∀ p c, s.hears p c = true → s.mode = .head → (s.headChain (chainOf p)).home = true → c.shub < 64 → ∃ u, exec (.dyingGaspRx p c) s = .next (s.after u) ∧ u.rd Pg.chn CHN.GASP_LOG1_gasp_addr = c.shub ∧
      u.rd Pg.chn CHN.GASP_LOG1_gasp_cause = ccArg c 12 1 % 256 ∧ u.rd Pg.chn CHN.GASP_LOG2_gasp_time = ccArg c 16 4 % 2 ^ 32 ∧ u.raised Pg.chn CHN.ev_gasp_rx ∧
      (c.shub, s.chain.time) ∈ (u.headChain (chainOf p)).gasps)

/-- R95, R118, R119, R427. -/
def Obligations.ChainCommands : Prop :=
  ∀ (s : State), s.life = .running →
    let tgo := s.rd Pg.chn CHN.CMD_TIME_LO_t_go_lo + 2 ^ 32 * s.rd Pg.chn CHN.CMD_TIME_HI_t_go_hi
    let early : Prop := tgo < s.chain.time + 2000 * s.rd Pg.chn CHN.CMD_TMO_cmd_tmo_us
    let failed (u : State) (bad cause : Nat) : Prop := u.rd Pg.chn CHN.CMD_STAT_st = 3 ∧ u.rd Pg.chn CHN.CMD_STAT_first_bad = bad ∧ u.rd Pg.chn CHN.CMD_STAT_cause = cause ∧ u.raised Pg.chn CHN.ev_cmd_fail
    let sends (i : Instr) (v cmd : Nat) : Prop :=
      (s.mode ≠ .head → exec i s = .next (s.after s)) ∧
      (s.mode = .head → early → ∃ u, exec i s = .next (s.after u) ∧ failed u 0 0x11) ∧
      (s.mode = .head → ¬ early → ((cmd = 2 ∨ cmd = 3) → bitsOf v 29 24 = 63) → ∃ u, exec i s = .next (s.after u) ∧ u.rd Pg.chn CHN.CMD_STAT_st = 1 ∧ u.chain.cmdCode = cmd ∧ u.chain.cmdSeq = s.chain.seq ∧
        u.chain.cmdWait = s.cmdTargets (bitOf v 30) (bitsOf v 29 24) cmd) ∧
      (s.mode = .head → ¬ early → (cmd = 2 ∨ cmd = 3) → bitsOf v 29 24 ≠ 63 →
        (s.headChain (bitOf v 30)).dir.any (fun e => bitsOf v 29 24 < e.1 && e.2.valid && !(s.headChain (bitOf v 30)).asleep.contains e.1) = true → ∃ u, exec i s = .next (s.after u) ∧ failed u (bitsOf v 29 24) 0x10)
    (∀ v, sends (.cmdPing v) v 1 ∧ sends (.cmdSleepP2 v) v 2 ∧ sends (.cmdSleepP3 v) v 3 ∧ sends (.cmdSetEpoch v) v 4 ∧ sends (.cmdHubReset v) v 5 ∧ sends (.cmdReenum v) v 6) ∧
    (∀ p c, s.hears p c = true → (s.copied p c).mode = .hub → (s.copied p c).fromHome p c = true →
      let v := s.copied p c
      let cmd := ccArg c 4 1
      let arg := ccArg c 6 2
      let t := ccArg c 8 8
      (6 < cmd → exec (.cmdRx p c) s = .next (s.after (v.cmdAck (ccSeq c) 3 cmd))) ∧
      (cmd = 5 → t < v.chain.time → exec (.cmdRx p c) s = .next (s.after (v.cmdAck (ccSeq c) 2 cmd))) ∧
      ((cmd = 2 ∨ cmd = 3) → v.chain.time ≤ t → v.sleepRefusal ≠ 0 → ∃ w : State, exec (.cmdRx p c) s = .next (s.after (w.cmdAck (ccSeq c) 1 cmd)) ∧ w.rd Pg.pws PWS.PWS_STAT_refuse = v.sleepRefusal ∧
        v.counted w Pg.pws PWS.SLEEP_CNT_refusals ∧ w.chain.armed = v.chain.armed) ∧
      (2 ≤ cmd → cmd ≤ 6 → v.chain.time ≤ t → (cmd = 4 → arg ≤ 5 ∧ t % 1000000 = 0) → ((cmd = 2 ∨ cmd = 3) → v.sleepRefusal = 0) → ∃ w : State,
        exec (.cmdRx p c) s = .next (s.after (w.cmdAck (ccSeq c) 0 cmd)) ∧ w.chain.armed = v.chain.armed ++ [{ seq := ccSeq c, cmd := cmd, arg := arg, tgo := t }]) ∧
      exec (.cancelRx p c) s = .next (s.after { v with chain := { v.chain with armed := v.chain.armed.filter (fun a => a.seq != ccSeq c) } })) ∧
    (∀ p c, s.hears p c = true → s.mode = .head → s.chain.cmdChain = chainOf p + 1 → ccSeq c = s.chain.cmdSeq → s.rd Pg.chn CHN.CMD_STAT_st = 1 → c.shub ∈ s.chain.cmdWait → s.chain.cmdCode ≠ 2 → s.chain.cmdCode ≠ 3 →
      let left := s.chain.cmdWait.filter (· != c.shub)
      (ccArg c 4 1 = 0 → ∃ u, exec (.cmdAckRx p c) s = .next (s.after u) ∧ u.chain.cmdWait = left ∧ u.rd Pg.chn CHN.CMD_STAT_acked = (s.rd Pg.chn CHN.CMD_STAT_acked + 1) % 64 ∧
        (left = [] → u.rd Pg.chn CHN.CMD_STAT_st = 2 ∧ u.raised Pg.chn CHN.ev_cmd_done) ∧ (left ≠ [] → u.rd Pg.chn CHN.CMD_STAT_st = 1)) ∧
      (ccArg c 4 1 ≠ 0 → c.shub < 64 → ccArg c 4 1 < 256 → ∃ u, exec (.cmdAckRx p c) s = .next (s.after u) ∧ failed u c.shub (ccArg c 4 1))) ∧
    (∀ a, s.mode = .head → s.rd Pg.chn CHN.CMD_STAT_st = 1 → s.chain.cmdWait.min? = some a → a < 64 → s.chain.cmdCode ≠ 2 → s.chain.cmdCode ≠ 3 → ∃ u, exec .cmdTimeout s = .next (s.after u) ∧ failed u a 0x12) ∧
    (s.chain.cmdWait = [] → exec .cmdTimeout s = .next (s.after s))

/-- R150–R154, R161, R175. -/
def Obligations.TunnelEntries : Prop :=
  ∀ (s : State), s.life = .running →
    let n := s.rd Pg.tun0 TUN.TUN_SEL_tunnel
    let answers (i : Instr) (code : Nat) : Prop := ∃ v : State, exec i s = .next (s.after v.takeEnded) ∧ v.rd Pg.tun0 TUN.TUN_STAT_result = code ∧ v.sched = s.sched
    let refused (i : Instr) : Prop := ∃ v : State, exec i s = .next (s.after v.takeEnded) ∧ v.rd Pg.tun0 TUN.TUN_STAT_result = 0x02 ∧ v.sched = s.sched ∧ s.counted v Pg.alt ALT.ALT_CNT_refusals ∧ v.raised Pg.tun0 TUN.ev_refused
    (s.mode = .hub → answers .tunWrite 0x0C ∧ answers .tunDelete 0x0C ∧ answers .tunWriteParams 0x0C ∧ exec .tunRead s = .next (s.after (s.wr Pg.tun0 TUN.TUN_STAT_result 0x0C))) ∧
    (s.mode = .head → s.on Pg.tun0 TUN.TUN_STAT_busy = true → answers .tunWrite 0x01 ∧ answers .tunDelete 0x01 ∧ answers .tunWriteParams 0x01) ∧
    (s.mode = .head → s.on Pg.tun0 TUN.TUN_STAT_busy = false → n < 16 → refused .tunWrite ∧ refused .tunDelete ∧ refused .tunWriteParams) ∧
    (s.mode = .head → s.on Pg.tun0 TUN.TUN_STAT_busy = false → ∃ u, exec .tunRead s = .next (s.after u) ∧ u.rd Pg.tun0 TUN.TUN_STAT_result = 0 ∧ u.sched = s.sched ∧
      u.rd Pg.tun0 (TUN.TUN_DATA_data 0) = (s.tunShown n).w0 % 2 ^ 32 ∧ u.rd Pg.tun0 (TUN.TUN_DATA_data 1) = (s.tunShown n).w1 % 2 ^ 32 ∧
      u.rd Pg.tun0 (TUN.TUN_DATA_data 2) = (s.tunShown n).w2 % 2 ^ 32 ∧ u.rd Pg.tun0 (TUN.TUN_DATA_data 3) = (s.tunShown n).w3 % 2 ^ 32) ∧
    (s.mode = .head → s.on Pg.tun0 TUN.TUN_STAT_busy = false →
      (16 ≤ n → s.movesClass n s.tunData = true → ∃ v : State, exec .tunWrite s = .next (s.after v.takeEnded) ∧ v.rd Pg.tun0 TUN.TUN_STAT_result = 0x07 ∧ v.sched = s.sched ∧
        s.counted v Pg.alt ALT.ALT_CNT_refusals ∧ v.raised Pg.tun0 TUN.ev_refused) ∧
      (s.movesClass n s.tunData = false → s.admission n s.tunData = 0 → ∃ v : State, exec .tunWrite s = .next (s.after v.takeEnded) ∧ v.cfgEnt n = s.tunData) ∧
      (16 ≤ n → ∃ v : State, exec .tunDelete s = .next (s.after v.takeEnded) ∧ v.cfgEnt n = {}) ∧
      (let e := { s.cfgEnt n with w2 := s.tunData.w2, w3 := s.tunData.w3 }
       s.movesClass n e = false → s.admission n e = 0 → ∃ v : State, exec .tunWriteParams s = .next (s.after v.takeEnded) ∧
        v.cfgEnt n = e)) ∧
    (s.mode = .standalone → admitAlone n s.tunData.w0 s.tunData.w2 s.tunData.w3 = 0 → Tun.v s.tunData.w0 = true → s.lacksOwn s.tunData.w0 true true = true → answers .tunWrite 0x03) ∧
    (s.mode = .standalone → n < 4096 → admitAlone n s.tunData.w0 s.tunData.w2 s.tunData.w3 = 0 → Tun.v s.tunData.w0 = true → s.lacksOwn s.tunData.w0 true true = false → ∃ v : State, exec .tunWrite s = .next (s.after v.takeEnded) ∧
      v.half n 0 = Tun.bare s.tunData.w0 ∧ (v.tunEnt n).w2 = s.tunData.w2 ∧ v.bit1 TUN1.VALID0_valid0 n = true ∧ v.rd Pg.tun0 TUN.TUN_STAT_result = 0) ∧
    (∀ p c, s.hears p c = true → (s.copied p c).notHomes p c = true → exec (.tunnelEntryMsgRx p c) s = .next (s.after (s.copied p c).foreign)) ∧
    (∀ p c, s.hears p c = true → (s.copied p c).mode = .hub → (s.copied p c).homed = true → (s.copied p c).notHomes p c = false →
      let v := s.copied p c
      let t := numAt c.payload 4 2 % 4096
      let word := numAt c.payload 8 4
      let answer (w : State) (code status : Nat) := w.sendCore w.tuRole 0xA 5 0 0 (leBytes 1 code ++ [0] ++ leBytes 2 (numAt c.payload 2 2) ++ leBytes 1 status ++ [0, 0, 0])
      (numAt c.payload 0 1 = 1 → v.refusesEntry word = true → exec (.tunnelEntryMsgRx p c) s = .next (s.after (answer v 0x81 1))) ∧
      (numAt c.payload 0 1 = 1 → v.refusesEntry word = false → ∃ w : State, exec (.tunnelEntryMsgRx p c) s = .next (s.after (answer w 0x81 0)) ∧ w.half t 0 = Tun.bare word ∧
        w.bit1 TUN1.VALID0_valid0 t = Tun.v word ∧ w.raised Pg.tun0 TUN.ev_tun_set ∧ ∀ m, m ≠ t → w.tunEnt m = v.tunEnt m) ∧
      (numAt c.payload 0 1 = 2 → ∃ w : State, exec (.tunnelEntryMsgRx p c) s = .next (s.after (answer w 0x82 0)) ∧ w.half t 0 = 0 ∧ w.bit1 TUN1.VALID0_valid0 t = false ∧ w.raised Pg.tun0 TUN.ev_tun_set) ∧
      (numAt c.payload 0 1 ≠ 1 → numAt c.payload 0 1 ≠ 2 → exec (.tunnelEntryMsgRx p c) s = .next (s.after v))) ∧
    (∀ p c o, s.hears p c = true → s.mode = .head → s.sched.op = some o → chainOf p = o.step.half → numAt c.payload 0 1 = (if o.step.del then 0x82 else 0x81) → o.wait = [(c.shub, numAt c.payload 2 2)] →
      numAt c.payload 4 1 = 0 → exec (.tunnelEntryAnswerRx p c) s = .next (s.after (((s.setOp (some { o with wait := [], did := o.did ++ [c.shub] })).goJobs).takeEnded))) ∧
    (∀ o, s.sched.op = some o → o.phase ≠ 3 → o.wait ≠ [] → o.resends < 3 → ∃ v : State, exec .tunnelEntryResend s = .next (s.after v.takeEnded) ∧ v.sched.op = some { o with resends := o.resends + 1 }) ∧
    (∀ o hub, s.sched.op = some o → o.phase ≠ 3 → (o.wait.map (·.1)).min? = some hub → 3 ≤ o.resends → hub < 64 → ∃ v : State, exec .tunnelEntryResend s = .next (s.after v.goJobs.takeEnded) ∧
      v.rd Pg.tun0 TUN.TUN_FAIL_hub = hub ∧ v.raised Pg.tun0 TUN.ev_tun_fail ∧ v.sched.op = none ∧
      (o.step.tunnel < 4096 → o.step.half < 2 → v.bit1 (validMap o.step.half) o.step.tunnel = false)) ∧
    (∀ o, s.sched.op = some o → o.phase = 3 → exec .tunnelDeleteWaitEnd s = .next (s.after ((s.setOp (some { o with wait := [] })).goJobs.takeEnded))) ∧
    (s.sched.op = none → exec .tunnelDeleteWaitEnd s = .next (s.after s.takeEnded) ∧ exec .tunnelEntryResend s = .next (s.after s.takeEnded))

/-- R156, R164, R166–R168, R442, R514. -/
def Obligations.ReportsAndTables : Prop :=
  ∀ (s : State), s.life = .running →
    (∀ p (shub : Fin 64) l, s.mode = .head → (s.headChain (chainOf p)).home = true → ∃ u, exec (.demandReportRx p shub l) s = .next (s.after u) ∧
      Tab.find (64 * chainOf p + shub.val) u.sched.reports = some { reportOf l with came := s.epochNow, gap := s.rptGap (64 * chainOf p + shub.val) (reportOf l) } ∧
      (s.pastCutoff = true → s.counted u Pg.alt ALT.RPT_STAT_rpt_late ∧ u.raised Pg.alt ALT.ev_rpt_late) ∧ (s.pastCutoff = false → u.regs = s.regs)) ∧
    (∀ p c, s.hears p c = true → s.mode = .head → (s.headChain (chainOf p)).home = true → numAt c.payload 0 1 = 0x45 → numAt c.payload 1 1 ≠ 3 → ∃ u, exec (.linkReportRx p c) s = .next (s.after u) ∧ u.regs = s.regs ∧
      Tab.find ((64 * chainOf p + c.shub) * 2 + numAt c.payload 2 1 % 2) u.sched.links = some { mode := numAt c.payload 3 1 / 16, rx := numAt c.payload 3 1 / 4 % 4, tx := numAt c.payload 3 1 % 4, rtt := numAt c.payload 4 4, isTu := decide (bitOf (numAt c.payload 2 1) 7 = 1), time := numAt c.payload 8 4 }) ∧
    (∀ ch : Fin 2, (s.mode ≠ .head ∨ (s.headChain ch.val).home = false) → exec (.allotterCompute ch) s = .next (s.after s)) ∧
    (∀ ch : Fin 2, s.mode = .head → (s.headChain ch.val).home = true → ∃ u, exec (.allotterCompute ch) s = .next (s.after u) ∧ ch.val ∈ u.sched.tablesDue ∧ u.rd Pg.alt ALT.LAST_EPOCH_last_epoch = s.epochNow % 2 ^ 32) ∧
    (∀ p shub l, s.mode ≠ .hub → exec (.allotmentTableRx p ⟨shub, l⟩) s = .next (s.after s)) ∧
    (∀ p (shub : Fin 64) l, s.mode = .hub → (s.homed = false ∨ shub ≠ 0 ∨ p ≠ s.tuRole) → exec (.allotmentTableRx p ⟨shub, l⟩) s = .next (s.after s.foreign)) ∧
    (∀ l, s.mode = .hub → s.homed = true → s.sched.tblIn = none → numAt l 8 1 / 16 ≤ 1 →
      let ahead := serialDist 32 (s.epochNow % 2 ^ 32) (numAt l 4 4)
      let late : Prop := 2 ^ 31 ≤ ahead ∨ ahead = 0 ∨ (s.epochNow + ahead) * s.epochLen < s.chain.time + 50000
      let full : Prop := bitOf (numAt l 9 1) 0 = 1
      let discards (u : State) (e : Ev) : Prop := u.sched.nxt = s.sched.nxt ∧ u.rd Pg.sch SCH.BANK_NEXT_needs_full = 1 ∧ s.counted u Pg.sch SCH.SCH_CNT_discards ∧ u.raised Pg.sch e
      (late → ∃ u, exec (.allotmentTableRx s.tuRole ⟨0, l⟩) s = .next (s.after u) ∧ discards u SCH.ev_tbl_late) ∧
      (¬ late → ¬ full → numAt l 2 2 ≠ s.sched.cur.ver → numAt l 2 2 ≠ 0xFFFF → ∃ u, exec (.allotmentTableRx s.tuRole ⟨0, l⟩) s = .next (s.after u) ∧ discards u SCH.ev_tbl_base) ∧
      (¬ late → full → ∃ u, exec (.allotmentTableRx s.tuRole ⟨0, l⟩) s = .next (s.after u) ∧ u.rd Pg.sch SCH.BANK_NEXT_pending = 1 ∧ u.rd Pg.sch SCH.SWAP_EPOCH_swap_epoch = numAt l 4 4 % 2 ^ 32 ∧ u.sched.tblIn = none ∧
        u.sched.nxt = some { (tblRecs l (min 2044 (numAt l 10 2))).foldl (applyRec (Port.idx s.tuRole)) {} with ver := numAt l 0 2 })) ∧
    (∀ v, s.mode ≠ .head → exec (.altCfgWrite v) s = .next (s.after s) ∧ exec (.hopFactorWrite v) s = .next (s.after s)) ∧
    (∀ v, s.mode = .head → 15 < bitsOf v 27 24 + bitsOf v 31 28 → exec (.altCfgWrite v) s = .next (s.after (s.raise Pg.alt ALT.ev_cfg_err))) ∧
    (∀ v, s.mode = .head → bitsOf v 27 24 + bitsOf v 31 28 ≤ 15 → (∀ ch h, ch < 2 → h ∈ s.hops ch → (Tab.find (hopKey ch h) (s.gUse ch 4096)).getD 0 ≤ s.gcap ch h (bitsOf v 31 28)) → ∃ w : State, exec (.altCfgWrite v) s = .next (s.after w.spreadShares) ∧
      w.rd Pg.alt ALT.ALT_CFG_g_share = bitsOf v 31 28 ∧ w.rd Pg.alt ALT.ALT_CFG_m_share = bitsOf v 27 24 ∧ w.rd Pg.alt ALT.ALT_CFG_t_share = bitsOf v 23 20 ∧ w.rd Pg.alt ALT.ALT_CFG_hold = bitOf v 0) ∧
    (∀ v, s.mode = .head → ∃ u, exec (.hopFactorWrite v) s = .next (s.after u) ∧ u.hopF s.selHop = max (s.rd1 Pg.alt ALT.HOP_LOOP_f_min) (min 256 (bitsOf v 8 0)) ∧
      (256 < bitsOf v 8 0 ∨ bitsOf v 8 0 < s.rd1 Pg.alt ALT.HOP_LOOP_f_min → s.selHop ∈ u.sched.hopPin ∧ u.raised Pg.alt ALT.ev_hop_pinned))

/-- R161, R165, R170: suspension keeps the guaranteed use within the share. -/
def Obligations.GAllotmentFits : Prop :=
  ∀ (s : State) (ch : Fin 2), s.life = .running → s.mode = .head → (s.headChain ch.val).home = true → s.lastHub ch.val ≤ 64 →
    ∃ u, exec (.allotterCompute ch) s = .next (s.after u) ∧ ∀ h, h ∈ s.hops ch.val → ∃ n, Tab.find (hopKey ch.val h) u.sched.hopUsed = some n ∧ n ≤ s.gcap ch.val h (s.rd Pg.alt ALT.ALT_CFG_g_share)

/-- R62, R63, R69, R78, R87, R89. -/
def Obligations.CellsOnTheWire : Prop :=
  let fits (c : Cell) : Prop := c.wf = true ∧ c.rsv0 < 16 ∧ c.rsv1 < 2 ∧ c.rsv2 < 64 ∧ c.rsv3 < 32 ∧ c.len = c.payload.length ∧ c.len ≤ 256 ∧
    (c.pad = [] ∨ c.pad.length = 256 - c.len ∧ c.pad.any (· != 0) = true)
  (∀ c : Cell, fits c → c.bytes.length = 280 ∧ cellOf c.bytes = c ∧ hopGood c.bytes = true ∧ hopAbort c.bytes = false ∧
    cellOf c.abortBytes = c ∧ hopGood c.abortBytes = false ∧ hopAbort c.abortBytes = true) ∧
  (∀ f : FCell, f.ptype < 16 → f.pcls < 4 → f.dhub < 64 → f.dport < 16 → f.shub < 64 → f.sport < 16 → f.chan < 4096 → f.lseq < 4096 → f.cseq < 128 → f.plen = f.data.length → f.plen ≤ 116 →
    f.bytes.length = 128 ∧ fcellOf f.bytes = f ∧ fcellGood f.bytes = true) ∧
  (∀ c : Cell, fits c → c.carrier.length ≤ 3 ∧ (∀ f, f ∈ c.carrier → f.plen = f.data.length ∧ f.plen ≤ 116) ∧ cellOfCarrier (c.carrier.flatMap (·.data)) = { c with pad := [] })

/-- R69. -/
def Obligations.HopCrc : Prop :=
  crcHop [] = 0 ∧
  (∀ l b, crcHop (l ++ [b]) = [7, 6, 5, 4, 3, 2, 1, 0].foldl (fun r i => if r.testBit 15 != b.toNat.testBit i then (2 * r % 2 ^ 16) ^^^ 0x8BB7 else 2 * r % 2 ^ 16) (crcHop l)) ∧
  crcHop (ascii "123456789") = 0xD0DB ∧
  (∀ c : Cell, c.bytes.length = 280 ∧ numAt c.bytes 276 2 = crcHop (c.bytes.take 276) ∧ c.bytes.take 276 = c.body)

/-- R7, R80, R179–R181, R185–R188, R193, R197, R208, R214, R215, R221, R470. -/
def Obligations.BridgedTransactions : Prop :=
  ∀ (s : State), s.life = .running →
    (∀ p (fn : Fin 3) slow c,
      let r := reqOf c
      let ch := s.chainIn p
      r.op ≠ opCpl →
      (r.badFormat = true → ∃ w : State, exec (.tRequestRx p slow ⟨fn, c⟩) s = .next (s.after (if r.posted then w.erlFail erFormat r else w.replyT ch r stUR 0 [])) ∧
        s.counted w Pg.xbr XBR.XBR_CNT3_fmt_err ∧ w.raised Pg.xbr XBR.ev_fmt_err) ∧
      (r.badFormat = false → r.psn = true → r.dport ≠ 8 → r.posted = false → exec (.tRequestRx p slow ⟨fn, c⟩) s = .next (s.after ((s.erlLog erPoison r).replyT ch r stCA 0 []))) ∧
      (r.badFormat = false → r.psn = false → r.dport = 7 → r.ticket = 0 → r.op = opMemRd → r.count = 4 → r.addr % 4 = 0 → r.addr < 0x200000 →
        let x := s.readWord (r.addr / 4096) (r.addr % 4096)
        (s.freeSlot = none → exec (.tRequestRx p slow ⟨fn, c⟩) s = .next (s.after (s.replyT ch r stRetry 0 []))) ∧
        (s.freeSlot ≠ none → slow = false → exec (.tRequestRx p slow ⟨fn, c⟩) s = .next (s.after (x.2.replyT ch r stSC 0 (leBytes 4 x.1)))) ∧
        (∀ n, s.freeSlot = some n → slow = true → ∃ w : State, exec (.tRequestRx p slow ⟨fn, c⟩) s = .next (s.after (w.retryTicket ch n r)) ∧ (w.dslot n).state = slPending ∧ (w.dslot n).done = true ∧
          (w.dslot n).st = stSC ∧ (w.dslot n).data = leBytes 4 x.1 ∧ (w.dslot n).req = r ∧ w.regs = x.2.regs)) ∧
      (r.badFormat = false → r.psn = false → r.dport = 6 → r.ticket = 0 → s.pxHeld p r = true → ∃ u, exec (.tRequestRx p slow ⟨fn, c⟩) s = .next (s.after u) ∧ u.xbr.pxHold = s.xbr.pxHold ++ [(p, r)] ∧ u.outbox = s.outbox) ∧
      (∀ n, r.badFormat = false → r.psn = false → r.dport = 6 → r.ticket = 0 → s.pxHeld p r = false → s.winIn r.addr r.count = some n → s.xbr.pxExt = none →
        (r.op = opMemWr → r.posted = true → ∃ u, exec (.tRequestRx p slow ⟨fn, c⟩) s = .next (s.after u) ∧ u.xbr.pxPosted = s.xbr.pxPosted ++ [s.pxOpOf p r n] ∧ u.xbr.pxWait = s.xbr.pxWait ∧ u.regs = s.regs) ∧
        (r.op = opMemRd → s.pxFull false = false → s.freeSlot ≠ none → ∃ u, exec (.tRequestRx p slow ⟨fn, c⟩) s = .next (s.after u) ∧ u.xbr.pxWait = s.xbr.pxWait ++ [s.pxOpOf p r n] ∧ u.xbr.pxPosted = s.xbr.pxPosted ∧ u.regs = s.regs) ∧
        (r.op = opMemRd → s.pxFull false = false → s.freeSlot = none → exec (.tRequestRx p slow ⟨fn, c⟩) s = .next (s.after (s.replyT ch r stRetry 0 []))) ∧
        (r.op = opMemRd → s.pxFull false = true → exec (.tRequestRx p slow ⟨fn, c⟩) s = .next (s.after (s.npRetry ch r)))) ∧
      (r.badFormat = false → r.psn = false → 1 ≤ r.dport → r.dport ≤ 4 → s.bayOn (r.dport - 1) = false → exec (.tRequestRx p slow ⟨fn, c⟩) s = .next (s.after (s.unsupported ch r)))) ∧
    (∀ (fn : Fin 3) c o,
      let r := reqOf c
      s.xbr.outst.find? (fun o => (initsOf c.dport fn.val).any (fun i => o.is i r.vhc r.tag)) = some o →
      (r.st = stRetry → o.init = 0 → o.answered = false → exec (.completionRx ⟨fn, c⟩) s = .next (s.after (s.setOut { o with retry := true, ticket := r.ticket }))) ∧
      (r.st = stRetry → o.answered = true → exec (.completionRx ⟨fn, c⟩) s = .next (s.after (s.dropOut o).pump)) ∧
      (r.st = stSC → r.psn = false → c.lst = true → o.init = 0 → o.req.wc = false → o.answered = false → ∃ w : State, exec (.completionRx ⟨fn, c⟩) s = .next (s.after w.pump.pxMeet) ∧
        w.outbox = s.outbox ++ [.hostCpl o.req.vhc stSC (o.got ++ r.data)] ∧ w.xbr.outst = s.xbr.outst.filter (fun x => !x.is o.init o.req.vhc o.req.tag)) ∧
      (r.st = stSC → r.psn = false → c.lst = false → o.req.op = 0 → exec (.completionRx ⟨fn, c⟩) s = .next (s.after (s.setOut { o with got := o.got ++ r.data })))) ∧
    (∀ (fn : Fin 3) c,
      let r := reqOf c
      s.xbr.outst = [] →
      (s.xbr.quar = [] → ∃ u, exec (.completionRx ⟨fn, c⟩) s = .next (s.after u) ∧ s.counted u Pg.xbr XBR.XBR_CNT1_unexp_cpl ∧ u.raised Pg.xbr XBR.ev_unexp_cpl ∧ u.xbr = s.xbr) ∧
      (∀ q, q ∈ s.xbr.quar → q.init ∈ initsOf c.dport fn.val → q.vhc = r.vhc → q.tag = r.tag → ∃ (w : State) (x : Quar), exec (.completionRx ⟨fn, c⟩) s = .next (s.after w.pump) ∧ s.counted w Pg.xbr XBR.XBR_CNT0_late_cpl ∧
        w.raised Pg.xbr XBR.ev_late_cpl ∧ w.xbr.quar = s.xbr.quar.filter (· != x) ∧ x ∈ s.xbr.quar)) ∧
    (∀ (i : Fin 11) (v : Vhc) tag o, s.xbr.outst.find? (fun o => o.is i.val v.val tag) = some o → ∃ w : State, exec (.completionTimeout i v tag) s = .next (s.after w.pump.pxMeet) ∧
      w.xbr.quar = s.xbr.quar ++ [{ init := i.val, vhc := v.val, tag := tag }] ∧ w.xbr.outst = s.xbr.outst.filter (fun x => !x.is o.init o.req.vhc o.req.tag) ∧
      s.counted w Pg.xbr XBR.XBR_CNT0_cpl_tmo ∧ w.raised Pg.xbr XBR.ev_cpl_tmo ∧ w.raised Pg.erl ERL.ev_entry) ∧
    (∀ (i : Fin 11) (v : Vhc) tag, s.xbr.outst = [] → exec (.completionTimeout i v tag) s = .next (s.after s) ∧ exec (.headReissue v tag) s = .next (s.after s) ∧ exec (.windowReadLimit v (some tag)) s = .next (s.after s)) ∧
    (∀ (i : Fin 11) (v : Vhc) tag, ∃ w : State, exec (.quarantineExpiry i v tag) s = .next (s.after w.pump) ∧ w.xbr.quar = s.xbr.quar.filter (fun q => !(q.init = i.val && q.vhc = v.val && q.tag = tag)) ∧ w.regs = s.regs) ∧
    (∀ (v : Vhc) tag o, s.xbr.outst.find? (fun o => o.is 0 v.val tag && o.retry) = some o → ∃ w : State, exec (.headReissue v tag) s = .next (s.after (w.sendT o.chain { o.req with ticket := o.ticket } true true)) ∧ w = s.setOut { o with retry := false }) ∧
    (∀ (v : Vhc) tag o, s.xbr.outst.find? (fun o => o.is 0 v.val tag && o.req.reads && !o.answered) = some o → o.retry = false → ∃ u, exec (.windowReadLimit v (some tag)) s = .next (s.after u) ∧
      u.outbox = s.outbox ++ [.hostCpl v.val stCA []] ∧ u.raised (Pg.vhc v.val) VHC.ev_rd_limit ∧ u.xbr = (s.setOut { o with answered := true }).xbr) ∧
    (∀ (v : Vhc) tag o, s.xbr.outst.find? (fun o => o.is 0 v.val tag && o.req.reads && !o.answered) = some o → o.retry = true → ∃ w : State, exec (.windowReadLimit v (some tag)) s = .next (s.after w.pump) ∧
      w.outbox = s.outbox ++ [.hostCpl v.val stCA []] ∧ w.raised (Pg.vhc v.val) VHC.ev_rd_limit ∧ w.xbr = (s.dropOut o).xbr) ∧
    (∀ (v : Vhc) o, (s.xbr.waitl ++ s.xbr.hostHeld).find? (fun o => o.init = 0 && o.req.vhc = v.val && o.req.reads) = some o → ∃ w : State, exec (.windowReadLimit v none) s = .next (s.after w.pump) ∧
      w.outbox = s.outbox ++ [.hostCpl v.val stCA []] ∧ w.raised (Pg.vhc v.val) VHC.ev_rd_limit ∧ w.xbr.waitl ++ w.xbr.hostHeld = (s.xbr.waitl ++ s.xbr.hostHeld).erase o) ∧
    (∀ v : Vhc, s.xbr.waitl = [] → s.xbr.hostHeld = [] → exec (.windowReadLimit v none) s = .next (s.after s)) ∧
    (∀ p c, s.hears p c = true → s.mode = .head →
      let w := (List.range 8).map (fun i => numAt c.payload (4 + 4 * i) 4)
      (s.vGen c.vhc ≠ c.gen → exec (.errorEventRx p c) s = .next (s.after (s.bump Pg.vhg VHG.GEN_CNT_stale_err 1))) ∧
      (s.vGen c.vhc = c.gen → bitsOf (w.getD 0 0) 15 8 ≠ erQReset → s.vState c.vhc = Machine.vActive → s.on (Pg.vhc c.vhc) VHC.EQ_CFG_en = true → c.vhc < 64 →
        (s.rd (Pg.vhc c.vhc) VHC.EQ_TAIL_tail % s.eqSize c.vhc + 1) % s.eqSize c.vhc ≠ s.rd (Pg.vhc c.vhc) VHC.EQ_HEAD_head % s.eqSize c.vhc →
        ∃ x : State, exec (.errorEventRx p c) s = .next (s.after (x.vecSignal c.vhc (s.rd (Pg.vhc c.vhc) VHC.EQ_CFG_vector))) ∧ s.counted x (Pg.vhc c.vhc) VHC.EQ_CNT_entries ∧ x.raised (Pg.vhc c.vhc) VHC.ev_eq_entry ∧
          x.outbox = s.outbox ++ [.hostWrite (c.vhc + 1) (s.rd (Pg.vhc c.vhc) VHC.EQ_LO_eq_lo * 32 + s.rd (Pg.vhc c.vhc) VHC.EQ_HI_eq_hi * 2 ^ 32 + 32 * (s.rd (Pg.vhc c.vhc) VHC.EQ_TAIL_tail % s.eqSize c.vhc)) (w.flatMap (leBytes 4))])) ∧
    (∀ v, (s.mode ≠ .head → exec (.quotaWrite v) s = .next (s.after s)) ∧
      (s.mode = .head → 4096 < s.quotaSum (s.rd Pg.xbr XBR.QUOTA_SEL_vhc) + bitsOf v 28 16 → exec (.quotaWrite v) s = .next (s.after (s.raise Pg.xbr XBR.ev_cfg_err))) ∧
      (s.mode = .head → s.quotaSum (s.rd Pg.xbr XBR.QUOTA_SEL_vhc) + bitsOf v 28 16 ≤ 4096 → ∃ w : State, exec (.quotaWrite v) s = .next (s.after w.pump) ∧ w.quotaOf (s.rd Pg.xbr XBR.QUOTA_SEL_vhc) = bitsOf v 28 16)) ∧
    exec .erlClr s = .next (s.after { s with xbr := { s.xbr with erl := [] } }) ∧
    (∀ (v : Vhc) (f : Fin 16) write off len data, s.mode = .head → s.vhg.perst = false →
      let w := s.dirCfg v.val f.val
      (s.vState v.val ≠ Machine.vActive → write = false → exec (.hostMmioRequest v f write off len data) s = .next (s.after (s.emit (.hostCpl v.val stUR [])))) ∧
      (s.vState v.val = Machine.vActive → dirV w = true → (s.vhcCtx v.val).gone = [] → off < 2 ^ (s.rd (Pg.vhc v.val) (VHC.DIR_APER_aper f.val) / 2 ^ 28 % 16 + 12) → s.xbr.wrErr = [] → dirKind w = 3 → write = false → 0 < len → len ≤ 4096 →
        exec (.hostMmioRequest v f write off len data) s = .next (s.after (s.issue { init := 0, slot := f.val, chain := dirChain w, req := { op := opMemRd, count := len, addr := off, tunnel := bitsOf (s.rd (Pg.vhc v.val) (VHC.DIR_TUN_tun f.val)) 27 16, vhc := v.val, gen := s.vGen v.val } })))) ∧
    (∀ tag st data p r, s.vhg.hostOut.find? (fun o => o.1 = tag) = some (tag, p, r) → ∃ w : State, exec (.hostCompletionRx tag st data) s = .next (s.after (w.replyT (s.chainIn p) r (st % 3) 0 (if st % 3 = stSC then data else []))) ∧
      w.vhg.hostOut = s.vhg.hostOut.filter (fun o => o.1 != tag) ∧ w.regs = s.regs)

/-- R189–R191, R194, R200–R204, R206. -/
def Obligations.PxBusAndSlots : Prop :=
  ∀ (s : State), s.life = .running →
    (s.on Pg.pxb PXB.PX_CFG_en = false → exec .pxInboundCycle s = .next (s.after s) ∧ exec .pxint s = .next (s.after s)) ∧
    (s.on Pg.pxb PXB.PX_CFG_en = true → exec .pxint s = .next (s.after (s.raise Pg.pxb PXB.ev_pxint))) ∧
    (∀ o rest x more, s.on Pg.pxb PXB.PX_CFG_en = true → s.pxOwner = 0 → o.xfers = x :: more →
      let starts (u : State) : Prop := u.pxOwner = 1 ∧ u.xbr.pxOp = some o ∧ ∃ l, u.outbox.getLast? = some (.px (if o.req.op = 1 then "write" else "read") (pxPhases x ++ l))
      (s.xbr.pxOp = none → s.xbr.pxPosted = [] → s.xbr.pxWait = o :: rest → ∃ u, exec .pxInboundCycle s = .next (s.after u) ∧ starts u ∧ (s.xbr.pxHold = [] → u.xbr.pxWait = rest ∧ u.xbr.pxPosted = [])) ∧
      (s.xbr.pxOp = none → s.xbr.pxPosted = o :: rest → ∃ u, exec .pxInboundCycle s = .next (s.after u) ∧ starts u ∧ (s.xbr.pxHold = [] → u.xbr.pxPosted = rest ∧ u.xbr.pxWait = s.xbr.pxWait)) ∧
      (∀ r, s.xbr.pxOp = some r → r.req.op ≠ opMemWr → s.xbr.pxPosted = o :: rest → ∃ u, exec .pxInboundCycle s = .next (s.after u) ∧ starts u ∧ (s.xbr.pxHold = [] → u.xbr.pxPosted = rest ∧ u.xbr.pxWait = r :: s.xbr.pxWait))) ∧
    (∀ ad o x y more, s.pxOwner = 1 → s.xbr.pxOp = some o → o.xfers = x :: y :: more → s.xbr.pxLate = [] → ∃ u, exec (.pxCycleEnd ad) s = .next (s.after u) ∧ u.pxOwner = 0 ∧ s.counted u Pg.pxb PXB.PX_CNT0_cycles ∧
      u.xbr.pxOp = some { o with xfers := y :: more, buf := if o.req.op = 1 then o.buf else setByte (setByte o.buf x.even (ad % 65536 / 256)) x.odd (ad % 65536) }) ∧
    (∀ ad o x n, s.pxOwner = 1 → s.xbr.pxOp = some o → o.xfers = [x] → o.slot = some n → s.xbr.pxLate = [] → ∃ u, exec (.pxCycleEnd ad) s = .next (s.after u) ∧ u.pxOwner = 0 ∧ u.xbr.pxOp = none ∧
      (u.dslot n).done = true ∧ (u.dslot n).st = stSC) ∧
    (∀ o n, s.pxOwner = 1 → s.xbr.pxOp = some o → o.slot = some n → o.req.op = opMemRd → s.xbr.pxLate = [] → ∃ u, exec .pxTimeout s = .next (s.after u) ∧ u.pxOwner = 0 ∧ u.xbr.pxOp = none ∧ (u.dslot n).st = stCA ∧
      s.counted u Pg.pxb PXB.PX_CNT1_px_tmo ∧ u.raised Pg.pxb PXB.ev_px_timeout) ∧
    (s.pxOwner = 0 → (∀ ad, exec (.pxCycleEnd ad) s = .next (s.after s)) ∧ exec .pxTimeout s = .next (s.after s)) ∧
    (∀ (v : Vhc) tag o n, s.xbr.pxOp = none → s.xbr.pxPosted = [] → s.xbr.pxWait = [o] → o.req.posted = false → o.slot = none → o.req.vhc = v.val → o.req.tag = tag → s.freeSlot = some n → ∃ w : State,
      exec (.slowTargetRetry v tag) s = .next (s.after (w.retryTicket (s.chainIn o.port) n o.req)) ∧ w.dslot n = { state := slPending, owner := 0, seq := (s.dslot n).seq % 1023 + 1, req := o.req, be := 0 } ∧
      w.xbr.pxWait = [{ o with slot := some n }]) ∧
    (∀ n : Fin 64, ((s.dslot n.val).state = slPending → (s.dslot n.val).done = true → exec (.delayedOpComplete n) s = .next (s.after (s.setDslot n.val { s.dslot n.val with state := slReady }))) ∧
      ((s.dslot n.val).done = false → exec (.delayedOpComplete n) s = .next (s.after s)) ∧
      ((s.dslot n.val).state = slReady → ∃ u, exec (.slotDiscardExpiry n) s = .next (s.after u) ∧ (u.dslot n.val).state = slFree ∧ (u.dslot n.val).seq = (s.dslot n.val).seq ∧
        s.counted u Pg.xbr XBR.XBR_CNT2_discards ∧ u.raised Pg.xbr XBR.ev_slot_discard) ∧
      ((s.dslot n.val).state ≠ slReady → exec (.slotDiscardExpiry n) s = .next (s.after s))) ∧
    (∀ write addr (be : Fin 4) data, (s.on Pg.pxb PXB.PX_CFG_en = false ∨ s.on Pg.pxb PXB.PX_CFG_ext_en = false ∨ s.pxOwner ≠ 0) → exec (.externalMasterCycle write addr be data) s = .next (s.after s)) ∧
    (∀ write addr (be : Fin 4) data, s.on Pg.pxb PXB.PX_CFG_en = true → s.on Pg.pxb PXB.PX_CFG_ext_en = true → s.pxOwner = 0 →
      let e : PxExt := { write := write, addr := addr % 2 ^ 24, be := be.val, data := data % 65536 }
      (s.winOut e.addr = none → ∃ u, exec (.externalMasterCycle write addr be data) s = .next (s.after u) ∧ u.pxOwner = 2 ∧ u.xbr.pxExt = some { e with answer := some 0xFFFF } ∧
        s.counted u Pg.pxb PXB.PX_CNT2_window_miss ∧ u.raised Pg.pxb PXB.ev_window_miss) ∧
      (∀ n, s.winOut e.addr = some n → s.pxSelf (s.rd Pg.pxb (PXB.WIN_CFG_tunnel n)) = false → write = true → s.on Pg.pxb (PXB.WIN_CFG_wc n) = false → s.pxBuffered < 16 → ∃ u r, exec (.externalMasterCycle write addr be data) s = .next (s.after u) ∧
        u.pxOwner = 2 ∧ u.xbr.pxExt = some { e with answer := some 0 } ∧ u.xbr.pxPost = s.xbr.pxPost ++ [(n, r)] ∧ r.op = opMemWr ∧ r.tunnel = s.rd Pg.pxb (PXB.WIN_CFG_tunnel n)) ∧
      (∀ n, s.winOut e.addr = some n → s.pxSelf (s.rd Pg.pxb (PXB.WIN_CFG_tunnel n)) = false → write = true → s.on Pg.pxb (PXB.WIN_CFG_wc n) = false → 16 ≤ s.pxBuffered → ∃ u r, exec (.externalMasterCycle write addr be data) s = .next (s.after u) ∧
        u.pxOwner = 2 ∧ u.xbr.pxExt = some { e with held := some (n, r) } ∧ u.xbr.pxPost = s.xbr.pxPost ∧ r.op = opMemWr) ∧
      (∀ n k, s.winOut e.addr = some n → s.pxSelf (s.rd Pg.pxb (PXB.WIN_CFG_tunnel n)) = false → write = false → s.xbr.slots = [] → s.freeSlot = some k → ∃ (w : State) (r : TReq),
        exec (.externalMasterCycle write addr be data) s = .next (s.after (w.pxIssue r k)) ∧ w.pxOwner = 2 ∧ w.xbr.pxExt = some { e with slot := some k } ∧ (w.dslot k).state = slPending ∧ (w.dslot k).owner = 1 ∧ (w.dslot k).req = r ∧ r.op = opMemRd)) ∧
    (∀ e, s.pxOwner = 2 → s.xbr.pxExt = some e → e.answer = none → e.held = none → s.xbr.pxLate = [] → ∃ u, exec .masterRetry s = .next (s.after u) ∧ u.pxOwner = 0 ∧ u.xbr.pxExt = none ∧ s.counted u Pg.pxb PXB.PX_CNT1_master_retries ∧
      u.raised Pg.pxb PXB.ev_master_retry ∧ u.outbox = s.outbox ++ [.px "retry" []]) ∧
    (∀ e, s.xbr.pxExt = some e → e.held ≠ none → exec .masterRetry s = .next (s.after s)) ∧
    (s.xbr.pxExt = none → exec .masterRetry s = .next (s.after s))

/-- R216–R218, R223–R225, R227–R229, R232. -/
def Obligations.VhgCommands : Prop :=
  ∀ (s : State) (w n : Nat) (img : Option (List Byte)), s.life = .running →
    let v := bitsOf w 21 16
    let f := bitsOf w 11 8
    let st := s.vState v
    let cmds : List (Nat × Instr) := [(2, .vhcAddFunc w), (3, .vhcRemoveFunc w), (4, .vhcDisable w), (5, .vhcEnable w), (6, .vhcFreeze w), (7, .vhcThaw w), (8, .vhcSave w), (9, .vhcRestore w img), (10, .vhcDestroy w)]
    (s.mode ≠ .head → (∀ c, c ∈ cmds → (c.1 = 2 ∨ c.1 = 3 ∨ c.1 = 9 ∨ c.1 = 10 → exec c.2 s = .next (s.after s.takeEnded)) ∧ (c.1 = 4 ∨ c.1 = 5 ∨ c.1 = 6 ∨ c.1 = 7 ∨ c.1 = 8 → exec c.2 s = .next (s.after s)))) ∧
    (s.mode = .head → bitOf w 31 = 1 → s.on Pg.vhg VHG.VHG_STAT_busy = true → s.sched.ended = [] → ∀ c, c ∈ cmds → ∃ u, exec c.2 s = .next (s.after u) ∧ u.rd Pg.vhg VHG.VHG_STAT_result = vhBusy ∧ u.raised Pg.vhg VHG.ev_refused ∧ u.vhg = s.vhg ∧ u.sched = s.sched) ∧
    (s.mode = .head → bitOf w 31 = 1 → s.on Pg.vhg VHG.VHG_STAT_busy = false →
      (bitsOf w 27 24 = 0 ∨ 11 ≤ bitsOf w 27 24 → ∃ u, exec (.vhgBadOp w) s = .next (s.after u) ∧ u.vhgDone vhBadOp) ∧
      (1 ≤ bitsOf w 27 24 → bitsOf w 27 24 ≤ 10 → exec (.vhgBadOp w) s = .next (s.after s)) ∧
      (st ≠ vFree → ∃ u, exec (.vhcCreate w n) s = .next (s.after u) ∧ u.vhgDone vhState ∧ u.vState v = st) ∧
      (st = vFree → n ≤ v → ∃ u, exec (.vhcCreate w n) s = .next (s.after u) ∧ u.vhgDone vhNoVf ∧ u.vState v = st) ∧
      (st = vFree → v < n → 4096 < s.quotaSum v + s.vhArg 0 % 8192 → ∃ u, exec (.vhcCreate w n) s = .next (s.after u) ∧ u.vhgDone vhQuota ∧ u.vState v = st) ∧
      (st = vFree → v < n → s.quotaSum v + s.vhArg 0 % 8192 ≤ 4096 → ∃ u, exec (.vhcCreate w n) s = .next (s.after u) ∧ u.vhgDone vhOk ∧ u.vState v = Machine.vActive ∧ u.vGen v = (s.vGen v + 1) % 256 ∧
        u.quotaOf v = s.vhArg 0 % 8192 ∧ (∀ g, g < 16 → u.dirCfg v g = 0) ∧ u.raised (Pg.vhc v) VHC.ev_gen_changed) ∧
      (st ≠ Machine.vActive → st ≠ vDisabled → s.sched.ended = [] → ∀ c, c ∈ cmds → c.1 = 2 ∨ c.1 = 3 → ∃ u, exec c.2 s = .next (s.after u) ∧ u.vhgDone vhState) ∧
      (st = Machine.vActive ∨ st = vDisabled →
        (let b := s.vhgTaken 2 w
         let wd := dirMask (b.vhArg 0)
         let ts := b.fnTunnels v wd
         let ids := (b.tunFree (dirChain wd)).take ts.length
         let es := (ids.zip ts).map (fun x => (x.1, (b.cfgEnt x.1).withHalf (dirChain wd) x.2.1 x.2.2.1 x.2.2.2.1))
         (b.addCheck v f wd ≠ 0 → ∃ u : State, exec (.vhcAddFunc w) s = .next (s.after u.takeEnded) ∧ u.vhgDone (b.addCheck v f wd)) ∧
         (b.addCheck v f wd = 0 → ids.length < ts.length → ∃ u : State, exec (.vhcAddFunc w) s = .next (s.after u.takeEnded) ∧ u.vhgDone vhNoTunnel) ∧
         (b.addCheck v f wd = 0 → ids.length = ts.length → State.admitAll es b = 0 → ∃ x : State, exec (.vhcAddFunc w) s = .next (s.after (x.commitEntries es { steps := [], vhc := v, fn := f }).takeEnded) ∧
           (x.vhcCtx v).job = 3 ∧ (x.vhcCtx v).jobFn = f ∧ (x.vhcCtx v).entry.getD 0 0 = wd ∧ x.regs = b.regs)) ∧
        (dirV (s.dirCfg v f) = false → s.sched.ended = [] → ∃ u : State, exec (.vhcRemoveFunc w) s = .next (s.after u) ∧ u.vhgDone vhNoFunc) ∧
        (dirV (s.dirCfg v f) = true → ∃ x : State, exec (.vhcRemoveFunc w) s = .next (s.after (x.deleteTuns v f ((s.dirTuns v f).map (fun t => (dirChain (s.dirCfg v f), t)))).takeEnded) ∧
          (x.vhcCtx v).job = 5 ∧ (x.vhcCtx v).jobFn = f ∧ (x.vhcCtx v).gone = (s.vhcCtx v).gone ++ [f])) ∧
      (st = Machine.vActive ∨ st = vFrozen → ∃ x : State, exec (.vhcDisable w) s = .next (s.after (x.genSend 0x30 v ((s.vGen v + 1) % 256) 2 (x.hubsOf v) 2).2.2) ∧ x.vState v = vDraining ∧
        (x.vhcCtx v).drain = 1 ∧ (x.vhcCtx v).drainCmd = true ∧ (x.vhcCtx v).genNext = (s.vGen v + 1) % 256 ∧ x.rd (Pg.vhc v) VHC.DRAIN_missing = 0) ∧
      (st ≠ Machine.vActive → st ≠ vFrozen → ∃ u, exec (.vhcDisable w) s = .next (s.after u) ∧ u.vhgDone vhState ∧ u.vState v = st) ∧
      (st = vDisabled → exec (.vhcEnable w) s = .next (s.after ((s.vhgTaken 5 w).enable v))) ∧
      (st = vDisabled → s.vhcFns v = [] → ∃ u, exec (.vhcEnable w) s = .next (s.after u) ∧ u.vhgDone vhOk ∧ u.vState v = Machine.vActive) ∧
      (st ≠ vDisabled → ∃ u, exec (.vhcEnable w) s = .next (s.after u) ∧ u.vhgDone vhState ∧ u.vState v = st) ∧
      (st = Machine.vActive → bitOf w 0 = 0 → ∃ x : State, exec (.vhcFreeze w) s = .next (s.after (x.genSend 0x33 v 1 0 (x.hubsOf v) 2).2.2) ∧ x.vState v = vFreezing ∧ (x.vhcCtx v).drain = 2 ∧ (x.vhcCtx v).drainCmd = true) ∧
      (st = Machine.vActive → bitOf w 0 = 1 → s.vhcFns v = [] → ∃ x : State, exec (.vhcFreeze w) s = .next (s.after (x.frozenNow v vhOk true)) ∧ x.vState v = vFreezing ∧ (x.vhcCtx v).drain = 3) ∧
      (st ≠ Machine.vActive → ∃ u, exec (.vhcFreeze w) s = .next (s.after u) ∧ u.vhgDone vhState ∧ u.vState v = st) ∧
      (st = vFrozen → s.vhcFns v = [] → ∃ u : State, exec (.vhcThaw w) s = .next (s.after (u.vhgEnd vhOk)) ∧ u.vState v = Machine.vActive ∧ (u.vhcCtx v).snapped = false) ∧
      (st ≠ vFrozen → ∃ u, exec (.vhcThaw w) s = .next (s.after u) ∧ u.vhgDone vhState ∧ u.vState v = st) ∧
      (st = vFrozen → s.vhArg 2 < s.imgNeed v → ∃ u, exec (.vhcSave w) s = .next (s.after u) ∧ u.vhgDone vhImgSize ∧ u.raised Pg.vhg VHG.ev_img_err) ∧
      (st = vFrozen → s.imgNeed v ≤ s.vhArg 2 → ∃ u, exec (.vhcSave w) s = .next (s.after u) ∧ (u.vhcCtx v).job = 8 ∧ u.on Pg.vhg VHG.VHG_STAT_busy = true ∧ u.vState v = vFrozen) ∧
      (st = vFree → ∀ l, img = some l →
        ((s.vhgTaken 9 w).imgCheck v l ≠ 0 → ∃ u : State, exec (.vhcRestore w img) s = .next (s.after u.takeEnded) ∧ u.vhgDone ((s.vhgTaken 9 w).imgCheck v l) ∧ u.raised Pg.vhg VHG.ev_img_err ∧ u.vState v = vFree) ∧
        ((s.vhgTaken 9 w).imgCheck v l = 0 → ∃ (x : State) (es : List (Nat × TunEnt)), exec (.vhcRestore w img) s = .next (s.after (x.commitEntries es { steps := [], vhc := v, fn := 0 }).takeEnded) ∧ x.vState v = vRestoring)) ∧
      (st = vFree → img = none → ∃ u : State, exec (.vhcRestore w img) s = .next (s.after u.takeEnded) ∧ u.vhgDone vhDmaErr) ∧
      (st = vDisabled → ∃ x : State, exec (.vhcDestroy w) s = .next (s.after (x.deleteTuns v 0 (s.vhcTuns v)).takeEnded) ∧ (x.vhcCtx v).job = 7))

/-- R142, R184, R216, R219–R229, R233, R489. -/
def Obligations.DrainsAndGenerations : Prop :=
  ∀ (s : State), s.life = .running →
    (∀ v : Vhc, s.mode = .head →
      let x := s.vhcCtx v.val
      (let ends (i : Instr) : Prop := ∃ y z : State, exec i s = .next (s.after (z.pump.vhgEnd vhOk)) ∧ y.vState v.val = vDisabled ∧ y.vGen v.val = x.genNext % 256 ∧ y.raised Pg.vhg VHG.ev_disable_done ∧
          z.regs = (y.failOut v.val (fun _ => true) false).regs ∧ (z.vhcCtx v.val).drain = 0 ∧ (z.vhcCtx v.val).drainCmd = false
       x.drain = 1 → x.drainCmd = true → (s.hostNp v.val + s.devNp v.val = 0 → ends (.drainComplete v)) ∧ ends (.drainTimeout v)) ∧
      (x.drain = 2 → (s.hostNp v.val + s.devNp v.val = 0 → ∃ u, exec (.drainComplete v) s = .next (s.after u) ∧ u.vhgDone vhOk ∧ u.vState v.val = vFrozen ∧ u.raised Pg.vhg VHG.ev_freeze_done) ∧
        (∃ u, exec (.drainTimeout v) s = .next (s.after u) ∧ u.vhgDone vhDrainTmo ∧ u.vState v.val = vFrozen)) ∧
      (x.drain = 0 → x.job ≠ 6 → exec (.drainComplete v) s = .next (s.after s) ∧ exec (.drainTimeout v) s = .next (s.after s)) ∧
      ((s.vState v.val = Machine.vActive ∨ s.vState v.val = vFrozen) → ∃ y : State, exec (.vfFlr v) s = .next (s.after (y.genSend 0x30 v.val ((s.vGen v.val + 1) % 256) 2 (y.hubsOf v.val) 2).2.2) ∧
        y.vState v.val = vDraining ∧ (y.vhcCtx v.val).drain = 4 ∧ (y.vhcCtx v.val).drainCmd = false) ∧
      (s.vState v.val ≠ Machine.vActive → s.vState v.val ≠ vFrozen → exec (.vfFlr v) s = .next (s.after s)) ∧
      (∀ w, ∃ u, exec (.eqCfgWrite v w) s = .next (s.after u) ∧ u.rd (Pg.vhc v.val) VHC.EQ_TAIL_tail = 0 ∧ u.rd (Pg.vhc v.val) VHC.EQ_CFG_en = bitOf w 31 ∧ u.rd (Pg.vhc v.val) VHC.EQ_CFG_size = bitsOf w 19 16 ∧
        u.rd (Pg.vhc v.val) VHC.EQ_CFG_vector = bitsOf w 5 0) ∧
      (x.job = 8 → ∀ ctxs, ∃ u, exec (.saveComplete v true ctxs) s = .next (s.after u) ∧ u.vhgDone vhOk ∧ u.raised Pg.vhg VHG.ev_save_done ∧ (u.vhcCtx v.val).job = 0 ∧
        (∃ t : State, u.outbox = s.outbox ++ [.hostWrite 0 (x.entry.getD 0 0 + 2 ^ 32 * x.entry.getD 1 0) (t.image v.val ctxs)] ∧ t.regs = s.regs ∧ t.vState v.val = s.vState v.val)) ∧
      (x.job = 8 → ∀ ctxs, ∃ u, exec (.saveComplete v false ctxs) s = .next (s.after u) ∧ u.vhgDone vhDmaErr ∧ u.raised Pg.vhg VHG.ev_img_err) ∧
      (x.job ≠ 8 → ∀ ok ctxs, exec (.saveComplete v ok ctxs) s = .next (s.after s)) ∧
      (x.job = 12 → ∃ y z : State, exec (.restoreComplete v) s = .next (s.after (((y.deliverHeld v.val).raise Pg.vhg VHG.ev_restore_done).vhgEnd vhOk)) ∧ y = z.setVst v.val Machine.vActive ∧ (y.vhcCtx v.val).job = 0) ∧
      (x.job ≠ 12 → exec (.restoreComplete v) s = .next (s.after s)) ∧
      (∃ u, exec (.fenceRelease v) s = .next (s.after u) ∧ (u.vhcCtx v.val).fences = x.fences.filter (fun f => !s.fenceMet f))) ∧
    (s.mode = .head → ∃ u, exec .vfEnableClear s = .next (s.after u) ∧ u.vhg.numVfs = 0 ∧ ∀ v, v < 64 →
      ((s.vState v = Machine.vActive ∨ s.vState v = vFrozen) → u.vState v = vDraining ∧ (u.vhcCtx v).drain = 5 ∧ (u.vhcCtx v).drainCmd = false ∧ (u.vhcCtx v).genNext = (s.vGen v + 1) % 256) ∧
      (s.vState v ≠ Machine.vActive → s.vState v ≠ vFrozen → u.vState v = s.vState v)) ∧
    ((s.mode ≠ .head ∨ ∀ v, v < 64 → s.vState v ≠ Machine.vActive ∧ s.vState v ≠ vFrozen) → exec .vfEnableClear s = .next (s.after { s with vhg := { s.vhg with numVfs := 0 } })) ∧
    (s.mode = .head → exec (.hostPerst false) s = .next (s.after { s with vhg := { s.vhg with perst := false } })) ∧
    (s.mode = .head → s.vhg.perst = true → exec (.hostPerst true) s = .next (s.after { s with vhg := { s.vhg with perst := true } })) ∧
    (s.mode = .head → s.vhg.perst = false → (∀ v, v < 64 → s.vState v ≠ Machine.vActive ∧ s.vState v ≠ vFrozen) → ∃ u, exec (.hostPerst true) s = .next (s.after u) ∧ u.vhg.perst = true ∧ u.vhg.numVfs = 0 ∧ u.vhg.pfUnmasked = [] ∧ u.regs = s.regs) ∧
    (∀ p c own, s.hears p c = true → (s.copied p c).notHomes p c = true → ∀ i, i ∈ [Instr.genSetRx p c own, .genClearRx p c, .genQueryRx p c, .freezeFnRx p c] → exec i s = .next (s.after (s.copied p c).foreign)) ∧
    (∀ p c own, s.hears p c = true →
      let t := s.copied p c
      let v := byteAt c.payload 4 % 64
      t.mode = .hub → t.homed = true → t.notHomes p c = false →
      (byteAt c.payload 0 = 0x30 → t.ownsFn v = false → ∃ y, exec (.genSetRx p c own) s = .next (s.after y) ∧ y = t.genSet v (byteAt c.payload 5) (byteAt c.payload 6) own) ∧
      (byteAt c.payload 0 = 0x30 → byteAt c.payload 6 = 1 → t.ownsFn v = false → ∃ y : State, exec (.genSetRx p c own) s = .next (s.after (y.fnGo v true)) ∧ y.genTbl v = byteAt c.payload 5 ∧ y.genValid v = true) ∧
      (byteAt c.payload 0 = 0x31 → ∃ y z : State, z = y.each (List.range 4) State.parkStage ∧ exec (.genClearRx p c) s = .next (s.after (z.sendCore z.tuRole 0xA 8 0 0 ([0xB1, 0] ++ leBytes 2 (numAt c.payload 2 2) ++ leBytes 1 v ++ leBytes 1 (t.genTbl v) ++ leBytes 1 (b2n (t.genValid v)) ++ [0]))) ∧
        (∀ g, g < 64 → y.genValid g = false) ∧ y.fns.parked = List.range 64) ∧
      (byteAt c.payload 0 = 0x32 → t.ownsFn v = true → exec (.genQueryRx p c) s = .next (s.after (t.sendCore t.tuRole 0xA 8 0 0 ([0xB2, 0] ++ leBytes 2 (numAt c.payload 2 2) ++ leBytes 1 v ++ leBytes 1 (t.genTbl v) ++ leBytes 1 (b2n (t.genValid v)) ++ [0])))) ∧
      (byteAt c.payload 0 = 0x32 → t.ownsFn v = false → exec (.genQueryRx p c) s = .next (s.after t)) ∧
      (byteAt c.payload 0 = 0x33 → byteAt c.payload 5 = 1 → ∃ y z : State, z = y.each (y.headsOf v) State.parkStage ∧ exec (.freezeFnRx p c) s = .next (s.after (if t.ownsFn v then z.sendCore z.tuRole 0xA 8 0 0 ([0xB3, 0] ++ leBytes 2 (numAt c.payload 2 2) ++ leBytes 1 v ++ leBytes 1 (t.genTbl v) ++ leBytes 1 (b2n (t.genValid v)) ++ [0]) else z)) ∧
        y.fns.frozen.contains v = true)) ∧
    (∀ p c, s.hears p c = true → s.mode = .head →
      let k := hubKey (chainOf p) c.shub
      (s.vhg.msgs = [] → exec (.genAnswerRx p c) s = .next (s.after s)) ∧
      (∀ m, s.vhg.msgs = [m] → m.seq = numAt c.payload 2 2 → m.code + 0x80 = byteAt c.payload 0 → m.wait = [k] → exec (.genAnswerRx p c) s = .next (s.after ((s.setMsgs []).msgDone { m with wait := [], seen := m.seen ++ [byteAt c.payload 5] }))) ∧
      (∀ m k2, s.vhg.msgs = [m] → m.seq = numAt c.payload 2 2 → m.code + 0x80 = byteAt c.payload 0 → m.wait = [k, k2] → k2 ≠ k → exec (.genAnswerRx p c) s = .next (s.after (s.setMsgs [{ m with wait := [k2], seen := m.seen ++ [byteAt c.payload 5] }]))) ∧
      (byteAt c.payload 0 = 0x41 → c.gen ≠ s.vGen c.vhc → ∃ u, exec (.interruptEventRx p c) s = .next (s.after u) ∧ s.counted u Pg.vhg VHG.EVD_CNT_dropped ∧ u.vhg = s.vhg) ∧
      (∀ f, byteAt c.payload 0 = 0x41 → c.gen = s.vGen c.vhc → s.vState c.vhc = Machine.vActive → s.evEntry c.vhc (chainOf p) c.shub c.sport (byteAt c.payload 1) = some f → byteAt c.payload 6 = 0 → byteAt c.payload 2 < dirVecCnt (s.dirCfg c.vhc f) →
        exec (.interruptEventRx p c) s = .next (s.after (s.vecSignal c.vhc ((dirVecBase (s.dirCfg c.vhc f) + byteAt c.payload 2) % 64))))) ∧
    (∀ v k : Nat, (s.vhcCtx v).pba.contains k = false → (s.vhcCtx v).unmasked.contains k = true → s.vState v = Machine.vActive → ∃ u, s.vecSignal v k = u ∧ u.outbox = s.outbox ++ [.msix (v + 1) k] ∧ s.counted u Pg.vhg VHG.EVD_CNT_delivered) ∧
    (∀ seq m k, s.vhg.msgs = [m] → m.seq = seq → m.wait = [k] → m.resends < 3 → exec (.genMessageResend seq) s = .next (s.after ((s.setMsgs [{ m with resends := m.resends + 1 }]).genCell m k))) ∧
    (∀ seq m k, s.vhg.msgs = [m] → m.seq = seq → m.wait = [k] → 3 ≤ m.resends → m.vhc < 64 → ∃ y : State, exec (.genMessageResend seq) s = .next (s.after (y.msgDone m)) ∧ y.vhg.msgs = [] ∧ y.vhg.silent.contains k = true ∧
      s.counted y Pg.vhg VHG.GEN_CNT_gen_nak ∧ y.raised Pg.vhg VHG.ev_gen_nak ∧ y.on (Pg.vhc m.vhc) VHC.DRAIN_missing = true) ∧
    (∀ seq, s.vhg.msgs = [] → exec (.genMessageResend seq) s = .next (s.after s))

/-- R235–R238, R246–R250, R253–R255, R258, R260, R263. -/
def Obligations.PresentsAndTiles : Prop :=
  ∀ (s : State), s.life = .running →
    (∀ (v : Vhc) (f : Fin 16),
      let k := fnKey v.val f.val
      let p := Pg.present k
      (s.apertureOn v.val f.val 4 = false → s.mode = .head → (∀ tail ents, exec (.prTailWrite v f tail ents) s = .next (s.after (s.bump (Pg.vhc v.val) VHC.UR_CNT_ur 1))) ∧
        (∀ w, exec (.prCfgWrite v f w) s = .next (s.after (s.bump (Pg.vhc v.val) VHC.UR_CNT_ur 1)))) ∧
      (s.apertureOn v.val f.val 4 = true → ∀ tail ents,
        let n := s.prSize k
        let old := s.rd p PR.PR_TAIL_tail % n
        let cnt := (tail % 1024 % n + n - old) % n
        (s.on p PR.PR_CFG_en = false → ∃ u, exec (.prTailWrite v f tail ents) s = .next (s.after u) ∧ u.rd p PR.PR_TAIL_tail = tail % 1024 ∧ u.enc = s.enc) ∧
        (s.on p PR.PR_CFG_en = true → ∃ u, exec (.prTailWrite v f tail ents) s = .next (s.after u) ∧ u.rd p PR.PR_TAIL_tail = tail % 1024 ∧
          (u.prCtx k).map (·.ring) = some (((s.prCtx k).map (·.ring)).getD [] ++ (ents.take cnt).map prEntOf) ∧
          u.outbox = s.outbox ++ (List.range cnt).map (fun i => .hostRead (v.val + 1) (s.rd p PR.PR_BASE_LO_base_lo * 64 + s.rd p PR.PR_BASE_HI_base_hi * 2 ^ 32 + 32 * ((old + i) % n)) 32 0))) ∧
      (s.apertureOn v.val f.val 4 = true → ∀ w, (s.rd p PR.PR_HEAD_head ≠ s.rd p PR.PR_TAIL_tail → exec (.prCfgWrite v f w) s = .next (s.after s)) ∧
        (s.rd p PR.PR_HEAD_head = s.rd p PR.PR_TAIL_tail → ∃ u, exec (.prCfgWrite v f w) s = .next (s.after u) ∧ u.rd p PR.PR_CFG_en = bitOf w 31 ∧ u.rd p PR.PR_CFG_size = bitsOf w 19 16 ∧ u.rd p PR.PR_CFG_vector = bitsOf w 5 0 ∧
          u.rd p PR.PR_HEAD_head = 0 ∧ (u.prCtx k).map (·.ring) = some [])) ∧
      (∀ x t e rest px, s.prCtx k = some x → x.cur = some t → t.fetch = e :: rest →
        (∃ u, exec (.pixelFetchComplete v f true px) s = .next (s.after u) ∧ (u.prCtx k).bind (·.cur) = some { t with fetch := rest, px := putPixels e px t.px } ∧ u.rd p PR.PR_HEAD_head = (s.rd p PR.PR_HEAD_head + 1) % s.prSize k) ∧
        (∃ u, exec (.pixelFetchComplete v f false px) s = .next (s.after u) ∧ (u.prCtx k).bind (·.cur) = none ∧ u.rd p PR.PR_DONE_status = 3 ∧ u.rd p PR.PR_STAT_err = 2 ∧ s.counted u Pg.enc ENC.FAIL_CNT_fetch_err ∧ u.raised Pg.enc ENC.ev_fetch_err)) ∧
      (s.prCtx k = none → ∀ ok px, exec (.pixelFetchComplete v f ok px) s = .next (s.after s))) ∧
    (∀ (pipe : Fin 4) g,
      ((s.mode ≠ .head ∨ s.nextFn pipe.val = none) → exec (.encodeSubsetStart pipe g) s = .next (s.after s)) ∧
      (∀ k x, s.mode = .head → s.nextFn pipe.val = some k → s.prCtx k = some x →
        (x.cur = none → g.width ≠ 0 → g.height ≠ 0 → (takeSet x.ring).1.any (fun e => e.bad g) = true → ∃ u, exec (.encodeSubsetStart pipe g) s = .next (s.after u) ∧ u.rd (Pg.present (fnKey (k / 16) (k % 16))) PR.PR_DONE_status = 2 ∧
          s.counted u Pg.enc ENC.FAIL_CNT_bad_rect ∧ u.raised Pg.enc ENC.ev_bad_rect ∧ (u.prCtx k).map (·.ring) = some (takeSet x.ring).2) ∧
        (x.cur = none → g.width ≠ 0 → g.height ≠ 0 → (takeSet x.ring).1.any (fun e => e.bad g) = false → ∃ u, exec (.encodeSubsetStart pipe g) s = .next (s.after u) ∧
          (u.prCtx k).map (fun y => (y.ring, y.next)) = some ((takeSet x.ring).2, (x.next + 1) % 65536) ∧ ((u.prCtx k).bind (·.cur)).map (fun t => (t.num, t.fetch, t.subs)) = some (x.next, (takeSet x.ring).1, subsetsOf g (takeSet x.ring).1) ∧
          u.outbox = s.outbox ++ ((takeSet x.ring).1.flatMap (pixReads g)).map (fun r => .hostRead (k / 16 + 1) r.1 r.2 0)) ∧
        (∀ t runs more, x.cur = some t → t.subs = runs :: more → (s.queue (s.auxDn (k / 16) (k % 16))).length < s.rd Pg.grn GRN.TQ_MARK_tq_mark → ∃ y : State,
          exec (.encodeSubsetStart pipe g) s = .next (s.after (y.sendSubset (k / 16) (k % 16) pipe.val t runs (!more.isEmpty))) ∧ y.regs = s.regs ∧ (y.prCtx k).map (·.cur) = some (if more.isEmpty then none else some { t with subs := more, idx := t.idx + 1 })) ∧
        (∀ t runs more, x.cur = some t → t.subs = runs :: more → s.rd Pg.grn GRN.TQ_MARK_tq_mark ≤ (s.queue (s.auxDn (k / 16) (k % 16))).length → exec (.encodeSubsetStart pipe g) s = .next (s.after s)))) ∧
    (∀ p c f x t, s.hears p c = true → s.mode = .head → byteAt c.payload 0 = 0x42 → c.gen = s.vGen c.vhc → c.vhc < 64 → s.evEntry c.vhc (chainOf p) c.shub c.sport 4 = some f → s.prCtx (fnKey c.vhc f) = some x →
      x.sent = [t] → t.num = numAt c.payload 4 2 → t.split = false → t.frame = none →
      (byteAt c.payload 2 = 0 → byteAt c.payload 7 = 0 → ∃ u, exec (.presentDoneRx p c) s = .next (s.after u) ∧ (u.prCtx (fnKey c.vhc f)).map (·.sent) = some [] ∧ u.rd (Pg.present (fnKey c.vhc f)) PR.PR_DONE_status = 0 ∧
        u.rd (Pg.present (fnKey c.vhc f)) PR.PR_DONE_set = t.num % 65536) ∧
      (byteAt c.payload 2 = 4 → ∃ u, exec (.presentDoneRx p c) s = .next (s.after u) ∧ (u.prCtx (fnKey c.vhc f)).map (·.sent) = some [] ∧ u.rd (Pg.present (fnKey c.vhc f)) PR.PR_DONE_status = 4 ∧ s.counted u (Pg.present (fnKey c.vhc f)) PR.PR_CNT_failed) ∧
      (byteAt c.payload 2 = 0 → byteAt c.payload 7 = 1 → ∃ u, exec (.presentDoneRx p c) s = .next (s.after u) ∧ u.regs = s.regs ∧ (u.prCtx (fnKey c.vhc f)).map (fun y => y.sent.map (·.frame)) = some [some (numAt c.payload 8 4)])) ∧
    (∀ (n : Bay) good c,
      let p := Pg.stg n.val
      let x := s.dh n.val
      let dropped (i : Instr) (cause : Nat) : Prop := ∃ (y : State) (m : Shown), exec i s = .next (s.after (y.presentDone n.val 4 m 0 0)) ∧ s.counted y p STG.STG_CNT0_drops ∧ y.raised p STG.ev_set_drop ∧ y.rd p STG.STG_SET_cause = cause
      s.alive p = true → x.wait = [] → c.psn = false →
      (c.fst = true → good = true → x.bank0 = {} → x.bank1 = {} → x.fill = 0 → s.lAlloc n.val = true → s.headerOk n.val c.payload = true → ∃ u, exec (.tileCellRx n good c) s = .next (s.after u) ∧ u.regs = s.regs ∧ (u.dh n.val).dropping = false ∧
        (u.dh n.val).bank0 = { st := 1, tunnel := c.tunnel, vhc := c.vhc, gen := c.gen, set := numAt c.payload 0 2, idx := byteAt c.payload 2, more := decide (byteAt c.payload 3 % 2 = 1), total := numAt c.payload 4 2, pos := runPos (headRuns c.payload) }) ∧
      (c.fst = true → good = true → x.bank0 = {} → x.bank1 = {} → x.fill = 0 → s.lAlloc n.val = false → dropped (.tileCellRx n good c) 7) ∧
      (∀ b, c.fst = false → good = true → x.bankIn 1 = some b → (x.bank b).tunnel = c.tunnel → (x.bank b).got < (x.bank b).total → c.payload.length = s.lBudget n.val → recDepth c.payload = s.lDepth n.val → recMode c.payload < 2 →
        let t := (x.bank b).pos.getD (x.bank b).got 0
        (recGood (t % 512) (t / 512) c.payload = true → c.lst = false → exec (.tileCellRx n good c) s = .next (s.after (s.setDh n.val (x.setBank b { x.bank b with got := (x.bank b).got + 1, tiles := Tab.put t c.payload (x.bank b).tiles })))) ∧
        (recGood (t % 512) (t / 512) c.payload = true → c.lst = true → (x.bank b).got + 1 = (x.bank b).total → (x.bank (1 - b)).st = 0 → s.scanning n.val = true → s.lDbl n.val = false → ∃ u, exec (.tileCellRx n good c) s = .next (s.after u) ∧
          ((u.dh n.val).bank b).st = 3 ∧ (u.dh n.val).fill = 1 - b ∧ u.regs = s.regs) ∧
        (recGood (t % 512) (t / 512) c.payload = false → dropped (.tileCellRx n good c) 3)) ∧
      (c.fst = false → x.bankIn 1 = none → ∃ u, exec (.tileCellRx n good c) s = .next (s.after u) ∧ s.counted u p STG.STG_CNT1_discards ∧ u.disp = s.disp) ∧
      (∀ b, x.bankIn 1 = some b → dropped (.stagingTimeout n) 9) ∧ (x.bankIn 1 = none → exec (.stagingTimeout n) s = .next (s.after s)) ∧
      (x.next = none → exec (.tileRowCommit n) s = .next (s.after s)) ∧
      (∀ b t r rest, x.next = some b → (x.bank b).tiles = (t, r) :: rest → s.lDbl n.val = false →
        (s.scanning n.val = true → x.decRow ≤ t / 512 → exec (.tileRowCommit n) s = .next (s.after s)) ∧
        ((s.scanning n.val = false ∨ t / 512 < x.decRow) → (∃ y, y ∈ rest ∧ y.1 / 512 ≠ t / 512) → exec (.tileRowCommit n) s = .next (s.after (s.setDh n.val
          ((x.setSlot (s.lFront n.val) ((((x.bank b).tiles.filter (fun y => y.1 / 512 = t / 512)).foldl (fun l y => Tab.put y.1 y.2 l) (x.slot (s.lFront n.val))))).setBank b { x.bank b with st := 3, tiles := (x.bank b).tiles.filter (fun y => y.1 / 512 != t / 512) })))))) ∧
    (∀ w,
      let n := bitsOf w 17 16
      let wt := s.rd Pg.loft LOFT.LOFT_ARG_width_t
      let ht := s.rd Pg.loft LOFT.LOFT_ARG_height_t
      let g := ceilDiv (wt * ht * (if s.on Pg.loft LOFT.LOFT_ARG_bpp6 then 192 else 256)) 65536
      let need := if s.on Pg.loft LOFT.LOFT_ARG_dbl then 2 * g else g
      let ends (i : Instr) (code : Nat) : Prop := ∃ u, exec i s = .next (s.after u) ∧ u.rd Pg.loft LOFT.LOFT_STAT_result = code ∧ u.raised Pg.loft LOFT.ev_refused ∧ u.lAlloc n = s.lAlloc n
      ((s.fused n = true ∨ s.lAlloc n = true ∨ s.loftIdle n = false) → ends (.loftAllocate w) 3) ∧
      (s.fused n = false → s.lAlloc n = false → s.loftIdle n = true → (wt = 0 ∨ 480 < wt ∨ ht = 0 ∨ 270 < ht) → ends (.loftAllocate w) 5) ∧
      (s.fused n = false → s.lAlloc n = false → s.loftIdle n = true → 1 ≤ wt → wt ≤ 480 → 1 ≤ ht → ht ≤ 270 → s.freeGranules.length < need → ends (.loftAllocate w) 4) ∧
      (s.fused n = false → s.lAlloc n = false → s.loftIdle n = true → 1 ≤ wt → wt ≤ 480 → 1 ≤ ht → ht ≤ 270 → need ≤ s.freeGranules.length → ∃ u, exec (.loftAllocate w) s = .next (s.after u) ∧ u.rd Pg.loft LOFT.LOFT_STAT_result = 0 ∧
        u.raised Pg.loft LOFT.ev_cmd_done ∧ u.lAlloc n = true ∧ u.lWidth n = wt ∧ u.lHeight n = ht ∧ u.rd Pg.loft (LOFT.HEAD_GRAN_gran n) = g ∧ u.rd Pg.loft LOFT.LOFT_FREE_free = s.freeGranules.length - need ∧ u.lFront n = 0 ∧
        (u.dh n).slot0 = [] ∧ (u.dh n).slot1 = []) ∧
      ((s.lAlloc n = false ∨ s.loftIdle n = false) → ends (.loftFree w) 3) ∧
      (s.lAlloc n = true → s.loftIdle n = true → ∃ u, exec (.loftFree w) s = .next (s.after u) ∧ u.rd Pg.loft LOFT.LOFT_STAT_result = 0 ∧ u.raised Pg.loft LOFT.ev_cmd_done ∧ u.lAlloc n = false ∧ u.lWidth n = 0 ∧ (u.dh n).slot0 = [] ∧ (u.dh n).slot1 = [])) ∧
    (∀ (n : Bay) ecc, ((s.scanning n.val = false ∨ s.lHeight n.val ≤ (s.dh n.val).decRow) → exec (.decodeTileRow n ecc) s = .next (s.after s)) ∧
      (s.scanning n.val = true → (s.dh n.val).decRow < s.lHeight n.val → ∃ u, exec (.decodeTileRow n ecc) s = .next (s.after u) ∧ (u.dh n.val).decRow = (s.dh n.val).decRow + 1 ∧
        u.outbox = s.outbox ++ [.bay n.val "row" ((s.dh n.val).decRow :: u.rowOut n.val (s.dh n.val).decRow)]))

/-- R262, R265, R268–R285. -/
def Obligations.DisplayHeads : Prop :=
  ∀ (s : State) (n : Bay), s.life = .running →
    let p := Pg.disp n.val
    let z := Pg.frz n.val
    let x := s.dh n.val
    (s.alive p = false → exec (.dispRun n) s = .next (s.after s) ∧ exec (.dispStop n) s = .next (s.after s) ∧ (∀ v, exec (.trimWrite n v) s = .next (s.after s)) ∧ (∀ l, exec (.edidRead n l) s = .next (s.after s)) ∧
      (∀ k, exec (.dispRetrain n k) s = .next (s.after s) ∧ exec (.hpdPlug n k) s = .next (s.after s))) ∧
    (s.alive z = false → (∀ w v (k : Fin 3), exec (.windowCfgWrite n w k v) s = .next (s.after s)) ∧ (∀ w, exec (.windowCapture n w) s = .next (s.after s)) ∧ (∀ v, exec (.freezeClear n v) s = .next (s.after s)) ∧ exec (.presentWatchdogExpiry n) s = .next (s.after s)) ∧
    (s.alive p = true →
      (s.scanning n.val = true → s.runRefuse n.val = 0 → ∃ u, exec (.dispRun n) s = .next (s.after u) ∧ u.rd p DISP.DISP_CTL_run = 1 ∧ (u.dh n.val).stopDue = false ∧ (u.dh n.val).decRow = x.decRow) ∧
      (s.runRefuse n.val ≠ 0 → ∃ u, exec (.dispRun n) s = .next (s.after u) ∧ u.rd p DISP.DISP_STAT_refuse = s.runRefuse n.val ∧ u.raised p DISP.ev_start_refused ∧ u.scanning n.val = s.scanning n.val ∧ u.rd p DISP.DISP_CTL_run = s.rd p DISP.DISP_CTL_run) ∧
      (s.scanning n.val = false → s.runRefuse n.val = 0 → ∃ u, exec (.dispRun n) s = .next (s.after u) ∧ u.scanning n.val = true ∧ u.rd p DISP.DISP_CTL_run = 1 ∧ u.rd p DISP.DISP_STAT_refuse = 0 ∧ (u.dh n.val).decRow = 0 ∧ (u.dh n.val).acquire = true) ∧
      (∃ u, exec (.dispStop n) s = .next (s.after u) ∧ u.rd p DISP.DISP_CTL_run = 0 ∧ u.scanning n.val = s.scanning n.val ∧ (s.scanning n.val = true → (u.dh n.val).stopDue = true)) ∧
      (∀ v, exec (.trimWrite n v) s = .next (s.after (s.setDh n.val { x with trimDue := some (signed 16 v) }))) ∧
      (∀ k, s.on p DISP.DISP_STAT_sink = true → exec (.hpdPlug n k) s = .next (s.after s)) ∧
      (∀ k, s.on p DISP.DISP_STAT_sink = false → ∃ y : State, exec (.hpdPlug n k) s = .next (s.after (y.dpStart n.val k)) ∧ y.on p DISP.DISP_STAT_sink = true ∧ y.raised p DISP.ev_plug ∧ y.disp = s.disp) ∧
      (∀ lost, s.on p DISP.DISP_STAT_sink = false → exec (.hpdIrq n lost) s = .next (s.after s)) ∧
      (∀ lost, s.on p DISP.DISP_STAT_sink = true → (x.training = true ∨ lost = false) → ∃ u, exec (.hpdIrq n lost) s = .next (s.after u) ∧ s.counted u p DISP.DISP_CNT_hpd_irqs ∧ u.raised p DISP.ev_hpd_irq ∧
        u.outbox = s.outbox ++ [.bay n.val "dpcd" [0x200, 6]] ∧ (u.dh n.val).irqHeld = if x.training then some lost else x.irqHeld) ∧
      (∀ k, s.on p DISP.DISP_STAT_sink = true → s.rd p DISP.OUT_CFG_type = 3 → ∃ u, exec (.dispRetrain n k) s = .next (s.after u) ∧ u.rd p DISP.DISP_STAT_link_up = 0 ∧ u.rd p DISP.DISP_STAT_tmds = 0 ∧ (u.dh n.val).cands = [] ∧ (u.dh n.val).training = false) ∧
      (∀ k, s.on p DISP.DISP_STAT_sink = false → exec (.dispRetrain n k) s = .next (s.after s)) ∧
      (∀ l, edidBlocks (l.take 1) = [] → ∃ u, exec (.edidRead n l) s = .next (s.after u) ∧ u.rd p DISP.EDID_STAT_blocks = 0 ∧ u.rd p DISP.EDID_STAT_valid = 0 ∧ u.raised p DISP.ev_edid_err) ∧
      (∀ b, edidGood b = true → byteAt b 126 = 0 → ∃ u, exec (.edidRead n [[b]]) s = .next (s.after u) ∧ u.rd p DISP.EDID_STAT_blocks = 1 ∧ u.rd p DISP.EDID_STAT_valid = 1 ∧ (∀ k, k < 32 → u.rd p (DISP.EDID_edid k) = numAt b (4 * k) 4))) ∧
    (s.scanning n.val = false → exec (.frameStart n) s = .next (s.after s)) ∧
    (s.scanning n.val = true → x.stopDue = true → ∃ y : State, exec (.frameStart n) s = .next (s.after ((State.commitAll n.val (2 * commitFuel) y).stageOn n.val)) ∧ y.scanning n.val = false ∧ (y.dh n.val).stopDue = false ∧ (y.dh n.val).read = []) ∧
    (s.scanning n.val = true → x.stopDue = false → ∃ y w : State, w = y.each x.reports (fun u k => u.presentDone n.val 0 k (u.rd p DISP.FRAME_frame) (s.chain.time % 2 ^ 32)) ∧
      exec (.frameStart n) s = .next (s.after ((w.setDh n.val { w.dh n.val with frameT := s.chain.time }).refreshStep n.val)) ∧ y.rd p DISP.FRAME_frame = (s.rd p DISP.FRAME_frame + 1) % 2 ^ 32 ∧
      y.rd p DISP.FRAME_T_LO_t_lo = s.chain.time % 2 ^ 32 ∧ y.raised p DISP.ev_frame ∧ y.chain = s.chain ∧ (y.dh n.val).reports = [] ∧ (y.dh n.val).decRow = 0 ∧
      (x.flipDue = true → y.lFront n.val = 1 - s.lFront n.val ∧ s.counted y Pg.loft (LOFT.HEAD_FRONT_flips n.val) ∧ y.raised (Pg.stg n.val) STG.ev_flip ∧ (y.dh n.val).flipDue = false) ∧ (x.flipDue = false → y.lFront n.val = s.lFront n.val)) ∧
    (s.on p DISP.LOCK_CFG_en = false →
      (x.trimDue = none → s.refreshStep n.val = s.setDh n.val { x with acquire := true, lockN := 0 }) ∧
      (∀ v, x.trimDue = some v → v.natAbs ≤ 100 * s.rd1 p DISP.LOCK_CFG_trim_max → (s.refreshStep n.val).rd p DISP.TRIM_trim = unsigned 16 v ∧ ((s.refreshStep n.val).dh n.val).trimDue = none)) ∧
    (s.on p DISP.DISP_STAT_sink = false → exec (.hpdUnplug n) s = .next (s.after s)) ∧
    (s.on p DISP.DISP_STAT_sink = true → ∃ u, exec (.hpdUnplug n) s = .next (s.after u) ∧ u.rd p DISP.DISP_STAT_sink = 0 ∧ u.rd p DISP.DISP_STAT_link_up = 0 ∧ u.rd p DISP.DISP_STAT_lanes = 0 ∧ u.raised p DISP.ev_unplug ∧ (u.dh n.val).training = false) ∧
    (x.training = false → ∀ ok eq, exec (.linkTrainingDone n ok eq) s = .next (s.after s)) ∧
    (x.training = true → x.irqHeld = none → ∀ eq,
      (∃ u, exec (.linkTrainingDone n true eq) s = .next (s.after u) ∧ u.rd p DISP.DISP_STAT_link_up = 1 ∧ u.rd p DISP.DISP_STAT_lt_cause = 0 ∧ u.raised p DISP.ev_lt_done ∧ (u.dh n.val).training = false) ∧
      (∀ c, x.cands = [c] → ∃ u, exec (.linkTrainingDone n false eq) s = .next (s.after u) ∧ u.rd p DISP.DISP_STAT_link_up = 0 ∧ u.rd p DISP.DISP_STAT_lanes = 0 ∧ u.rd p DISP.DISP_STAT_lt_cause = (if eq then 2 else 1) ∧ u.raised p DISP.ev_lt_fail) ∧
      (∀ c d rest, x.cands = c :: d :: rest → d.1 ≤ 4 → d.2 ≤ 6 → ∃ u, exec (.linkTrainingDone n false eq) s = .next (s.after u) ∧ u.rd p DISP.DISP_STAT_lanes = d.1 ∧ u.rd p DISP.DISP_STAT_rate = d.2 ∧ s.counted u p DISP.DISP_CNT_trainings ∧
        (u.dh n.val).training = true ∧ u.outbox = s.outbox ++ [.bay n.val "train" [d.1, d.2]])) ∧
    (∀ w : Fin 8,
      let r := s.winSig n.val w.val
      ((s.scanning n.val = false ∨ s.winMode n.val w.val = 0) → exec (.windowSignature n w) s = .next (s.after s)) ∧
      (s.scanning n.val = true → s.winMode n.val w.val = 2 → s.rd z (FRZ.WIN_Y_y1 w.val) ≤ x.decRow * 16 → x.capture = [] → exec (.windowSignature n w) s = .next (s.after ((r.2.wr z (FRZ.WIN_SIG_sig w.val) r.1).winCount n.val w.val (r.1 != s.rd z (FRZ.WIN_REF_ref w.val))))) ∧
      (s.on z FRZ.FRZ_CFG_en = true → s.on z (FRZ.WIN_STAT_viol w.val) = false →
        (let c := min 255 (s.rd z (FRZ.WIN_STAT_count w.val) + 1)
         (s.winCount n.val w.val true).rd z (FRZ.WIN_STAT_count w.val) = c ∧ (s.winCount n.val w.val true).on z (FRZ.WIN_STAT_viol w.val) = decide (s.rd1 z (FRZ.WIN_CFG_n w.val) ≤ c)) ∧
        (s.winCount n.val w.val false).rd z (FRZ.WIN_STAT_count w.val) = 0) ∧
      (s.on z FRZ.FRZ_CFG_en = true → s.on z (FRZ.WIN_STAT_viol w.val) = true → (s.winCount n.val w.val false).on z (FRZ.WIN_STAT_viol w.val) = s.on z (FRZ.WIN_CFG_latch w.val)) ∧
      (s.alive z = true →
        (∀ v, ∃ u, exec (.windowCfgWrite n w 0 v) s = .next (s.after u) ∧ u.rd z (FRZ.WIN_CFG_mode w.val) = bitsOf v 31 30 ∧ u.rd z (FRZ.WIN_CFG_n w.val) = bitsOf v 7 0 ∧ u.rd z (FRZ.WIN_STAT_count w.val) = 0 ∧
          u.on z (FRZ.WIN_STAT_viol w.val) = false ∧ Tab.find w.val (u.dh n.val).base = none) ∧
        (∀ v, ∃ u, exec (.windowCfgWrite n w 1 v) s = .next (s.after u) ∧ u.rd z (FRZ.WIN_X_x0 w.val) = bitsOf v 12 0 ∧ u.rd z (FRZ.WIN_X_x1 w.val) = bitsOf v 28 16) ∧
        (∀ v, ∃ u, exec (.windowCfgWrite n w 2 v) s = .next (s.after u) ∧ u.rd z (FRZ.WIN_Y_y0 w.val) = bitsOf v 12 0 ∧ u.rd z (FRZ.WIN_Y_y1 w.val) = bitsOf v 28 16) ∧
        (∃ u, exec (.windowCapture n w) s = .next (s.after u) ∧ (u.dh n.val).capture.contains w.val = true ∧ u.regs = s.regs) ∧
        (∀ v, bitOf v w.val = 1 → s.on z (FRZ.WIN_STAT_viol w.val) = true → s.on z (FRZ.WIN_CFG_latch w.val) = true → ∃ u, exec (.freezeClear n v) s = .next (s.after u) ∧ u.on z (FRZ.WIN_STAT_viol w.val) = false ∧ u.rd z (FRZ.WIN_STAT_count w.val) = 0 ∧
          u.raised z (FRZ.ev_clear w.val)))) ∧
    (s.alive z = true → s.on z FRZ.WD_CFG_en = true → s.scanning n.val = true → s.on z FRZ.WD_STAT_viol = false → ∃ u, exec (.presentWatchdogExpiry n) s = .next (s.after u) ∧ u.on z FRZ.WD_STAT_viol = true ∧ u.on z FRZ.FRZ_STAT_wd = true ∧
      s.counted u z FRZ.FRZ_CNT_violations ∧ u.raised z FRZ.ev_wd_viol) ∧
    (s.alive z = true → s.on z FRZ.WD_STAT_viol = true → exec (.presentWatchdogExpiry n) s = .next (s.after s))

/-- R289–R303. -/
def Obligations.UsbControllers : Prop :=
  ∀ (s : State) (n : Bay) (t : Nat), s.life = .running →
    let p := Pg.usb n.val
    let x := s.ufn n.val
    let ep (u : State) (slot d : Nat) : UsbEp := ((u.ufn n.val).slot slot).ep d
    (s.fnRuns n.val t = false → ∀ slot d ev evs,
      exec (.disableSlot n t slot ev) s = .next (s.after s) ∧ exec (.resetDevice n t slot evs ev) s = .next (s.after s) ∧ exec (.stallRx n t slot d ev) s = .next (s.after s) ∧ (∀ l, exec (.doorbellWrite n t slot d l) s = .next (s.after s)) ∧
      (∀ h tev, exec (.stopEndpoint n t slot d h tev ev) s = .next (s.after s)) ∧ (∀ i more, exec (.transferComplete n t slot d i more ev) s = .next (s.after s)) ∧ (∀ w, exec (.memoryRequestFailure n t w slot d ev) s = .next (s.after s)) ∧
      (∀ port tt add drop, exec (.configureEndpoint n t slot port tt add drop ev) s = .next (s.after s)) ∧ (∀ port, exec (.usbPortReset n t port evs) s = .next (s.after s)) ∧ (∀ i l td, exec (.isoIntervalStart n t i l td) s = .next (s.after s)) ∧
      (∀ c, exec (.isoAckRx n t c) s = .next (s.after s)) ∧ (∀ k, exec (.isoAckTimeout n t k) s = .next (s.after s))) ∧
    (s.fnRuns n.val t = true →
      (∀ slot port tt add drop ev,
        let eps := add.foldl (fun l c => Tab.put c.dci { state := epRunning, cfg := c } l) ((x.slot slot).eps.filter (fun e => !drop.contains e.1))
        let y := { x with slots := Tab.put slot { port := port, tt := tt, eps := eps } x.slots }
        (y.fits = true → add.any (fun c => c.iso) = false → ∃ w : State, exec (.configureEndpoint n t slot port tt add drop ev) s = .next (s.after (w.cmdEvent n.val t ccSuccess ev)) ∧ w.ufn n.val = y) ∧
        (y.fits = false → ∃ w : State, exec (.configureEndpoint n t slot port tt add drop ev) s = .next (s.after (w.cmdEvent n.val t ccBandwidth ev)) ∧ w.raised p USB.ev_bw_refused ∧ w.usb = s.usb)) ∧
      (∀ slot d tev ev,
        let y := s.setEp n.val slot d { ep s slot d with state := epStopped, busy := false }
        ((ep s slot d).state = epRunning → exec (.stopEndpoint n t slot d none tev ev) s = .next (s.after ((if (ep s slot d).busy then y.xferEvent n.val t ccStopped tev else y).cmdEvent n.val t ccSuccess ev)) ∧ (ep y slot d).state = epStopped) ∧
        ((ep s slot d).state ≠ epRunning → exec (.stopEndpoint n t slot d none tev ev) s = .next (s.after (s.cmdEvent n.val t ccContext ev))) ∧
        (∀ code, exec (.stopEndpoint n t slot d (some code) tev ev) s = .next (s.after (((s.epHalt n.val slot d).xferEvent n.val t (if code = ccSuccess then ccStall else code) tev).cmdEvent n.val t ccContext ev)))) ∧
      (∀ slot d l, slot ≠ 0 → x.run = true → (ep s slot d).state ≠ epHalted → ∃ y : State, exec (.doorbellWrite n t slot d l) s = .next (s.after (y.each l (fun u r => u.usbReadMem n.val t r.1 r.2))) ∧ (ep y slot d).state = epRunning ∧ (ep y slot d).busy = true ∧ y.regs = s.regs) ∧
      (∀ d l, x.run = true → exec (.doorbellWrite n t 0 d l) s = .next (s.after (s.each l (fun u r => u.usbReadMem n.val t r.1 r.2)))) ∧
      (∀ slot d l, slot ≠ 0 → (ep s slot d).state = epHalted → exec (.doorbellWrite n t slot d l) s = .next (s.after s)) ∧
      (x.run = false → ∀ slot d l, exec (.doorbellWrite n t slot d l) s = .next (s.after s)) ∧
      (∀ slot d ev, ∃ y : State, exec (.stallRx n t slot d ev) s = .next (s.after (y.xferEvent n.val t ccStall ev)) ∧ (ep y slot d).state = epHalted ∧ (ep y slot d).busy = false) ∧
      (∀ slot d l more ev, ((ep s slot d).state ≠ epRunning → exec (.transferComplete n t slot d l more ev) s = .next (s.after s)) ∧
        ((ep s slot d).state = epRunning → ∃ y : State, exec (.transferComplete n t slot d l more ev) s = .next (s.after ((y.each l (fun u r => u.usbWriteMem n.val t r.1 r.2)).xferEvent n.val t (if ev.left = 0 then ccSuccess else ccShort) ev)) ∧ (ep y slot d).busy = more ∧ y.regs = s.regs)) ∧
      (∀ slot d ev,
        (∃ y : State, exec (.memoryRequestFailure n t .transfer slot d ev) s = .next (s.after (y.xferEvent n.val t ccTrunkDma ev)) ∧ (ep y slot d).state = epHalted ∧ s.counted y p USB.DMA_CNT_dma_err ∧ y.raised p USB.ev_dma_err) ∧
        exec (.memoryRequestFailure n t .context slot d ev) s = .next (s.after (s.cmdEvent n.val t ccTrunkDma ev)) ∧
        (∃ u, exec (.memoryRequestFailure n t .ring slot d ev) s = .next (s.after u) ∧ (u.ufn n.val).hse = true ∧ (u.ufn n.val).run = false ∧ (u.ufn n.val).halted = true ∧ u.raised p USB.ev_hse) ∧
        (∃ u, exec (.memoryRequestFailure n t .eventWrite slot d ev) s = .next (s.after u) ∧ (u.ufn n.val).hse = true ∧ u.raised p USB.ev_hse ∧ s.counted u p USB.DMA_CNT_dma_err)) ∧
      (∀ slot evs ev, Tab.find slot x.slots = none → exec (.resetDevice n t slot evs ev) s = .next (s.after (s.cmdEvent n.val t ccNoSlot ev)) ∧ exec (.disableSlot n t slot ev) s = .next (s.after (s.cmdEvent n.val t ccNoSlot ev))) ∧
      (∀ slot k evs ev, Tab.find slot x.slots = some k →
        (∃ y : State, exec (.resetDevice n t slot evs ev) s = .next (s.after (y.cmdEvent n.val t ccSuccess ev)) ∧ ∀ e, e ∈ ((y.ufn n.val).slot slot).eps → e.1 = 1) ∧
        (∃ y : State, exec (.disableSlot n t slot ev) s = .next (s.after (y.cmdEvent n.val t ccSuccess ev)) ∧ Tab.find slot (y.ufn n.val).slots = none)) ∧
      (∀ (port : Fin 3) evs, ∃ u, exec (.usbPortReset n t port evs) s = .next (s.after u) ∧ (u.ufn n.val).u3.contains (port.val + 1) = false ∧ (u.ufn n.val).wake.contains (port.val + 1) = false ∧ u.outbox.getLast? = some (.bay n.val "usb port reset" [port.val + 1])) ∧
      (x.run = true → x.outEvs = [] → x.outs = [] → ∃ u, exec (.isoIntervalStart n t [] [] []) s = .next (s.after u) ∧ u.rd p USB.ISO_IVL_interval = (s.rd p USB.ISO_IVL_interval + 1) % 2 ^ 32 ∧ (u.ufn n.val).inOk = (!s.isoWaits n.val) ∧ u.outbox = s.outbox) ∧
      (∀ c evs, Tab.find (numAt c.payload 4 4) x.acks = some evs → byteAt c.payload 0 = 4 → byteAt c.payload 1 = 0 → ∃ y : State, exec (.isoAckRx n t c) s = .next (s.after (y.each evs (fun u e => u.xferEvent n.val t ccSuccess e))) ∧
        Tab.find (numAt c.payload 4 4) (y.ufn n.val).acks = none ∧ y.regs = s.regs) ∧
      (∀ k evs, Tab.find k x.acks = some evs → ∃ y : State, exec (.isoAckTimeout n t k) s = .next (s.after (y.each evs (fun u e => u.xferEvent n.val t ccTrunkDma e))) ∧ Tab.find k (y.ufn n.val).acks = none ∧
        s.counted y p USB.ISO_CNT1_lost ∧ y.raised p USB.ev_iso_lost) ∧
      (∀ k, Tab.find k x.acks = none → exec (.isoAckTimeout n t k) s = .next (s.after s))) ∧
    (s.bayOn n.val = false → exec (.hostControllerReset n) s = .next (s.after s) ∧ (∀ port, exec (.hostResumeWrite n port) s = .next (s.after s) ∧ exec (.deviceRemoteWake n port) s = .next (s.after s) ∧ exec (.usbDeviceConnect n port) s = .next (s.after s) ∧
      (∀ evs, exec (.usbDisconnect n t port evs) s = .next (s.after s)) ∧ (∀ v, exec (.portscPpWrite n port v) s = .next (s.after s))) ∧ (∀ c, exec (.isoOutDataRx n c) s = .next (s.after s))) ∧
    (s.bayOn n.val = true →
      (∃ u, exec (.hostControllerReset n) s = .next (s.after u) ∧ u.ufn n.val = { ccs := x.ccs, csc := x.ccs, pp3 := x.pp3 }) ∧
      (∀ c, byteAt c.payload 0 = 3 → (Tab.find (numAt c.payload 4 4) x.outEvs).isSome = true → ∃ u, exec (.isoOutDataRx n c) s = .next (s.after u) ∧ (Tab.find (numAt c.payload 4 4) (u.ufn n.val).outs).map List.length = some (min 20 (numAt c.payload 2 2)) ∧ u.regs = s.regs) ∧
      (∀ c, Tab.find (numAt c.payload 4 4) x.outEvs = none → exec (.isoOutDataRx n c) s = .next (s.after s)) ∧
      (s.on p USB.USB_CFG_p3_en = true → exec (.portscPpWrite n 2 true) s = .next (s.after (s.setUfn n.val { x with pp3 := true }))) ∧
      (s.on p USB.USB_CFG_p3_en = true → ∃ u, exec (.portscPpWrite n 2 false) s = .next (s.after u) ∧ (u.ufn n.val).pp3 = false ∧ (u.ufn n.val).ccs.contains 3 = false ∧ (x.ccs.contains 3 = true → (u.ufn n.val).csc.contains 3 = true)) ∧
      (∀ v, s.on p USB.USB_CFG_p3_en = false → exec (.portscPpWrite n 2 v) s = .next (s.after s)) ∧
      (s.tcLive n.val = true → s.on (Pg.tc n.val) TC.TC_CFG_pp_link = false → exec (.portscPpWrite n 1 false) s = .next (s.after s)) ∧
      (s.tcLive n.val = true → s.tcWet n.val = false → s.on (Pg.tc n.val) TC.TC_CFG_pp_link = true → s.tcAttached n.val = false → s.tcSt n.val = tcUnattached ∨ s.tcSt n.val = tcAttachWait →
        exec (.portscPpWrite n 1 false) s = .next (s.after ((s.setTc n.val { s.tc n.val with ppOff := true }).tcIdle n.val))) ∧
      (s.tcWet n.val = true → ∀ v, exec (.portscPpWrite n 1 v) s = .next (s.after s)) ∧
      (s.tcLive n.val = true → s.tcWet n.val = false → exec (.portscPpWrite n 1 true) s = .next (s.after (s.ppSet n.val))) ∧ (s.portThere n.val 1 = false → ∀ v, exec (.portscPpWrite n 0 v) s = .next (s.after s)) ∧
      (∀ port : Fin 3,
        let k := port.val + 1
        (x.ccs.contains k = false → (∀ evs, exec (.usbDisconnect n t port evs) s = .next (s.after s))) ∧
        (x.ccs.contains k = true → ∀ evs, ∃ u, exec (.usbDisconnect n t port evs) s = .next (s.after u) ∧ (u.ufn n.val).ccs.contains k = false ∧ (u.ufn n.val).csc.contains k = true) ∧
        (s.portThere n.val k = true → x.ccs.contains k = false → ∃ u, exec (.usbDeviceConnect n port) s = .next (s.after u) ∧ (u.ufn n.val).ccs = x.ccs ++ [k] ∧ (u.ufn n.val).csc.contains k = true ∧ u.regs = s.regs) ∧
        ((s.portThere n.val k = false ∨ x.ccs.contains k = true) → exec (.usbDeviceConnect n port) s = .next (s.after s)) ∧
        (x.u3.contains k = true → x.wake.contains k = false → ∃ u, exec (.hostResumeWrite n port) s = .next (s.after u) ∧ (u.ufn n.val).u3.contains k = false ∧ (u.ufn n.val).resume.contains k = true ∧ u.outbox = s.outbox ++ [.bay n.val "usb resume" [k]]) ∧
        (x.wake.contains k = true → ∃ u, exec (.hostResumeWrite n port) s = .next (s.after u) ∧ (u.ufn n.val).wake.contains k = false ∧ bitOf (u.rd p USB.HUB_EXT_rwake_seen) port.val = 1 ∧ u.raised p USB.ev_rwake) ∧
        (x.u3.contains k = true → x.resume.contains k = false → ∃ u, exec (.deviceRemoteWake n port) s = .next (s.after u) ∧ (u.ufn n.val).wake.contains k = true ∧ (u.ufn n.val).u3.contains k = false ∧ (u.ufn n.val).plc.contains k = true ∧ u.regs = s.regs) ∧
        (x.resume.contains k = true → ∃ u, exec (.deviceRemoteWake n port) s = .next (s.after u) ∧ bitOf (u.rd p USB.HUB_EXT_rwake_seen) port.val = 1 ∧ u.raised p USB.ev_rwake) ∧
        (x.u3.contains k = false → x.wake.contains k = false → x.resume.contains k = false → exec (.hostResumeWrite n port) s = .next (s.after s) ∧ exec (.deviceRemoteWake n port) s = .next (s.after s)))) ∧
    (∀ pt c data, (s.mode ≠ .head → exec (.isoStagingRx pt c data) s = .next (s.after s)) ∧
      (∀ v f h, s.mode = .head → s.isoFn (chainOf pt) c.tunnel = some (v, f) → s.tunCell (bitsOf (s.rd (Pg.vhc v) (VHC.DIR_AUX_aux f)) 27 16) (chainOf pt) = some h → byteAt c.payload 0 = 1 → c.gen = s.vGen v → s.vState v = Machine.vActive →
        let recs := isoRecs c.payload
        let ds := isoSplit recs (isoData c.payload)
        ∃ y : State, exec (.isoStagingRx pt c data) s = .next (s.after (y.sendIso 7 (chainOf pt) h (isoHead 4 0 (numAt c.payload 4 4) []) [])) ∧ y.regs = s.regs ∧
          y.outbox = s.outbox ++ (List.range recs.length).map (fun i => .hostWrite (v + 1) (recs.getD i (0, 0, 0)).1 (ds.getD i []))))

/-- R304–R307, R384. -/
def Obligations.ServicePort : Prop :=
  ∀ (s : State), s.life = .running →
    let p := Pg.svc
    (s.svc.up = false → s.svcCond = true → ∃ u, exec .svcAttach s = .next (s.after u) ∧ u.svc = { up := true } ∧ u.rd p SVC.SVC_STAT_state = 1 ∧ u.raised p SVC.ev_attach ∧ u.outbox = s.outbox ++ [.pin "SVC_PULLUP" 1]) ∧
    ((s.svc.up = true ∨ s.svcCond = false) → exec .svcAttach s = .next (s.after s)) ∧
    (s.svcCond = true → exec .svcDetach s = .next (s.after s)) ∧
    (s.svc.up = true → s.svcCond = false → ∃ u, exec .svcDetach s = .next (s.after u) ∧ u.svc = {} ∧ u.rd p SVC.SVC_STAT_state = 0 ∧ u.rd p SVC.SVC_STAT_address = 0 ∧ u.rd p SVC.SVC_STAT_speed = 0 ∧ u.raised p SVC.ev_detach ∧
      u.outbox.getLast? = some (.pin "SVC_PULLUP" 0)) ∧
    (s.svc.up = false → (∀ hs, exec (.svcBusReset hs) s = .next (s.after s)) ∧ exec .svcSuspend s = .next (s.after s) ∧ exec .svcResume s = .next (s.after s) ∧ (∀ l a, exec (.svcControlRequest l a) s = .next (s.after s)) ∧ (∀ q r, exec (.svcBulkOut q r) s = .next (s.after s))) ∧
    (s.svc.up = true →
      (∀ hs, ∃ u, exec (.svcBusReset hs) s = .next (s.after u) ∧ s.counted u p SVC.SVC_CNT_resets ∧ u.raised p SVC.ev_bus_reset ∧ u.rd p SVC.SVC_STAT_state = 1 ∧ u.rd p SVC.SVC_STAT_address = 0 ∧ u.rd p SVC.SVC_STAT_suspended = 0 ∧
        u.rd p SVC.SVC_STAT_speed = (if hs then 2 else 1) ∧ u.svc = { up := true } ∧ (s.svc.ctl.isSome = true → s.counted u p SVC.SVC_CNT_aborts ∧ u.raised p SVC.ev_ctl_abort)) ∧
      (s.on p SVC.SVC_STAT_suspended = false → (∃ u, exec .svcSuspend s = .next (s.after u) ∧ u.on p SVC.SVC_STAT_suspended = true ∧ u.raised p SVC.ev_suspend ∧ u.svc = s.svc) ∧ exec .svcResume s = .next (s.after s)) ∧
      (s.on p SVC.SVC_STAT_suspended = true → (∃ u, exec .svcResume s = .next (s.after u) ∧ u.on p SVC.SVC_STAT_suspended = false ∧ u.raised p SVC.ev_resume ∧ u.svc = s.svc) ∧ exec .svcSuspend s = .next (s.after s) ∧ (∀ l a, exec (.svcControlRequest l a) s = .next (s.after s))) ∧
      (s.on p SVC.SVC_STAT_suspended = false → s.rd p SVC.SVC_STAT_speed ≠ 0 → ∀ l,
        (s.svcServe l = none → ∀ a, ∃ u, exec (.svcControlRequest l a) s = .next (s.after u) ∧ s.counted u p SVC.SVC_CNT1_stalls ∧ u.svc.ctl = none ∧ u.outbox = s.outbox ++ [.note "svc stall" []]) ∧
        (∀ d t, s.svcServe l = some (d, t) → (∃ u, exec (.svcControlRequest l false) s = .next (s.after u) ∧ u.regs = s.regs ∧ u.svc = { s.svc with ctl := some l } ∧ u.outbox = s.outbox ++ [.note "svc data" (d.map BitVec.toNat)]) ∧
          (∃ u, exec (.svcControlRequest l true) s = .next (s.after u) ∧ u.regs = t.regs ∧ u.svc.ctl = none)) ∧
        (∀ a : Byte, a.toNat ≤ 127 → a.toNat ≠ 0 → s.rd p SVC.SVC_STAT_state ≠ 3 → ∃ u, exec (.svcControlRequest [0, 5, a, 0, 0, 0, 0, 0] true) s = .next (s.after u) ∧ u.rd p SVC.SVC_STAT_address = a.toNat ∧ u.rd p SVC.SVC_STAT_state = 2) ∧
        (2 ≤ s.rd p SVC.SVC_STAT_state → ∃ u, exec (.svcControlRequest [0, 9, 1, 0, 0, 0, 0, 0] true) s = .next (s.after u) ∧ u.rd p SVC.SVC_STAT_state = 3 ∧ u.raised p SVC.ev_configured ∧ u.svc.halts = [])) ∧
      (∀ q r, s.rd p SVC.SVC_STAT_state ≠ 3 → exec (.svcBulkOut q r) s = .next (s.after s)) ∧
      (∀ q r, s.rd p SVC.SVC_STAT_state = 3 → s.on p SVC.SVC_STAT_suspended = false → s.svc.halts = [] → s.engState 15 = engRunning → ∃ y st d, s.mbServe 0 15 r = (st, d, y) ∧
        exec (.svcBulkOut q r) s = .next (s.after (y.svcNote "svc bulk in" ((mbMsg (mbOp r) q st d).map BitVec.toNat)))))

/-- R310–R320, R329. -/
def Obligations.EthernetAndNics : Prop :=
  ∀ (s : State), s.life = .running →
    (∀ n : Bay,
      let p := Pg.eth n.val
      let x := s.eth1 n.val
      ((s.ethRuns n.val = false ∨ s.on p ETH.MAC_STAT_link = false) → ∀ l fcs nic, exec (.ethRxFrame n l fcs nic) s = .next (s.after s)) ∧
      (s.ethRuns n.val = true → s.on p ETH.MAC_STAT_link = true → ∀ l nic,
        (32768 < s.fifoFill n.val + l.length → ∀ fcs, ∃ u, exec (.ethRxFrame n l fcs nic) s = .next (s.after u) ∧ s.counted u p ETH.ETH_CNT1_rx_ovf ∧ u.raised p ETH.ev_rx_ovf ∧ u.outbox = s.outbox) ∧
        (s.fifoFill n.val + l.length ≤ 32768 → ∃ u, exec (.ethRxFrame n l false nic) s = .next (s.after u) ∧ s.counted u p ETH.ETH_CNT0_rx_fcs ∧ u.outbox = s.outbox) ∧
        (s.fifoFill n.val + l.length ≤ 32768 → 60 ≤ l.length → l.length + 4 ≤ s.ethMax n.val →
          (isPause l = true → s.on p ETH.MAC_CFG_pause_rx = true → be16 l 16 ≠ 0 → ∃ u, exec (.ethRxFrame n l true nic) s = .next (s.after u) ∧ (u.eth1 n.val).paused = true ∧ u.raised p ETH.ev_pause_rx) ∧
          (isPause l = false → s.ethAccepts n.val l = false → ∃ u, exec (.ethRxFrame n l true nic) s = .next (s.after u) ∧ s.counted u p ETH.ETH_CNT0_rx_filt ∧ u.outbox = s.outbox) ∧
          (∀ t h, isPause l = false → s.ethAccepts n.val l = true → s.hairpin n.val l = none → s.nicUp n.val = some (t, h) → s.fnRuns n.val t = true → frameTci l = none → s.ethStamps n.val l = false → ∃ y : State,
            exec (.ethRxFrame n l true nic) s = .next (s.after ((y.ethSource n.val t h (frameHead l.length 0 (nic % 4) 0 0 0 ++ l)).pauseCheck n.val)) ∧ s.counted y p ETH.RX_FRAMES_rx_frames ∧ y.outbox = s.outbox))) ∧
      ((s.ethRuns n.val = false ∨ x.xoff = false ∨ s.on p ETH.MAC_CFG_pause_tx = false) → exec (.pauseRepeat n) s = .next (s.after s)) ∧
      (s.ethRuns n.val = true → x.xoff = true → s.on p ETH.MAC_CFG_pause_tx = true → s.ethXoff n.val < s.fifoFill n.val → exec (.pauseRepeat n) s = .next (s.after (s.emit (.bay n.val "pause" [0xFFFF])))) ∧
      (s.bayOn n.val = false → ∀ good c, exec (.ethTxFrame n good c) s = .next (s.after s)) ∧
      (s.bayOn n.val = true → ∀ good c,
        (x.paused = true → exec (.ethTxFrame n good c) s = .next (s.after (s.setEth n.val { x with hold := x.hold ++ [(good, c)] }))) ∧
        (x.paused = false → byteAt c.payload 2 = 0 →
          let l := (c.payload.drop 16).take (numAt c.payload 0 2)
          let w := l ++ List.replicate (60 - l.length) 0
          (s.on p ETH.MAC_STAT_link = false → ∃ u, exec (.ethTxFrame n good c) s = .next (s.after u) ∧ s.counted u p ETH.ETH_CNT1_tx_nolink ∧ u.outbox = s.outbox) ∧
          (s.on p ETH.MAC_STAT_link = true → s.ethMax n.val < w.length + 4 → ∃ u, exec (.ethTxFrame n good c) s = .next (s.after u) ∧ s.counted u p ETH.ETH_CNT2_tx_long ∧ u.outbox = s.outbox) ∧
          (s.on p ETH.MAC_STAT_link = true → w.length + 4 ≤ s.ethMax n.val → ∃ u, exec (.ethTxFrame n good c) s = .next (s.after u) ∧ s.counted u p ETH.TX_FRAMES_tx_frames ∧ u.outbox = s.outbox ++ [.frame n.val w good]))) ∧
      (x.paused = false → exec (.pauseTimerExpiry n) s = .next (s.after s)) ∧
      (x.paused = true → ∃ y : State, exec (.pauseTimerExpiry n) s = .next (s.after ((y.each x.hold (fun u h => u.ethSend n.val h.1 h.2)).pauseCheck n.val)) ∧ (y.eth1 n.val).paused = false ∧ (y.eth1 n.val).hold = [] ∧ y.regs = s.regs) ∧
      (∀ an (speed : Fin 4), ((s.ethRuns n.val = false ∨ s.on p ETH.MAC_STAT_link = true) → exec (.ethLinkUp n an speed) s = .next (s.after s)) ∧
        (s.ethRuns n.val = true → s.on p ETH.MAC_STAT_link = false → ∃ u, exec (.ethLinkUp n an speed) s = .next (s.after u) ∧ u.on p ETH.MAC_STAT_link = true ∧ u.raised p ETH.ev_link_up ∧
          u.rd p ETH.MAC_STAT_speed = (if s.rd p ETH.MAC_CFG_mode = 1 then min 2 speed.val else if s.rd p ETH.MAC_CFG_mode = 2 then 2 else 3))) ∧
      ((s.bayOn n.val = false ∨ s.on p ETH.MAC_STAT_link = false) → ∀ cut, exec (.ethLinkDown n cut) s = .next (s.after s)) ∧
      (s.bayOn n.val = true → s.on p ETH.MAC_STAT_link = true → (∃ u, exec (.ethLinkDown n none) s = .next (s.after u) ∧ u.on p ETH.MAC_STAT_link = false ∧ u.raised p ETH.ev_link_down ∧ u.outbox = s.outbox) ∧
        (∀ l, ∃ u, exec (.ethLinkDown n (some l)) s = .next (s.after u) ∧ u.on p ETH.MAC_STAT_link = false ∧ s.counted u p ETH.ETH_CNT2_tx_abort ∧ u.raised p ETH.ev_tx_abort ∧ u.outbox = s.outbox ++ [.frame n.val l false])) ∧
      (∀ w, (s.on p ETH.MDIO_STAT_busy = true → exec (.mdioCmd n w) s = .next (s.after s)) ∧
        (s.alive p = true → s.on p ETH.MDIO_STAT_busy = false → bitOf w 31 = 1 → ∃ u, exec (.mdioCmd n w) s = .next (s.after u) ∧ u.on p ETH.MDIO_STAT_busy = true ∧ u.rd p ETH.MDIO_CMD_phy = bitsOf w 25 21 ∧ u.rd p ETH.MDIO_CMD_op = bitsOf w 29 28 ∧
          u.outbox = s.outbox ++ [.bay n.val "mdio" [bitOf w 30, bitsOf w 29 28, bitsOf w 25 21, bitsOf w 20 16, bitsOf w 15 0]])) ∧
      (∀ d, (s.on p ETH.MDIO_STAT_busy = false → exec (.mdioDone n d) s = .next (s.after s)) ∧
        (s.alive p = true → s.on p ETH.MDIO_STAT_busy = true → ∃ u, exec (.mdioDone n d) s = .next (s.after u) ∧ u.on p ETH.MDIO_STAT_busy = false ∧ u.rd p ETH.MDIO_STAT_data = if 2 ≤ s.rd p ETH.MDIO_CMD_op then d % 65536 else s.rd p ETH.MDIO_STAT_data))) ∧
    (∀ (v : Vhc) (f : Fin 16) (q : Fin 4),
      let k := fnKey v.val f.val
      let p := Pg.nic k
      let n := s.txSize k q.val
      let old := s.rd p (NIC.TX_TAIL_tail q.val) % n
      (s.mode = .head → s.apertureOn v.val f.val 2 = false → (∀ tail l, exec (.nicTxTailWrite v f q tail l) s = .next (s.after (s.bump (Pg.vhc v.val) VHC.UR_CNT_ur 1))) ∧
        (∀ rx r w, exec (.nicRingCfgWrite v f rx q r w) s = .next (s.after (s.bump (Pg.vhc v.val) VHC.UR_CNT_ur 1)))) ∧
      (s.apertureOn v.val f.val 2 = true → ∀ tail l,
        (s.on p (NIC.TX_CFG_en q.val) = false → ∃ u, exec (.nicTxTailWrite v f q tail l) s = .next (s.after u) ∧ u.rd p (NIC.TX_TAIL_tail q.val) = tail % 4096 ∧ u.nic = s.nic) ∧
        (s.on p (NIC.TX_CFG_en q.val) = true → ∃ (y : State) (j : Nat), exec (.nicTxTailWrite v f q tail l) s = .next (s.after (nicServe v.val f.val j y)) ∧ y.rd p (NIC.TX_TAIL_tail q.val) = tail % 4096 ∧
          Tab.find q.val (y.nicCtx k).tx = some ((Tab.find q.val (s.nicCtx k).tx).getD [] ++ (l.take ((tail % 4096 % n + n - old) % n)).map (fun d => txDescOf d.1 d.2)) ∧
          y.outbox = s.outbox ++ (List.range ((tail % 4096 % n + n - old) % n)).map (fun i => .hostRead (v.val + 1) (s.txBase k q.val + 16 * ((old + i) % n)) 16 0))) ∧
      (s.apertureOn v.val f.val 2 = true → ∀ w,
        (s.on p (NIC.RX_CFG_en q.val) = true → exec (.nicRingCfgWrite v f true q 0 w) s = .next (s.after s)) ∧
        (s.on p (NIC.RX_CFG_en q.val) = false → (∃ u, exec (.nicRingCfgWrite v f true q 0 w) s = .next (s.after u) ∧ u.rd p (NIC.RX_BASE_LO_base_lo q.val) = bitsOf w 31 4) ∧
          (bitOf w 31 = 1 → ∃ u, exec (.nicRingCfgWrite v f true q 2 w) s = .next (s.after u) ∧ u.on p (NIC.RX_CFG_en q.val) = true ∧ u.rd p (NIC.RX_CFG_size q.val) = bitsOf w 19 16 ∧ u.rd p (NIC.RX_CFG_buf q.val) = bitsOf w 12 8 ∧ u.rd p (NIC.RX_HEAD_head q.val) = 0)) ∧
        (s.on p (NIC.TX_CFG_en q.val) = false → bitOf w 31 = 1 → ∃ u, exec (.nicRingCfgWrite v f false q 2 w) s = .next (s.after u) ∧ u.on p (NIC.TX_CFG_en q.val) = true ∧ u.rd p (NIC.TX_CFG_size q.val) = bitsOf w 19 16 ∧ u.rd p (NIC.TX_HEAD_head q.val) = 0 ∧
          Tab.find q.val (u.nicCtx k).tx = none)) ∧
      ((Tab.find (4 + q.val) (s.nicCtx k).quiet).getD 0 = 0 → exec (.rxIrqTimer v f q) s = .next (s.after s)) ∧
      (∀ m, Tab.find (4 + q.val) (s.nicCtx k).quiet = some (m + 1) → ∃ y : State, exec (.rxIrqTimer v f q) s = .next (s.after (y.fnSignal v.val f.val (s.rd p (NIC.RX_CFG_vector q.val)))) ∧ Tab.find (4 + q.val) (y.nicCtx k).quiet = none ∧ y.regs = s.regs) ∧
      (∀ w, (s.nicCtx k).wait = [w] → w.q = q.val → ∃ y : State, exec (.timestampTimeout v f q ((w.first + w.n - 1) % n)) s = .next (s.after (y.txBack v.val f.val q.val w.first w.descs none false)) ∧ (y.nicCtx k).wait = [] ∧ y.regs = s.regs) ∧
      ((s.nicCtx k).wait = [] → ∀ i, exec (.timestampTimeout v f q i) s = .next (s.after s)) ∧
      (∀ pt c, s.hears pt c = true → s.mode = .head → byteAt c.payload 0 = 0x43 → c.vhc = v.val →
        (c.gen ≠ s.vGen v.val → ∃ u, exec (.timestampEventRx pt c) s = .next (s.after u) ∧ s.counted u Pg.vhg VHG.EVD_CNT_dropped ∧ u.nic = s.nic) ∧
        (∀ w, c.gen = s.vGen v.val → s.vState v.val = Machine.vActive → s.evEntry v.val (chainOf pt) c.shub c.sport 2 = some f.val → byteAt c.payload 2 = q.val → (s.nicCtx k).wait = [w] → w.q = q.val → numAt c.payload 4 2 = (w.first + w.n - 1) % n → byteAt c.payload 6 = 1 →
          ∃ y : State, exec (.timestampEventRx pt c) s = .next (s.after (y.txBack v.val f.val q.val w.first w.descs (some (numAt c.payload 8 8)) false)) ∧ (y.nicCtx k).wait = [])) ∧
      (∀ pt c bufs, s.mode = .head → s.nicFn (chainOf pt) c.tunnel = some (v.val, f.val) → byteAt c.payload 3 = q.val →
        let l := (c.payload.drop 16).take (numAt c.payload 0 2)
        let head := s.rd p (NIC.RX_HEAD_head q.val) % s.rxSize k q.val
        (c.gen ≠ s.vGen v.val → ∀ good, exec (.nicFrameRx pt good c bufs) s = .next (s.after s)) ∧
        (c.gen = s.vGen v.val → s.vState v.val = Machine.vActive →
          (∃ u, exec (.nicFrameRx pt false c bufs) s = .next (s.after u) ∧ s.counted u p (NIC.RX_CNT_drops q.val) ∧ u.outbox = s.outbox) ∧
          (s.on p (NIC.RX_CFG_en q.val) = false → ∃ u, exec (.nicFrameRx pt true c bufs) s = .next (s.after u) ∧ s.counted u p (NIC.RX_CNT_drops q.val) ∧ u.outbox = s.outbox) ∧
          (s.on p (NIC.RX_CFG_en q.val) = true → 1 ≤ (s.rd p (NIC.RX_TAIL_tail q.val) % s.rxSize k q.val + s.rxSize k q.val - head) % s.rxSize k q.val → l.length ≤ s.rxBuf k q.val → ∃ (y : State) (d : List Byte),
            exec (.nicFrameRx pt true c bufs) s = .next (s.after (y.ringDone v.val f.val (4 + q.val))) ∧ y.rd p (NIC.RX_HEAD_head q.val) = (head + 1) % s.rxSize k q.val ∧ s.counted y p (NIC.RX_CNT_frames q.val) ∧
            y.outbox = s.outbox ++ [.hostRead (v.val + 1) (s.rxBase k q.val + 16 * (head % s.rxSize k q.val)) 16 0, .hostWrite (v.val + 1) (bufs.getD 0 0) l, .hostWrite (v.val + 1) (s.rxBase k q.val + 16 * (head % s.rxSize k q.val)) d] ∧
            (d.drop 8).take 2 = leBytes 2 l.length))))

/-- R323–R328, R331, R470. -/
def Obligations.PciePortsAndBays : Prop :=
  ∀ (s : State) (n : Bay), s.life = .running →
    let p := Pg.pcie n.val
    let x := s.pcx n.val
    (s.bayOn n.val = false → exec (.bayDisable n) s = .next (s.after s)) ∧
    (s.bayOn n.val = true → ∃ u, exec (.bayDisable n) s = .next (s.after u) ∧ u.rd (Pg.bay n.val) HDR.PG_CTL_en = 0 ∧ u.ufn n.val = {} ∧ u.eth1 n.val = {} ∧ u.pcx n.val = {} ∧ (u.dh n.val).bank0 = {} ∧ (u.dh n.val).slot0 = (s.dh n.val).slot0 ∧
      u.rd (Pg.disp n.val) DISP.DISP_STAT_running = 0 ∧ u.rd p PCIE.PCIE_STAT_link_up = 0) ∧
    ((s.present (Pg.bay n.val) = false ∨ s.bayOn n.val = true) → exec (.bayEnable n) s = .next (s.after s)) ∧
    (s.present (Pg.bay n.val) = true → s.bayOn n.val = false → exec (.bayEnable n) s = .next (s.after (((s.wr (Pg.bay n.val) HDR.PG_CTL_en 1).tcIdle n.val).pcieStart n.val))) ∧
    (s.pcieThere n.val = false → exec (.perstRelease n) s = .next (s.after s) ∧ (∀ v, exec (.pciePerstWrite n v) s = .next (s.after s)) ∧ exec (.pcieRetrain n) s = .next (s.after s) ∧ exec (.pcieRetrainTimer n) s = .next (s.after s) ∧
      exec (.pcieHotReset n) s = .next (s.after s) ∧ (∀ g w l, exec (.pcieLinkUp n g w l) s = .next (s.after s)) ∧ (∀ t r, exec (.deviceMemoryRequest n t r) s = .next (s.after s))) ∧
    (s.pcieThere n.val = true →
      (x.wait = false → exec (.perstRelease n) s = .next (s.after s)) ∧
      (x.wait = true → s.on p PCIE.PCIE_CTL_perst = true → ∃ u, exec (.perstRelease n) s = .next (s.after u) ∧ (u.pcx n.val).perst = x.perst ∧ (u.pcx n.val).wait = false) ∧
      (x.wait = true → s.on p PCIE.PCIE_CTL_perst = false → ∃ u, exec (.perstRelease n) s = .next (s.after u) ∧ (u.pcx n.val).perst = false ∧ (u.pcx n.val).wait = false ∧ u.outbox = s.outbox ++ [.bay n.val "perst" [0]]) ∧
      (∃ u, exec (.pciePerstWrite n true) s = .next (s.after u) ∧ u.on p PCIE.PCIE_CTL_perst = true ∧ (u.pcx n.val).perst = true ∧ (u.pcx n.val).bars = [] ∧ u.on p PCIE.PCIE_STAT_link_up = false) ∧
      (x.clock = true → x.wait = false → x.perst = true → ∃ u, exec (.pciePerstWrite n false) s = .next (s.after u) ∧ u.on p PCIE.PCIE_CTL_perst = false ∧ (u.pcx n.val).perst = false ∧ u.outbox = s.outbox ++ [.bay n.val "perst" [0]]) ∧
      (x.retrain = true → ∃ u, exec (.pcieRetrainTimer n) s = .next (s.after u) ∧ (u.pcx n.val).retrain = false ∧ u.outbox = s.outbox ++ [.bay n.val "pcie train" []]) ∧ (x.retrain = false → exec (.pcieRetrainTimer n) s = .next (s.after s)) ∧
      (x.clock = true → x.perst = false → ∃ u, exec (.pcieRetrain n) s = .next (s.after u) ∧ u.outbox = s.outbox ++ [.bay n.val "pcie train" []]) ∧ ((x.clock = false ∨ x.perst = true) → exec (.pcieRetrain n) s = .next (s.after s)) ∧
      (s.on p PCIE.PCIE_STAT_link_up = true → exec (.pcieHotReset n) s = .next (s.after (s.emit (.bay n.val "pcie hot reset" [])))) ∧ (s.on p PCIE.PCIE_STAT_link_up = false → exec (.pcieHotReset n) s = .next (s.after s)) ∧
      (∀ gen width l, ((x.clock = false ∨ x.perst = true ∨ s.on p PCIE.PCIE_STAT_link_up = true) → exec (.pcieLinkUp n gen width l) s = .next (s.after s)) ∧
        (x.clock = true → x.perst = false → s.on p PCIE.PCIE_STAT_link_up = false →
          let bs := packBars 0x40000000 (l.take 6)
          let fit := bs.all (fun b => b.1 = 0 || b.2.2 != 0)
          ∃ u, exec (.pcieLinkUp n gen width l) s = .next (s.after u) ∧ u.on p PCIE.PCIE_STAT_link_up = true ∧ u.raised p PCIE.ev_link_up ∧ (u.pcx n.val).bars = bs ∧ u.rd p PCIE.PCIE_STAT_bar_fit = b2n fit ∧
            u.rd p PCIE.PCIE_STAT_gen ≤ s.rd p PCIE.PCIE_CFG_max_gen + 1 ∧ (fit = false → u.raised p PCIE.ev_bar_fail)))) ∧
    (s.on p PCIE.PCIE_STAT_link_up = false → exec (.pcieLinkDown n) s = .next (s.after s)) ∧
    (s.on p PCIE.PCIE_STAT_link_up = true → x.outs = [] → ∃ y : State, exec (.pcieLinkDown n) s = .next (s.after (y.devReadsEnd n.val)) ∧ y.on p PCIE.PCIE_STAT_link_up = false ∧ s.counted y p PCIE.PCIE_CNT2_downs ∧ y.raised p PCIE.ev_link_down ∧ (y.pcx n.val).retrain = true) ∧
    (∀ o, s.on p PCIE.PCIE_STAT_link_up = true → x.outs = [o] → ∃ y : State, exec (.pcieLinkDown n) s = .next (s.after ((y.devAnswer o stCA erCa []).devReadsEnd n.val)) ∧ y.on p PCIE.PCIE_STAT_link_up = false ∧ (y.pcx n.val).outs = []) ∧
    (∀ id o, s.findDev n.val id = some o →
      (o.crs = false → o.cfg = true → ∀ d, ∃ u, exec (.deviceCompletionRx n id 3 d) s = .next (s.after u) ∧ u.regs = s.regs ∧ ((u.pcx n.val).outs.filter (fun y => y.id = id)).all (fun y => y.crs) = true) ∧
      (o.crs = false → ∀ d, ∃ y : State, exec (.deviceCompletionRx n id 0 d) s = .next (s.after (y.devAnswer o stSC erCa (if o.req.reads then d.take o.req.count else []))) ∧ (y.pcx n.val).outs = x.outs.filter (fun o => o.id != id) ∧ y.regs = s.regs) ∧
      (o.crs = true → (∀ st d, exec (.deviceCompletionRx n id st d) s = .next (s.after s)) ∧
        (∃ y : State, exec (.configCrsRetry n id true) s = .next (s.after (y.devAnswer o stCRS erDevice [])) ∧ (y.pcx n.val).outs = x.outs.filter (fun o => o.id != id)) ∧
        (∃ y : State, exec (.configCrsRetry n id false) s = .next (s.after (y.devEmit n.val o)) ∧ ((y.pcx n.val).outs.filter (fun y => y.id = id)).all (fun y => !y.crs) = true ∧ y.regs = s.regs)) ∧
      (o.crs = false → ∀ e, exec (.configCrsRetry n id e) s = .next (s.after s)) ∧
      (o.req.posted = false → ∃ y : State, exec (.deviceCompletionTimeout n id) s = .next (s.after (((y.erlLog erDevice o.req)).devAnswer o stCA 0 [])) ∧ s.counted y p PCIE.PCIE_CNT0_cto ∧ y.raised p PCIE.ev_dev_err ∧ (y.pcx n.val).outs = x.outs.filter (fun o => o.id != id)) ∧
      (o.req.posted = true → ∃ y : State, exec (.deviceCompletionTimeout n id) s = .next (s.after (y.erlFail erDevice o.req)) ∧ s.counted y p PCIE.PCIE_CNT0_cto ∧ y.raised p PCIE.ev_dev_err)) ∧
    (∀ id, s.findDev n.val id = none → (∀ st d, exec (.deviceCompletionRx n id st d) s = .next (s.after s)) ∧ (∀ e, exec (.configCrsRetry n id e) s = .next (s.after s)) ∧ exec (.deviceCompletionTimeout n id) s = .next (s.after s)) ∧
    (∀ t, s.pcieThere n.val = true → s.on p PCIE.PCIE_STAT_link_up = true → Tun.v (s.ownWord t) = true →
      let v := s.fnVhc t
      (s.fns.parked.contains v = false → s.fns.frozen.contains v = false →
        (∀ d, exec (.deviceMemoryRequest n t (.write (s.msgBase n.val + 8) d)) s = .next (s.after (s.bayIrq 3 n.val v 2 t))) ∧ exec (.deviceMemoryRequest n t .intx) s = .next (s.after (s.bayIrq 3 n.val v 0 t)) ∧
        (∀ a, exec (.deviceMemoryRequest n t (.read a 8 5)) s = .next (s.after (s.issue { init := 1 + n.val, req := { op := opMemRd, count := 8, addr := a, tunnel := t, vhc := v, gen := s.genFor v }, chain := s.ownHalf t, slot := 5 })))) ∧
      (s.fns.parked.contains v = true → ∀ a l tag, ∃ u, exec (.deviceMemoryRequest n t (.read a l tag)) s = .next (s.after u) ∧ s.counted u p PCIE.PCIE_CNT0_park_drop ∧ u.raised p PCIE.ev_park_drop ∧ u.outbox = s.outbox ++ [.bay n.val "device completion" [a, tag, stUR]]) ∧
      (s.fns.parked.contains v = false → s.fns.frozen.contains v = true → ∀ a d, exec (.deviceMemoryRequest n t (.write a d)) s = .next (s.after (s.setPcx n.val { x with held := x.held ++ [(t, .write a d)] }))) ∧
      (∃ (y : State) (r : TReq), exec (.deviceMemoryRequest n t .errFatal) s = .next (s.after (y.erlFail erDevice r)) ∧ s.counted y p PCIE.PCIE_CNT1_err_fatal ∧ y.raised p PCIE.ev_dev_err))

/-- R364, R369. -/
def Obligations.EfuseStarts : Prop :=
  ∀ (s : State), s.pw.on = true →
    let frame (u : State) : Prop := ∀ q g, g.off < 4096 → g.lsb < 32 → fkey q g ≠ fkey Pg.pwp PWP.EF_STAT_state → u.rd q g = s.rd q g
    (s.ef = efWait → ∃ u, exec .efuseWaitExpiry s = .next (s.after u) ∧ u.ef = efPre ∧ u.outbox = s.outbox ++ [.pin "EF_PCG" 1] ∧ frame u) ∧
    (s.ef = efPre → ∃ u, exec .prechargeDone s = .next (s.after u) ∧ u.ef = efRamp ∧ u.outbox = s.outbox ++ [.pin "EF_GATE" 1] ∧ frame u) ∧
    (s.ef = efRamp → ∃ u, exec .gateEnhanced s = .next (s.after u) ∧ u.ef = efPgWait ∧ u.outbox = s.outbox ++ [.pin "EF_PCG" 0] ∧ frame u) ∧
    (s.ef = efPgWait → ∃ u, exec .pgDeglitchDone s = .next (s.after u) ∧ u.ef = efOn ∧ u.on Pg.pwp PWP.EF_STAT_pg = true ∧ u.rd Pg.pwp PWP.EF_STAT_retries = 0 ∧
      u.rd Pg.pwp (HDR.raw PWP.ev_pg_up.bit) = 1) ∧
    (s.ef = efPre → ∃ u, exec .prechargeTimeout s = .next (s.after u) ∧ u.rd Pg.pwp PWP.EF_STAT_pg = 0 ∧ u.on Pg.pwp PWP.EF_STAT_flt = true ∧ u.rd Pg.pwp PWP.EF_STAT_cause = 1 ∧
      u.rd Pg.pwp PWP.EF_COOL_t_cool = min 65535 (max s.coolMin s.tPc) ∧ (s.on Pg.pwp PWP.EF_CFG_auto = false → u.ef = efLatched ∧ u.rd Pg.pwp (HDR.raw PWP.ev_latched.bit) = 1) ∧
      (s.on Pg.pwp PWP.EF_CFG_auto = true → s.rd Pg.pwp PWP.EF_CFG_retry_max = 15 → u.ef = efCool))

/-- R365–R370. -/
def Obligations.EfuseFaults : Prop :=
  ∀ (s : State), s.pw.on = true →
    let free (v : State) : Prop := v.rd Pg.pwp PWP.EF_CTL_off = 0 ∧ v.pw.ov = false ∧ v.pw.hot = false
    (s.ef = efOn → ∃ u, exec .limitStart s = .next (s.after u) ∧ u.ef = efLimit ∧ u.on Pg.pwp PWP.EF_STAT_flt = true ∧ u.rd Pg.pwp PWP.EF_STAT_ew = 1 ∧
      u.rd Pg.pwp (HDR.raw PWP.ev_ef_limit.bit) = 1 ∧ u.rd Pg.pwp PWP.EF_STAT_pg = s.rd Pg.pwp PWP.EF_STAT_pg ∧ u.pw.from_ = efOn) ∧
    (s.ef = efPgWait → ∃ u, exec .limitStart s = .next (s.after u) ∧ u.ef = efLimit ∧ u.pw.from_ = efRamp) ∧
    (s.ef = efLimit → s.pw.from_ = efOn → ∃ u, exec .limitEnd s = .next (s.after u) ∧ u.ef = efOn ∧ u.rd Pg.pwp PWP.EF_STAT_flt = 0 ∧ u.rd Pg.pwp PWP.EF_STAT_ew = s.rd Pg.pwp PWP.EF_STAT_ew) ∧
    (∀ e, s.ef = efLimit → ∃ u, exec (.faultTimerExpiry e) s = .next (s.after u) ∧ u.rd Pg.pwp PWP.EF_STAT_cause = 2 ∧ u.rd Pg.pwp PWP.EF_STAT_pg = 0 ∧ u.on Pg.pwp PWP.EF_STAT_flt = true ∧
      u.rd Pg.pwp PWP.EF_COOL_e_mj = min e 65535 ∧ u.rd Pg.pwp (HDR.raw PWP.ev_ef_fault.bit) = 1 ∧ (s.on Pg.pwp PWP.EF_CFG_auto = false → u.ef = efLatched)) ∧
    (∀ e, efRamp ≤ s.ef → s.ef ≤ efLimit → ∃ u, exec (.fastTrip e) s = .next (s.after u) ∧ u.rd Pg.pwp PWP.EF_STAT_cause = 3 ∧ u.rd Pg.pwp PWP.EF_STAT_pg = 0 ∧
      u.rd Pg.pwp PWP.EF_CNT0_fast_trips = min (s.rd Pg.pwp PWP.EF_CNT0_fast_trips + 1) (2 ^ PWP.EF_CNT0_fast_trips.width - 1) ∧ (s.on Pg.pwp PWP.EF_CFG_auto = false → u.ef = efLatched)) ∧
    (s.ef = efOn → s.rd Pg.pwp PWP.EF_STAT_pg = 1 → ∃ u, exec .pgWindowExit s = .next (s.after u) ∧ u.rd Pg.pwp PWP.EF_STAT_pg = 0 ∧ u.rd Pg.pwp (HDR.raw PWP.ev_pg_down.bit) = 1 ∧ u.ef = efPgWait) ∧
    (s.ef = efCool → free s → ∃ u, exec .cooldownEnd s = .next (s.after u) ∧ u.ef = efWait ∧ u.rd Pg.pwp PWP.EF_STAT_retries = min 15 (s.rd Pg.pwp PWP.EF_STAT_retries + 1) ∧
      u.rd Pg.pwp PWP.EF_STAT_flt = 0 ∧ u.rd Pg.pwp (HDR.raw PWP.ev_retry.bit) = 1) ∧
    (s.hvLink = true → s.ef = efLatched → free s → ∃ u, exec .efClr s = .next (s.after u) ∧ u.ef = efWait ∧ u.rd Pg.pwp PWP.EF_STAT_flt = 0) ∧
    (s.hvLink = true → (s.ef = efLimit ∨ s.ef = efCool) → exec .efClr s = .next (s.after s)) ∧
    (s.hvLink = true → ∃ u, exec (.efOffWrite true) s = .next (s.after u) ∧ u.ef = efOff ∧ u.rd Pg.pwp PWP.EF_STAT_pg = 0 ∧ u.rd Pg.pwp PWP.EF_STAT_flt = 0 ∧ u.rd Pg.pwp PWP.EF_CTL_off = 1 ∧
      u.rd Pg.pwp PWP.EF_STAT_retries = s.rd Pg.pwp PWP.EF_STAT_retries) ∧
    (s.hvLink = false → ∃ u, exec (.efOffWrite true) s = .next (s.after u) ∧ u.ef = s.ef ∧ u.rd Pg.hvd HVD.LINK_CNT_wr_drop = min (s.rd Pg.hvd HVD.LINK_CNT_wr_drop + 1) (2 ^ HVD.LINK_CNT_wr_drop.width - 1)) ∧
    (s.ef = efOn → ∃ u, exec .efuseOv s = .next (s.after u) ∧ u.ef = efOff ∧ u.rd Pg.pwp PWP.EF_STAT_cause = 4 ∧ u.rd Pg.pwp PWP.EF_STAT_pg = 0 ∧ u.on Pg.pwp PWP.EF_STAT_flt = true ∧ u.pw.ov = true ∧
      u.rd Pg.pwp PWP.EF_STAT_retries = s.rd Pg.pwp PWP.EF_STAT_retries) ∧
    (s.ef = efOff → s.rd Pg.pwp PWP.EF_CTL_off = 0 → s.pw.hot = false → ∃ u, exec .efuseOvRecover s = .next (s.after u) ∧ u.ef = efWait ∧ u.pw.ov = false)

/-- R116, R362, R363. -/
def Obligations.FeedsWarn : Prop :=
  ∀ (s : State) (f : Fin 2), s.pw.on = true →
    (s.on Pg.pwp (PWP.FEED_CFG_en f.val) = true → ∃ v : State, exec (.feedForward f) s = .next (s.after v.feedWarn) ∧ v.feedFlag f.val 2 = true ∧ v.feedFlag f.val 1 = false ∧ v.feedFlag f.val 3 = true) ∧
    (s.on Pg.pwp (PWP.FEED_CFG_en f.val) = true → s.feedFlag f.val 2 = true → ∃ v : State, exec (.feedReverse f) s = .next (s.after v.feedWarn) ∧ v.feedFlag f.val 2 = false ∧ v.feedFlag f.val 1 = true) ∧
    (∀ b, s.on Pg.pwp (PWP.FEED_CFG_used f.val) = true → ∃ (w : State) (c : Nat),
      exec (.feedLow f b) s = .next (s.after (if s.on Pg.pwp PWP.FEED_FLAGS_warn_n && s.life = .running then w.gasp c else w)) ∧ w.feedFlag f.val 0 = true ∧ w.rd Pg.pwp PWP.FEED_FLAGS_warn_n = 0 ∧
        bitOf c 0 = b2n (w.feedFlag 0 0) ∧ bitOf c 1 = b2n (w.feedFlag 1 0)) ∧
    (∀ b, s.on Pg.pwp (PWP.FEED_CFG_used f.val) = false → (s.on Pg.pwp PWP.FEED_FLAGS_warn_n = !(s.feedBad 0 || s.feedBad 1)) →
      ∃ u, exec (.feedLow f b) s = .next (s.after u) ∧ u.feedFlag f.val 0 = true ∧ u.rd Pg.pwp PWP.FEED_FLAGS_warn_n = s.rd Pg.pwp PWP.FEED_FLAGS_warn_n ∧
        ∀ n, n < 32 → u.rd Pg.pwp (HDR.raw n) = s.rd Pg.pwp (HDR.raw n)) ∧
    (∃ v : State, exec (.feedRecover f) s = .next (s.after v.feedWarn) ∧ v.feedFlag f.val 0 = false ∧ v.feedFlag f.val 3 = true)

/-- R13, R21, R361, R375. -/
def Obligations.CompanionPowerAndLink : Prop :=
  ∀ (s : State),
    (s.pw.on = false → ∃ u, exec .companionPowerOn s = .next (s.after u) ∧ u.pw.on = true ∧ u.ef = efWait ∧
      (∀ f, f.off < 4096 → f.lsb < 32 → u.rd Pg.hvd f = f.rst) ∧ (∀ n f, n < 4 → f.off < 4096 → f.lsb < 32 → u.rd (Pg.vbs n) f = f.rst)) ∧
    (s.pw.on = true → ∃ u, exec .companionPowerOff s = .next (s.after u) ∧ u.pw.on = false ∧ u.hvLink = false ∧ (s.life = .running → u.svc.up = false ∧ ∀ n, n < 4 → ∀ k, k = 2 ∨ k = 3 → u.portThere n k = false ∧ (u.ufn n).ccs.contains k = false)) ∧
    (s.pw.on = true → s.life ≠ .p2 → s.life ≠ .p3 → s.on Pg.hvd HVD.HVD_STAT_held = false → ∃ u, exec .companionLinkLost s = .next (s.after u) ∧ u.rd Pg.hvd HVD.HVD_STAT_link = 0 ∧ u.rd Pg.hvd HVD.HVD_STAT_held = 1 ∧
      u.rd Pg.hvd HVD.LINK_CNT_losses = min (s.rd Pg.hvd HVD.LINK_CNT_losses + 1) (2 ^ HVD.LINK_CNT_losses.width - 1) ∧ u.ef = s.ef ∧ ∀ n, n < 4 → u.vb n = s.vb n) ∧
    ((s.life = .p2 ∨ s.life = .p3 ∨ s.on Pg.hvd HVD.HVD_STAT_held = true ∨ s.pw.on = false) → exec .companionLinkLost s = .next (s.after s)) ∧
    (s.engDown 7 = true → exec .companionLinkRestored s = .next (s.after s)) ∧
    (s.life = .running → s.pw.on = true → s.hvLink = false → s.engDown 7 = false → ∃ u, exec .companionLinkRestored s = .next (s.after u) ∧ u.rd Pg.hvd HVD.HVD_STAT_link = 1 ∧ u.rd Pg.hvd HVD.HVD_STAT_held = 0 ∧ u.pw.mirror = none ∧
      (s.on Pg.hvd HVD.HVD_STAT_held = true → u.rd Pg.hvd (HDR.raw HVD.ev_link_lost.bit) = 1 ∧ u.rd Pg.hvd (HDR.raw HVD.ev_link_back.bit) = 1) ∧ ∀ n, n < 4 → s.bayOn n = false → u.vbConducts n = false)

/-- R332–R334, R339, R341, R343, R346, R347, R351–R357, R360. -/
def Obligations.TypeCAttachAndRecovery : Prop :=
  ∀ (s : State) (n : Bay), s.life = .running →
    let p := Pg.tc n.val
    let x := s.tc n.val
    let st := s.tcSt n.val
    let opened := fun (u : State) => u.tcSt n.val = tcErrRecovery ∧ u.tcAttached n.val = false ∧ u.rd p TC.TC_STAT_rp_adv = 0 ∧ u.rd p TC.CONTRACT_v = 0 ∧ u.on p TC.TC_STAT_vconn_on = false ∧ u.vbConducts n.val = false
    let hard := fun (u : State) (c : Nat) => u.tcSt n.val = (if s.tcSink n.val then tcNegotiating else tcHardReset) ∧ s.counted u p TC.TC_CNT0_hard_resets ∧ u.raised p TC.ev_hard_reset ∧ u.rd p TC.TC_CAUSE_cause = c ∧
      u.rd p TC.CONTRACT_v = 0 ∧ u.on p TC.TC_STAT_vconn_on = false ∧ u.vbConducts n.val = false ∧ (u.tc n.val).hardN = x.hardN + 1
    let left := fun (u : State) => u.tcAttached n.val = false ∧ u.rd p TC.CONTRACT_v = 0 ∧ u.on p TC.TC_STAT_vconn_on = false ∧ u.vbConducts n.val = false ∧ u.raised p TC.ev_detach ∧
      u.rd p TC.TC_CAUSE_cause = (if st = tcTransition ∨ st = tcSwap then 2 else 1)
    (s.tcLive n.val = false → ∀ k : Fin 3, exec (.ccToggle n) s = .next (s.after s) ∧ exec (.ccTerminationChange n k false) s = .next (s.after s) ∧ exec (.ccAttach n) s = .next (s.after s) ∧ exec (.ccDetach n) s = .next (s.after s) ∧
      exec (.tcHardReset n) s = .next (s.after s) ∧ exec (.tcErrRecovery n) s = .next (s.after s)) ∧
    (s.tcLive n.val = true →
      (st = tcUnattached → s.rd p TC.TC_CFG_cc_mode = 1 → ∃ u, exec (.ccToggle n) s = .next (s.after u) ∧ (u.tc n.val).rd = !x.rd ∧ u.rd p TC.TC_STAT_rp_adv = if x.rd then s.rpLevel n.val else 0) ∧
      ((st ≠ tcUnattached ∨ s.rd p TC.TC_CFG_cc_mode ≠ 1) → exec (.ccToggle n) s = .next (s.after s)) ∧
      (∀ (k : Fin 3) ra, k.val ≠ 0 → st = tcUnattached → ∃ u, exec (.ccTerminationChange n k ra) s = .next (s.after u) ∧ u.tcSt n.val = tcAttachWait ∧ (u.tc n.val).seen = k.val ∧ (u.tc n.val).ra = ra) ∧
      (∀ ra, st = tcAttachWait → ∃ u, exec (.ccTerminationChange n 0 ra) s = .next (s.after u) ∧ u.tcSt n.val = tcUnattached ∧ (u.tc n.val).seen = 0) ∧
      ((st ≠ tcAttachWait ∧ st ≠ tcDryWait ∨ x.seen = 0) → exec (.ccAttach n) s = .next (s.after s)) ∧
      (st = tcAttachWait → x.seen = 1 ∨ x.seen = 2 → ∃ u, exec (.ccAttach n) s = .next (s.after u) ∧ u.tcAttached n.val = true ∧ u.rd p TC.TC_STAT_orient = x.seen - 1 ∧ u.raised p TC.ev_attach ∧
        u.tcSt n.val = (if s.on p TC.TC_CFG_pd_en then tcNegotiating else tcTypeC) ∧ u.tcSink n.val = (!s.tcRp n.val) ∧ u.rd p TC.TC_STAT_partner = (if s.tcRp n.val then 1 else 2) ∧
        (s.tcRp n.val = true → s.pw.hot = false → s.vb n.val = vbOff → u.vb n.val = vbOn ∧ u.rd (Pg.vbs n.val) VBS.VBS_SET_vset = 250)) ∧
      (s.tcAttached n.val = true → s.tcSink n.val = false → st ≠ tcHardReset → ∃ u, exec (.ccDetach n) s = .next (s.after u) ∧ left u) ∧
      (s.tcSink n.val = true → st ≠ tcSwap → exec (.ccDetach n) s = .next (s.after s)) ∧
      (s.tcAttached n.val = true → s.tcSink n.val = true → st ≠ tcHardReset → ∃ u, exec (.sinkDisconnect n) s = .next (s.after u) ∧ left u) ∧
      (s.tcSink n.val = false → exec (.sinkDisconnect n) s = .next (s.after s)) ∧
      (s.tcAttached n.val = true → s.tcSink n.val = false → st = tcTypeC ∨ st = tcNegotiating ∨ st = tcHardReset → ∃ u, exec (.vbusOnTimeout n) s = .next (s.after u) ∧ opened u ∧ u.rd p TC.TC_CAUSE_cause = 5) ∧
      (st = tcReady → exec (.vbusOnTimeout n) s = .next (s.after s)) ∧
      (∃ u, exec (.tcErrRecovery n) s = .next (s.after u) ∧ opened u) ∧
      (x.swap = 3 ∨ x.swap = 4 → ∃ u, exec (.swapPsRdyTimeout n) s = .next (s.after u) ∧ opened u) ∧
      (x.swap ≠ 3 → x.swap ≠ 4 → exec (.swapPsRdyTimeout n) s = .next (s.after s)) ∧
      (st = tcErrRecovery → x.ppOff = false → s.rd p TC.TC_CFG_bay_cfg = 0 ∨ s.rd p TC.TC_CFG_bay_cfg = 2 → ∃ u, exec (.errorRecoveryEnd n) s = .next (s.after u) ∧ u.tcSt n.val = (if s.tcWet n.val then tcDryWait else tcUnattached) ∧ u.tcAttached n.val = false) ∧
      (st ≠ tcErrRecovery → exec (.errorRecoveryEnd n) s = .next (s.after s)) ∧
      (s.tcAttached n.val = false → exec (.tcHardReset n) s = .next (s.after s) ∧ exec (.pdHardResetRx n) s = .next (s.after s)) ∧
      (s.tcAttached n.val = true → (∃ u, exec (.pdHardResetRx n) s = .next (s.after u) ∧ hard u 3) ∧ (∃ u, exec (.tcHardReset n) s = .next (s.after u) ∧ hard u 4) ∧
        (s.on p TC.TC_STAT_pps = true → s.tcSink n.val = false → ∃ u, exec (.ppsTimeout n) s = .next (s.after u) ∧ hard u 7) ∧
        (s.on p TC.TC_STAT_epr = true → ∃ u, exec (.eprKeepaliveTimeout n) s = .next (s.after u) ∧ hard u 8) ∧
        (x.wait = true → ∃ u, exec (.senderResponseTimeout n) s = .next (s.after u) ∧ hard u 10)) ∧
      (s.on p TC.TC_STAT_pps = false → exec (.ppsTimeout n) s = .next (s.after s)) ∧
      (s.on p TC.TC_STAT_epr = false → exec (.eprKeepaliveTimeout n) s = .next (s.after s) ∧ exec (.eprKeepaliveRx n) s = .next (s.after s)) ∧
      (x.wait = false → exec (.senderResponseTimeout n) s = .next (s.after s)) ∧
      (s.on p TC.TC_STAT_epr = true → ∃ u, exec (.eprKeepaliveRx n) s = .next (s.after u) ∧ u.outbox = s.outbox ++ [.pd n.val "EPR_KeepAlive_Ack" []]) ∧
      (st ≠ tcHardReset → exec (.srcRecoverExpiry n) s = .next (s.after s)) ∧
      (st = tcHardReset → ∃ u, exec (.srcRecoverExpiry n) s = .next (s.after u) ∧ u.tcSt n.val = (if 2 ≤ x.hardN then tcTypeC else tcNegotiating) ∧ u.rd (Pg.vbs n.val) VBS.VBS_SET_vset = 250 ∧ (s.pw.hot = false → s.vb n.val = vbOff → u.vb n.val = vbOn) ∧
        (x.ra = true → s.on p TC.TC_CFG_vconn_en = true → u.on p TC.TC_STAT_vconn_on = true)) ∧
      (s.on p TC.TC_STAT_vconn_on = false → exec (.vconnOvercurrent n) s = .next (s.after s)) ∧
      (s.on p TC.TC_STAT_vconn_on = true → ∃ u, exec (.vconnOvercurrent n) s = .next (s.after u) ∧ u.on p TC.TC_STAT_vconn_on = false ∧ u.raised p TC.ev_vconn_err ∧ u.on p TC.TC_CABLE_emarked = false ∧ u.on p TC.TC_CABLE_a5 = false) ∧
      (∀ term cc sbu temp late, (st ≠ tcUnattached ∨ term = true) → exec (.moistureMeasure n term cc sbu temp late) s = .next (s.after s)) ∧
      (∀ cc sbu temp late, st = tcUnattached → x.seen = 0 →
        (s.moistThr n.val temp ≤ min cc sbu → ∃ u, exec (.moistureMeasure n false cc sbu temp late) s = .next (s.after u) ∧ u.rd p TC.TC_STAT_moist = 0 ∧ (u.tc n.val).wetN = 0 ∧ u.tcSt n.val = st) ∧
        (min cc sbu < s.moistThr n.val temp → x.wetN = 0 → ∃ u, exec (.moistureMeasure n false cc sbu temp late) s = .next (s.after u) ∧ u.rd p TC.TC_STAT_moist = 1 ∧ (u.tc n.val).wetN = 1 ∧ u.tcSt n.val = st) ∧
        (min cc sbu < s.moistThr n.val temp → 1 ≤ x.wetN → ∃ u, exec (.moistureMeasure n false cc sbu temp late) s = .next (s.after u) ∧ u.tcWet n.val = true ∧ u.tcSt n.val = tcDryWait ∧ u.raised p TC.ev_wet ∧ s.counted u p TC.TC_CNT2_wet_entries ∧
          u.rd p TC.TC_CAUSE_cause = 6 ∧ u.rd p TC.TC_STAT_rp_adv = 0 ∧
          (late = true → u.rd p TC.TC_MCFG_dry_wait_s = 10 ∧ u.rd p TC.TC_MCFG_dry_cnt = 3 ∧ u.rd p TC.TC_MCFG_sink_wet = 0 ∧ s.counted u p TC.TC_CNT2_hook_tmo) ∧
          ∀ a, late = false → s.polDown n.val = false → (s.wr p TC.TC_STAT_moist 2).policy n.val 8 none = (7, a) → u.rd p TC.TC_MCFG_dry_wait_s = a % 256 ∧ u.rd p TC.TC_MCFG_dry_cnt = a / 256 % 256 % 2 ^ TC.TC_MCFG_dry_cnt.width ∧
            u.rd p TC.TC_MCFG_sink_wet = a / 65536 % 2)) ∧
      (∀ cc sbu temp, (st ≠ tcDryWait → exec (.dryWaitMeasure n cc sbu temp) s = .next (s.after s)) ∧
        (st = tcDryWait → x.seen = 0 →
          (4 * min cc sbu ≤ 5 * s.moistThr n.val temp → ∃ u, exec (.dryWaitMeasure n cc sbu temp) s = .next (s.after u) ∧ (u.tc n.val).dryN = 0 ∧ u.tcSt n.val = tcDryWait) ∧
          (5 * s.moistThr n.val temp < 4 * min cc sbu → s.rd1 p TC.TC_MCFG_dry_cnt ≤ x.dryN + 1 → x.ppOff = false → s.rd p TC.TC_CFG_bay_cfg = 0 → ∃ u, exec (.dryWaitMeasure n cc sbu temp) s = .next (s.after u) ∧ u.tcWet n.val = false ∧ u.raised p TC.ev_dry ∧ u.tcSt n.val = tcUnattached))) ∧
      (s.on p TC.TC_ALT_entered = false → exec (.tcExitAlt n) s = .next (s.after s)) ∧
      (s.on p TC.TC_ALT_entered = true → ∃ u, exec (.tcExitAlt n) s = .next (s.after u) ∧ u.on p TC.TC_ALT_entered = false ∧ u.rd p TC.TC_ALT_mux = 0 ∧ u.raised p TC.ev_alt_exit))

/-- R336–R338, R340–R351, R358–R360, R383, R394, R395. -/
def Obligations.PdPolicy : Prop :=
  ∀ (s : State) (n : Bay), s.life = .running → s.tcLive n.val = true →
    (s.polDown n.val = true → (∀ acked late, exec (.sourceCapsSend n acked late) s = .next (s.after s)) ∧
      ((s.tc n.val).hook ≠ 0 → ∃ u, exec (.hookTimeout n) s = .next (s.after u) ∧ s.counted u (Pg.tc n.val) TC.TC_CNT2_hook_tmo ∧ u.raised (Pg.tc n.val) TC.ev_hook_tmo ∧ (u.tc n.val).hook = 0 ∧ u.outbox = s.outbox)) ∧
    (s.polDown n.val = false →
    let p := Pg.tc n.val
    let x := s.tc n.val
    let st := s.tcSt n.val
    let said := fun (u : State) (m : String) (l : List Nat) => u.outbox = s.outbox ++ [.pd n.val m l]
    let flat := fun (l : List Pdo) => l.flatMap (fun d => [d.kind, d.vmin, d.v, d.i])
    let made := fun (u : State) (pos v i : Nat) => u.tcSt n.val = tcReady ∧ s.counted u p TC.TC_CNT0_contracts ∧ u.raised p TC.ev_contract ∧ u.rd p TC.CONTRACT_v = v % 2 ^ TC.CONTRACT_v.width ∧ u.rd p TC.CONTRACT_i = i % 2 ^ TC.CONTRACT_i.width ∧
      u.rd p TC.CON_INFO_pos = pos % 2 ^ TC.CON_INFO_pos.width ∧ (u.tc n.val).target = none ∧ (u.tc n.val).asked = none ∧ (u.tc n.val).hardN = 0
    let pact := fun (u : State) => u.tcSt n.val = tcSwap ∧ (u.tc n.val).swap = (if s.tcSink n.val then 4 else 2) ∧ u.rd p TC.CONTRACT_v = 0 ∧ u.vbConducts n.val = false
    let vconned := fun (u : State) => if s.on p TC.TC_STAT_vconn_on then (u.tc n.val).swap = 7 ∧ u.tcSt n.val = tcSwap else (u.tc n.val).swap = 0 ∧ u.on p TC.TC_STAT_vconn_on = true ∧ u.raised p TC.ev_swap
    let held3 := s.rd p TC.TC_STAT_pd_rev = 2
    let ng := fun (u : State) => s.tcSink n.val = false → u.rd p TC.TC_STAT_rp_adv = 1
    -- capabilities
    (∀ acked late, (st ≠ tcNegotiating ∨ s.tcSink n.val = true ∨ x.wait = true ∨ x.hook ≠ 0) → exec (.sourceCapsSend n acked late) s = .next (s.after s)) ∧
    (∀ d, d ∈ (s.offer n.val).1 → ∃ o, o ∈ s.srcCaps n.val ∧ o.kind = d.kind ∧ o.vmin = d.vmin ∧ o.v = d.v ∧ d.i ≤ o.i) ∧
    (tblEntries s.eng.tbl 0x01 (some n.val) = [] → tblEntries s.eng.tbl 0x02 (some n.val) = [] → s.on p TC.TC_STAT_epr = false → (s.offer n.val).1 = s.srcCaps n.val) ∧
    (st = tcNegotiating → s.tcSink n.val = false → x.wait = false → x.hook = 0 → x.cableAsk = false → s.on p TC.TC_STAT_epr = false →
      (∃ u, exec (.sourceCapsSend n true false) s = .next (s.after u) ∧ (u.tc n.val).offered = (s.offer n.val).1 ∧ (u.tc n.val).wait = true ∧ u.tcSt n.val = st ∧ said u "Source_Capabilities" (flat (s.offer n.val).1)) ∧
      (∃ u, exec (.sourceCapsSend n false false) s = .next (s.after u) ∧ s.counted u p TC.TC_CNT1_tx_fail ∧ (u.tc n.val).capsN = x.capsN + 1 ∧ u.tcSt n.val = (if 50 ≤ x.capsN + 1 then tcTypeC else st)) ∧
      (∀ acked, ∃ u, exec (.sourceCapsSend n acked true) s = .next (s.after u) ∧ (u.tc n.val).hook = 1 ∧ (u.tc n.val).hookCaps = s.permitted n.val (s.srcCaps n.val) ∧ u.outbox = s.outbox)) ∧
    -- requests and the transition
    (∀ rev3 pos v i late, (s.tcSink n.val = true ∨ st ≠ tcNegotiating ∧ st ≠ tcReady) → exec (.pdRequestRx n rev3 pos v i late) s = .next (s.after s)) ∧
    (∀ rev3 pos v i, s.tcSink n.val = false → st = tcNegotiating ∨ st = tcReady → x.hook = 0 →
      (s.reqObject n.val pos v i = none → ∀ late, ∃ u, exec (.pdRequestRx n rev3 pos v i late) s = .next (s.after u) ∧ said u "Reject" [] ∧ u.raised p TC.ev_contract_fail ∧ u.tcSt n.val = (if s.rd p TC.CONTRACT_v = 0 then tcNegotiating else tcReady)) ∧
      (∀ k w, s.reqObject n.val pos v i = some (k, w) →
        let ans := (s.pdRev n.val rev3).hookSays n.val 2 (some (w, i)) .accept
        let ok := s.permits n.val k w w i
        (ans = .accept → ok = true → ∃ u, exec (.pdRequestRx n rev3 pos v i false) s = .next (s.after u) ∧ said u "Accept" [] ∧ u.tcSt n.val = tcTransition ∧ (u.tc n.val).target = some (pos, k, w, i) ∧ (u.tc n.val).wait = false ∧ u.rd p TC.TC_STAT_pd_rev = (if rev3 then 2 else 1) ∧
          u.rd (Pg.vbs n.val) VBS.VBS_WIN_lo = min (s.inForceV n.val) w * 85 / 100 % 2 ^ VBS.VBS_WIN_lo.width ∧ u.rd (Pg.vbs n.val) VBS.VBS_WIN_hi = ceilDiv (max (s.inForceV n.val) w * 115) 100 % 2 ^ VBS.VBS_WIN_hi.width) ∧
        (ans = .reject ∨ (ans = .accept ∧ ok = false) → ∃ u, exec (.pdRequestRx n rev3 pos v i false) s = .next (s.after u) ∧ said u "Reject" [] ∧ u.raised p TC.ev_contract_fail) ∧
        (ans = .wait → ∃ u, exec (.pdRequestRx n rev3 pos v i false) s = .next (s.after u) ∧ said u "Wait" [] ∧ u.raised p TC.ev_contract_fail) ∧
        (∃ u, exec (.pdRequestRx n rev3 pos v i true) s = .next (s.after u) ∧ (u.tc n.val).hook = 2 ∧ u.outbox = s.outbox))) ∧
    ((st ≠ tcTransition ∨ x.moved = true) → exec (.srcTransitionExpiry n) s = .next (s.after s)) ∧
    (∀ pos k v i, st = tcTransition → x.target = some (pos, k, v, i) →
      (x.moved = false → (∃ u, exec (.srcTransitionExpiry n) s = .next (s.after u) ∧ u.rd (Pg.vbs n.val) VBS.VBS_SET_vset = v % 2 ^ VBS.VBS_SET_vset.width ∧ (u.tc n.val).moved = true) ∧ exec (.psRdySend n) s = .next (s.after s)) ∧
      (x.moved = true → ∃ u, exec (.psRdySend n) s = .next (s.after u) ∧ made u pos v i ∧ ∃ l, u.outbox = s.outbox ++ .pd n.val "PS_RDY" [] :: l)) ∧
    (st = tcSwap → x.swap = 5 → ∃ u, exec (.psRdySend n) s = .next (s.after u) ∧ said u "PS_RDY" [] ∧ (u.tc n.val).swap = 0 ∧ u.tcSt n.val = tcNegotiating ∧ u.raised p TC.ev_swap) ∧
    ((s.tcSink n.val = true ∨ st ≠ tcReady) → ∀ b, exec (.pdEprModeRx n b) s = .next (s.after s)) ∧
    (s.tcSink n.val = false → st = tcReady → (∃ u, exec (.pdEprModeRx n false) s = .next (s.after u) ∧ u.on p TC.TC_STAT_epr = false ∧ u.tcSt n.val = tcNegotiating) ∧
      (s.on p TC.TC_CFG_epr_en = true → 100 < s.pdpW n.val → 1400 ≤ s.tcVmax n.val → s.on p TC.TC_CABLE_v50 = true → s.on p TC.TC_CABLE_a5 = true → ∃ u, exec (.pdEprModeRx n true) s = .next (s.after u) ∧ u.on p TC.TC_STAT_epr = true ∧ u.tcSt n.val = tcNegotiating ∧ (u.tc n.val).wait = true) ∧
      (s.on p TC.TC_CFG_epr_en = false ∨ s.pdpW n.val ≤ 100 ∨ s.on p TC.TC_CABLE_v50 = false → ∃ u, exec (.pdEprModeRx n true) s = .next (s.after u) ∧ said u "EPR_Mode Enter Failed" [] ∧ u.raised p TC.ev_contract_fail ∧ u.tcSt n.val = tcReady)) ∧
    -- as Sink
    (∀ rev3 caps late, (s.tcSink n.val = false ∨ s.tcAttached n.val = false) → exec (.pdSourceCapsRx n rev3 caps late) s = .next (s.after s)) ∧
    (∀ rev3 caps, s.tcSink n.val = true → s.tcAttached n.val = true → st = tcNegotiating ∨ st = tcReady →
      let d := (s.pdRev n.val rev3).sinkChoose n.val caps
      (∃ u, exec (.pdSourceCapsRx n rev3 caps false) s = .next (s.after u) ∧ (u.tc n.val).asked = some (d.1, d.2.kind, d.2.v, min d.2.i (s.tcImax n.val)) ∧ said u "Request" [d.1, d.2.v, min d.2.i (s.tcImax n.val)]) ∧
      (∃ u, exec (.pdSourceCapsRx n rev3 caps true) s = .next (s.after u) ∧ (u.tc n.val).hook = 3 ∧ (u.tc n.val).hookCaps = caps ∧ u.outbox = s.outbox)) ∧
    -- swaps
    (∀ late, (st ≠ tcReady ∨ x.hook ≠ 0) → exec (.tcPrSwap n late) s = .next (s.after s)) ∧
    (∀ late, (st ≠ tcReady ∨ x.hook ≠ 0) → (st = tcNegotiating → x.hook = 0 → s.crossed n.val = false) →
      exec (.pdPrSwapRx n late) s = .next (s.after s) ∧ exec (.pdVconnSwapRx n late) s = .next (s.after s)) ∧
    (st = tcReady → x.hook = 0 → s.crossed n.val = false →
      let pr := s.hookSays n.val 4 none .reject
      let vc := s.hookSays n.val 5 none .accept
      (s.tcWet n.val = true → ∀ late, (∃ u, exec (.pdPrSwapRx n late) s = .next (s.after u) ∧ said u "Reject" [] ∧ u.tcSt n.val = st) ∧ exec (.tcPrSwap n late) s = .next (s.after s)) ∧
      (s.tcWet n.val = false →
        (pr = .accept → ∃ u, exec (.pdPrSwapRx n false) s = .next (s.after u) ∧ pact u ∧ ∃ l, u.outbox = s.outbox ++ .pd n.val "Accept" [] :: l) ∧
        (pr = .reject → ∃ u, exec (.pdPrSwapRx n false) s = .next (s.after u) ∧ said u "Reject" []) ∧ (pr = .wait → ∃ u, exec (.pdPrSwapRx n false) s = .next (s.after u) ∧ said u "Wait" []) ∧
        (∃ u, exec (.pdPrSwapRx n true) s = .next (s.after u) ∧ (u.tc n.val).hook = 4 ∧ u.outbox = s.outbox) ∧ (∃ u, exec (.tcPrSwap n true) s = .next (s.after u) ∧ (u.tc n.val).hook = 7 ∧ u.outbox = s.outbox) ∧
        ((s.policy n.val 4 none).1 ≠ 8 → exec (.tcPrSwap n false) s = .next (s.after s)) ∧
        ((s.policy n.val 4 none).1 = 8 → held3 → ∃ u, exec (.tcPrSwap n false) s = .next (s.after u) ∧ (u.tc n.val).deferred = 2 ∧ ng u ∧ u.outbox = s.outbox) ∧
        ((s.policy n.val 4 none).1 = 8 → ¬ held3 → ∃ u, exec (.tcPrSwap n false) s = .next (s.after u) ∧ (u.tc n.val).swap = 1 ∧ said u "PR_Swap" [])) ∧
      (vc ≠ .reject → ∃ u, exec (.pdVconnSwapRx n false) s = .next (s.after u) ∧ vconned u ∧ ∃ l, u.outbox = s.outbox ++ .pd n.val "Accept" [] :: l) ∧
      (vc = .reject → ∃ u, exec (.pdVconnSwapRx n false) s = .next (s.after u) ∧ said u "Reject" []) ∧
      (∃ u, exec (.pdVconnSwapRx n true) s = .next (s.after u) ∧ (u.tc n.val).hook = 5 ∧ u.outbox = s.outbox)) ∧
    (st = tcReady ∨ st = tcNegotiating → x.hook = 0 → s.crossed n.val = true → s.tcSink n.val = false → ∀ late, ∃ u, exec (.pdPrSwapRx n late) s = .next (s.after u) ∧ said u "Wait" [] ∧ u.raised p TC.ev_collision ∧ (u.tc n.val).swap = x.swap) ∧
    (s.tcAttached n.val = true → ∃ u, exec (.pdDrSwapRx n) s = .next (s.after u) ∧ said u "Reject" [] ∧ (x.deferred ≠ 0 → s.counted u p TC.TC_CNT2_collisions ∧ u.raised p TC.ev_collision)) ∧
    (s.tcAttached n.val = false → exec (.pdDrSwapRx n) s = .next (s.after s)) ∧
    (st ≠ tcReady → exec (.tcVconnSwap n) s = .next (s.after s)) ∧
    (st = tcReady → (held3 → ∃ u, exec (.tcVconnSwap n) s = .next (s.after u) ∧ (u.tc n.val).deferred = 3 ∧ ng u) ∧ (¬ held3 → ∃ u, exec (.tcVconnSwap n) s = .next (s.after u) ∧ (u.tc n.val).swap = 6 ∧ said u "VCONN_Swap" [])) ∧
    (s.tcSink n.val = true → exec (.tcRenegotiate n) s = .next (s.after s)) ∧
    (st = tcTypeC → 2 ≤ x.hardN → exec (.tcRenegotiate n) s = .next (s.after s)) ∧
    (s.tcAttached n.val = true → s.tcSink n.val = false → st = tcReady ∨ (st = tcTypeC ∧ x.hardN < 2) → (held3 → ∃ u, exec (.tcRenegotiate n) s = .next (s.after u) ∧ (u.tc n.val).deferred = 1 ∧ ng u) ∧
      (¬ held3 → ∃ u, exec (.tcRenegotiate n) s = .next (s.after u) ∧ u.tcSt n.val = tcNegotiating ∧ (u.tc n.val).wait = false)) ∧
    (x.deferred = 0 → exec (.sinktxWaitEnd n) s = .next (s.after s)) ∧
    (x.deferred = 1 → ∃ u, exec (.sinktxWaitEnd n) s = .next (s.after u) ∧ u.tcSt n.val = tcNegotiating ∧ (u.tc n.val).deferred = 0) ∧
    (x.deferred = 2 → ∃ u, exec (.sinktxWaitEnd n) s = .next (s.after u) ∧ (u.tc n.val).swap = 1 ∧ (u.tc n.val).deferred = 0 ∧ said u "PR_Swap" []) ∧
    -- answers and PS_RDY of the partner
    (x.swap = 1 → (∃ u, exec (.pdResponseRx n .accept) s = .next (s.after u) ∧ pact u) ∧ ∀ a, a ≠ .accept → ∃ u, exec (.pdResponseRx n a) s = .next (s.after u) ∧ (u.tc n.val).swap = 0 ∧ u.tcSt n.val = st) ∧
    (x.swap = 6 → (∃ u, exec (.pdResponseRx n .accept) s = .next (s.after u) ∧ vconned u) ∧ ∀ a, a ≠ .accept → ∃ u, exec (.pdResponseRx n a) s = .next (s.after u) ∧ (u.tc n.val).swap = 0) ∧
    (x.swap = 0 → x.asked.isSome = true → ∀ a, a ≠ .accept → ∃ u, exec (.pdResponseRx n a) s = .next (s.after u) ∧ (u.tc n.val).asked = none) ∧
    (x.swap = 3 → ∃ u, exec (.pdPsRdyRx n) s = .next (s.after u) ∧ (u.tc n.val).swap = 0 ∧ u.tcSt n.val = tcNegotiating ∧ u.raised p TC.ev_swap) ∧
    (x.swap = 4 → ∃ u, exec (.pdPsRdyRx n) s = .next (s.after u) ∧ (u.tc n.val).swap = 5 ∧ u.tcSink n.val = false ∧ u.rd p TC.TC_STAT_partner = 1 ∧ u.rd (Pg.vbs n.val) VBS.VBS_SET_vset = 250) ∧
    (x.swap = 7 → ∃ u, exec (.pdPsRdyRx n) s = .next (s.after u) ∧ (u.tc n.val).swap = 0 ∧ u.tcSt n.val = tcReady ∧ u.on p TC.TC_STAT_vconn_on = false ∧ u.raised p TC.ev_swap) ∧
    (∀ pos k v i, x.swap = 0 → x.asked = some (pos, k, v, i) → s.tcSink n.val = true → ∃ u, exec (.pdPsRdyRx n) s = .next (s.after u) ∧ made u pos v i ∧ (s.pw.hot = false → s.vb n.val = vbOff → u.vb n.val = vbOn)) ∧
    (x.swap = 0 → x.asked = none → exec (.pdPsRdyRx n) s = .next (s.after s)) ∧
    -- VDMs
    (s.tcAttached n.val = false → ∀ m late, exec (.pdVdmRx n m late) s = .next (s.after s)) ∧
    (s.tcAttached n.val = true → ∀ late,
      (∀ a5 v50 d ss, (x.cableAsk = false → exec (.pdVdmRx n (.cable a5 v50 d ss) late) s = .next (s.after s)) ∧
        (x.cableAsk = true → ∃ u, exec (.pdVdmRx n (.cable a5 v50 d ss) late) s = .next (s.after u) ∧ u.on p TC.TC_CABLE_emarked = true ∧ u.on p TC.TC_CABLE_a5 = a5 ∧ u.on p TC.TC_CABLE_v50 = v50 ∧ u.raised p TC.ev_cable_found ∧ (u.tc n.val).cableAsk = false)) ∧
      (x.alt = 1 → (∃ u, exec (.pdVdmRx n (.identity true) late) s = .next (s.after u) ∧ (u.tc n.val).alt = 2 ∧ (¬ held3 → said u "Discover SVIDs" [0xFF01])) ∧ ∃ u, exec (.pdVdmRx n (.identity false) late) s = .next (s.after u) ∧ (u.tc n.val).alt = 0) ∧
      (x.alt = 2 → (∃ u, exec (.pdVdmRx n (.svids true) late) s = .next (s.after u) ∧ (u.tc n.val).alt = 3) ∧ ∃ u, exec (.pdVdmRx n (.svids false) late) s = .next (s.after u) ∧ (u.tc n.val).alt = 0) ∧
      (x.alt = 3 → ∀ c d,
        let a := s.altHook n.val c d
        (a.1 = true → (if a.2 then d else c) = true → ∃ u, exec (.pdVdmRx n (.modes c d) false) s = .next (s.after u) ∧ (u.tc n.val).alt = 4 ∧ (u.tc n.val).pinD = a.2 ∧ (¬ held3 → said u "Enter Mode" [0xFF01])) ∧
        (a.1 = false ∨ (if a.2 then d else c) = false → ∃ u, exec (.pdVdmRx n (.modes c d) false) s = .next (s.after u) ∧ (u.tc n.val).alt = 0) ∧
        (∃ u, exec (.pdVdmRx n (.modes c d) true) s = .next (s.after u) ∧ (u.tc n.val).hook = 6 ∧ u.outbox = s.outbox)) ∧
      (x.alt = 6 → ∃ u, exec (.pdVdmRx n (.configure true) late) s = .next (s.after u) ∧ u.on p TC.TC_ALT_entered = true ∧ u.rd p TC.TC_ALT_mux = (if x.pinD then 3 else 2) ∧ u.raised p TC.ev_alt_enter ∧ (u.tc n.val).alt = 0) ∧
      (∃ u, exec (.pdVdmRx n .exitMode late) s = .next (s.after u) ∧ u.on p TC.TC_ALT_entered = false ∧ u.rd p TC.TC_ALT_mux = 0)) ∧
    -- late hooks
    (x.hook = 0 → exec (.hookTimeout n) s = .next (s.after s)) ∧
    (x.hook = 1 → x.hookArg = [1] → ∃ u, exec (.hookTimeout n) s = .next (s.after u) ∧ s.counted u p TC.TC_CNT2_hook_tmo ∧ u.raised p TC.ev_hook_tmo ∧ (u.tc n.val).hook = 0 ∧ (u.tc n.val).offered = x.hookCaps ∧ (u.tc n.val).wait = true) ∧
    (∀ pos v i k w, x.hook = 2 → x.hookArg = [pos, v, i] → s.reqObject n.val pos v i = some (k, w) → ∃ u, exec (.hookTimeout n) s = .next (s.after u) ∧ s.counted u p TC.TC_CNT2_hook_tmo ∧
      (s.permits n.val k w w i = true → u.tcSt n.val = tcTransition ∧ (u.tc n.val).target = some (pos, k, w, i)) ∧ (s.permits n.val k w w i = false → said u "Reject" [])) ∧
    (x.hook = 3 → let d := s.sinkPick n.val x.hookCaps; ∃ u, exec (.hookTimeout n) s = .next (s.after u) ∧ s.counted u p TC.TC_CNT2_hook_tmo ∧ (u.tc n.val).asked = some (d.1, d.2.kind, d.2.v, min d.2.i (s.tcImax n.val))) ∧
    (x.hook = 4 → ∃ u, exec (.hookTimeout n) s = .next (s.after u) ∧ s.counted u p TC.TC_CNT2_hook_tmo ∧ said u "Reject" [] ∧ (u.tc n.val).hook = 0) ∧
    (x.hook = 5 → ∃ u, exec (.hookTimeout n) s = .next (s.after u) ∧ s.counted u p TC.TC_CNT2_hook_tmo ∧ vconned u) ∧
    (x.hook = 7 → ∃ u, exec (.hookTimeout n) s = .next (s.after u) ∧ s.counted u p TC.TC_CNT2_hook_tmo ∧ (u.tc n.val).hook = 0 ∧ u.outbox = s.outbox))

/-- R98, R370–R374, R451, R465, R467, R473. -/
def Obligations.SwitchesTimersAndPageEvents : Prop :=
  ∀ (s : State),
    (∀ n : Bay, s.pw.on = true →
      let p := Pg.vbs n.val
      let b : Int := ((s.vbDuty n.val * s.rd1 p VBS.VBS_TRIM_trim_max / 400 : Nat) : Int)
      let now := signed 16 (s.rd p VBS.VBS_TRIM_trim)
      let free := s.vbConducts n.val = true ∧ s.on p VBS.VBS_CFG_i2c = false ∧ s.on p VBS.VBS_TRIM_hold = false
      (∀ k, s.vbConducts n.val = false → exec (.baySwitchTrip n k) s = .next (s.after s)) ∧
      (s.vb n.val = vbMove → exec (.baySwitchTrip n 3) s = .next (s.after s)) ∧
      (∀ k : Fin 4, s.vbConducts n.val = true → k.val ≠ 3 ∨ s.vb n.val ≠ vbMove →
        (∃ u, exec (.baySwitchTrip n k) s = .next (s.after u) ∧ u.vb n.val = vbTrip ∧ u.rd p VBS.VBS_STAT_cause = k.val + 1 ∧ s.counted u p VBS.VBS_CNT_trips ∧ s.counted u p VBS.VBS_CNT_discharges ∧ u.raised p VBS.ev_trip) ∧
        (s.life = .running → s.tcLive n.val = true → s.tcAttached n.val = true → s.tcSink n.val = false → s.tcSt n.val ≠ tcTypeC →
          ∃ u, exec (.baySwitchTrip n k) s = .next (s.after u) ∧ u.tcSt n.val = tcHardReset ∧ u.rd (Pg.tc n.val) TC.TC_CAUSE_cause = 5 ∧ u.rd (Pg.tc n.val) TC.CONTRACT_v = 0)) ∧
      (s.vb n.val ≠ vbDisch → s.vb n.val ≠ vbTrip → exec (.dischargeDone n) s = .next (s.after s) ∧ exec (.dischargeFail n) s = .next (s.after s)) ∧
      (s.vb n.val = vbDisch ∨ s.vb n.val = vbTrip → (∃ u, exec (.dischargeDone n) s = .next (s.after u) ∧ u.vb n.val = vbOff ∧ u.raised p VBS.ev_disch_done ∧
          (s.life = .running → s.tcLive n.val = true → (s.tc n.val).swap = 2 → u.tcSink n.val = true ∧ (u.tc n.val).swap = 3)) ∧
        (∃ u, exec (.dischargeFail n) s = .next (s.after u) ∧ u.vb n.val = s.vb n.val ∧ u.raised p VBS.ev_disch_fail)) ∧
      (∀ up, ¬ free → exec (.vbusTrimStep n up) s = .next (s.after s)) ∧
      (∀ up : Bool, free →
        (-b ≤ now + (if up then 1 else -1) → now + (if up then 1 else -1) ≤ b → ∃ u, exec (.vbusTrimStep n up) s = .next (s.after u) ∧ u.rd p VBS.VBS_TRIM_trim = unsigned 16 (now + (if up then 1 else -1)) ∧ u.rd p VBS.VBS_STAT_trim_pin = s.rd p VBS.VBS_STAT_trim_pin) ∧
        (b < now + (if up then 1 else -1) → ∃ u, exec (.vbusTrimStep n up) s = .next (s.after u) ∧ u.rd p VBS.VBS_TRIM_trim = unsigned 16 b ∧ u.on p VBS.VBS_STAT_trim_pin = true ∧ (s.on p VBS.VBS_STAT_trim_pin = false → u.raised p VBS.ev_trim_pinned))) ∧
      (∀ v, (s.alive p = false → exec (.vbsTrimWrite n v) s = .next (s.after s)) ∧
        (s.alive p = true → s.hvLink = false → ∃ u, exec (.vbsTrimWrite n v) s = .next (s.after u) ∧ s.counted u Pg.hvd HVD.LINK_CNT_wr_drop ∧ u.rd p VBS.VBS_TRIM_trim = s.rd p VBS.VBS_TRIM_trim) ∧
        (s.alive p = true → s.hvLink = true → -b ≤ signed 16 v → signed 16 v ≤ b → ∃ u, exec (.vbsTrimWrite n v) s = .next (s.after u) ∧ u.rd p VBS.VBS_TRIM_trim = unsigned 16 (signed 16 v)) ∧
        (s.alive p = true → s.hvLink = true → signed 16 v < -b → ∃ u, exec (.vbsTrimWrite n v) s = .next (s.after u) ∧ u.rd p VBS.VBS_TRIM_trim = unsigned 16 (-b) ∧ u.on p VBS.VBS_STAT_trim_pin = true))) ∧
    (s.pw.on = false → exec .companionThermalShutdown s = .next (s.after s) ∧ exec .companionThermalRecover s = .next (s.after s)) ∧
    (s.pw.on = true → (∃ u, exec .companionThermalShutdown s = .next (s.after u) ∧ u.pw.hot = true ∧ u.ef = efOff ∧ u.rd Pg.pwp PWP.EF_STAT_cause = 5 ∧ u.raised Pg.hvd HVD.ev_thermal_sd ∧
        ∀ n : Bay, u.vbConducts n.val = false ∧ u.on (Pg.tc n.val) TC.TC_STAT_vconn_on = false ∧ (s.life = .running → u.tcAttached n.val = false)) ∧
      (s.pw.hot = false → exec .companionThermalRecover s = .next (s.after s)) ∧
      (s.pw.hot = true → s.on Pg.pwp PWP.EF_CTL_off = false → ∃ u, exec .companionThermalRecover s = .next (s.after u) ∧ u.pw.hot = false ∧ u.ef = efCool ∧ u.rd Pg.pwp PWP.EF_COOL_t_cool = s.coolMin % 2 ^ PWP.EF_COOL_t_cool.width)) ∧
    (s.life = .running →
      (∀ p, (p ∉ s.evt.hold → exec (.eventHoldExpiry p) s = .next (s.after s)) ∧
        (p ∈ s.evt.hold → ∃ y : State, exec (.eventHoldExpiry p) s = .next (s.after (if p ∈ s.evt.due ∧ s.evPend p ≠ 0 then y.pageEvent p else y)) ∧ p ∉ y.evt.hold ∧ p ∉ y.evt.due ∧ y.regs = s.regs ∧ y.outbox = s.outbox)) ∧
      (∀ pt c, s.hears pt c = true → s.mode = .head →
        let ch := chainOf pt
        let page := numAt c.payload 2 2
        let pend := numAt c.payload 4 4
        (byteAt c.payload 0 ≠ 0x44 → exec (.pageEventCellRx pt c) s = .next (s.after s)) ∧
        (byteAt c.payload 0 = 0x44 → pageKind page ≠ some .trk → (pageOwnerKind page).bind (fun k => s.ownerOf ch c.shub k.1 k.2) = none → exec (.pageEventCellRx pt c) s = .next (s.after (s.pfqPut ch c.shub page pend (numAt c.payload 8 4)))) ∧
        (∀ v f, byteAt c.payload 0 = 0x44 → pageKind page ≠ some .trk → (pageOwnerKind page).bind (fun k => s.ownerOf ch c.shub k.1 k.2) = some (v, f) → s.vState v = Machine.vActive →
          exec (.pageEventCellRx pt c) s = .next (s.after (s.eqEntry v [0x1000, 0, ch * 2 ^ 31 + c.shub * 2 ^ 24 + page, pend, numAt c.payload 8 4, numAt c.payload 12 4, 0, 0]))) ∧
        (byteAt c.payload 0 = 0x44 → pageKind page = some .trk → bitOf pend TRK.ev_link_down.bit = 1 → exec (.pageEventCellRx pt c) s = .next (s.after ((s.pageDeliver ch c.shub page pend (numAt c.payload 8 4) (numAt c.payload 12 4)).hubsLost ch c.shub)))) ∧
      (∀ t : Fin 4,
        let en := s.on Pg.tmr (TMR.TMR_CFG_en t.val)
        let at? := fun (u : State) => Tab.find t.val u.tmr
        (∀ v, (bitOf v 31 = 0 → ∃ u, exec (.timerEnable t v) s = .next (s.after u) ∧ at? u = none ∧ u.on Pg.tmr (TMR.TMR_CFG_en t.val) = false) ∧
          (bitOf v 31 = 1 → en = true → ∃ u, exec (.timerEnable t v) s = .next (s.after u) ∧ u.tmr = s.tmr ∧ u.rd Pg.tmr (TMR.TMR_CFG_period_us t.val) = bitsOf v 23 0) ∧
          (bitOf v 31 = 1 → en = false → bitOf v 29 = 0 → ∃ u, exec (.timerEnable t v) s = .next (s.after u) ∧ at? u = some (s.now + 1000 * max 1 (bitsOf v 23 0)) ∧ u.on Pg.tmr (TMR.TMR_CFG_en t.val) = true) ∧
          (bitOf v 31 = 1 → en = false → bitOf v 29 = 1 → s.chain.time ≤ s.timerStart t.val → ∃ u, exec (.timerEnable t v) s = .next (s.after u) ∧ at? u = some (s.timerStart t.val)) ∧
          (bitOf v 31 = 1 → en = false → bitOf v 29 = 1 → bitOf v 30 = 1 → s.timerStart t.val < s.chain.time → ∃ u k, exec (.timerEnable t v) s = .next (s.after u) ∧ at? u = some (s.timerStart t.val + k * (1000 * max 1 (bitsOf v 23 0))) ∧
            s.chain.time ≤ s.timerStart t.val + k * (1000 * max 1 (bitsOf v 23 0)) ∧ s.timerStart t.val + k * (1000 * max 1 (bitsOf v 23 0)) < s.chain.time + 1000 * max 1 (bitsOf v 23 0)) ∧
          (bitOf v 31 = 1 → en = false → bitOf v 29 = 1 → bitOf v 30 = 0 → s.timerStart t.val < s.chain.time → ∃ u, exec (.timerEnable t v) s = .next (s.after u) ∧ u.tmr = s.tmr)) ∧
        (at? s = none → exec (.timerExpiry t) s = .next (s.after s)) ∧
        (∀ m, at? s = some m → ∃ u, exec (.timerExpiry t) s = .next (s.after u) ∧ s.counted u Pg.tmr (TMR.TMR_EXP_expiries t.val) ∧ u.raised Pg.tmr (TMR.ev_expire t.val) ∧
          (if s.on Pg.tmr (TMR.TMR_CFG_periodic t.val) then at? u = some (m + s.timerNs t.val) else at? u = none ∧ u.on Pg.tmr (TMR.TMR_CFG_en t.val) = false))) ∧
      (∀ x : Fin 256, (∃ u, exec (.thermalWarning false x.val) s = .next (s.after u) ∧ u.rd Pg.glb GLB.THERM_temp = x.val ∧ (s.rd Pg.glb GLB.THERM_warn ≤ x.val → u.raised Pg.glb GLB.ev_thermal_warn)) ∧
        (∃ u, exec (.thermalWarning true x.val) s = .next (s.after u) ∧ u.rd Pg.hvd HVD.HVD_STAT_temp = x.val ∧ (s.pw.on = true → s.rd Pg.hvd HVD.HVD_CFG_t_warn ≤ x.val → u.raised Pg.hvd HVD.ev_thermal_warn))))

/-- R382–R387, R397. -/
def Obligations.EnginesAndMailboxes : Prop :=
  ∀ (s : State) (src : Fin 3) (e : Fin 16) (seq : Nat), s.life = .running →
    let p := Pg.eng (e.val / 4)
    let k := e.val % 4
    let owner := s.rd p (ENG.MB_OWN_owner k)
    let answered := fun (u : State) (op status : Nat) => u.rd p (ENG.MB_STAT_st k) = 2 ∧ u.rd p (ENG.MB_STAT_status k) = status ∧ u.raised p (ENG.ev_mb_done k) ∧
      u.rd p (ENG.MB_DATA_data (128 * k)) = op + 256 * (seq % 256) + 65536 * status
    (owner = 0 → ∃ u, exec (.mailboxClaim src e) s = .next (s.after u) ∧ u.rd p (ENG.MB_OWN_owner k) = src.val + 1) ∧
    (owner ≠ 0 → exec (.mailboxClaim src e) s = .next (s.after s)) ∧
    (s.mbSt e.val = 1 → exec (.mailboxRelease e) s = .next (s.after s) ∧ exec (.mailboxOwnTimeout e) s = .next (s.after s)) ∧
    (s.mbSt e.val ≠ 1 → (∃ u, exec (.mailboxRelease e) s = .next (s.after u) ∧ u.rd p (ENG.MB_OWN_owner k) = 0 ∧ u.mbSt e.val = 0) ∧
      (owner = 0 → exec (.mailboxOwnTimeout e) s = .next (s.after s)) ∧
      (owner ≠ 0 → ∃ u, exec (.mailboxOwnTimeout e) s = .next (s.after u) ∧ u.rd p (ENG.MB_OWN_owner k) = 0 ∧ s.counted u p (ENG.ENG_CNT_own_tmo k))) ∧
    (owner ≠ src.val + 1 ∨ s.mbSt e.val = 1 → ∀ id w b, exec (.getInfo src e seq) s = .next (s.after s) ∧ exec (.loadTiming src e seq id) s = .next (s.after s) ∧ exec (.loadWindow src e seq w id b) s = .next (s.after s) ∧ exec (.loadFreeze src e seq id) s = .next (s.after s)) ∧
    (owner = src.val + 1 → s.mbSt e.val ≠ 1 →
      (s.engState e.val ≠ engRunning → ∃ u, exec (.getInfo src e seq) s = .next (s.after u) ∧ u.mbSt e.val = 1 ∧ u.rd p (ENG.MB_DATA_data (128 * k)) = 1 + 256 * (seq % 256)) ∧
      (s.engState e.val = engRunning →
        (∃ u, exec (.getInfo src e seq) s = .next (s.after u) ∧ answered u 1 (if s.eng.noProf then mbProfile else mbOk)) ∧
        (e.val < 9 ∨ 12 < e.val → ∀ id, (∃ u, exec (.loadTiming src e seq id) s = .next (s.after u) ∧ answered u 0x10 mbBadOp) ∧ ∃ u, exec (.loadFreeze src e seq id) s = .next (s.after u) ∧ answered u 0x12 mbBadOp) ∧
        (e.val ≠ 14 → ∀ w id b, ∃ u, exec (.loadWindow src e seq w id b) s = .next (s.after u) ∧ answered u 0x11 mbBadOp) ∧
        (∀ n : Bay, e.val = 9 + n.val → ∀ id,
          (s.on (Pg.disp n.val) DISP.DISP_CTL_run = true → ∃ u, exec (.loadTiming src e seq id) s = .next (s.after u) ∧ answered u 0x10 mbState) ∧
          (s.on (Pg.disp n.val) DISP.DISP_CTL_run = false →
            (tblFormat s.eng.tbl 0x10 (some n.val) id = none → ∃ u, exec (.loadTiming src e seq id) s = .next (s.after u) ∧ answered u 0x10 mbNotFound) ∧
            (∀ l, tblFormat s.eng.tbl 0x10 (some n.val) id = some l → s.alive (Pg.disp n.val) = true → ∃ u, exec (.loadTiming src e seq id) s = .next (s.after u) ∧ answered u 0x10 mbOk ∧
              u.rd (Pg.disp n.val) DISP.H_TIM0_h_active = bitsOf (numAt l 0 4) 29 16 ∧ u.rd (Pg.disp n.val) DISP.H_TIM0_h_total = bitsOf (numAt l 0 4) 13 0 ∧ u.rd (Pg.disp n.val) DISP.V_TIM0_v_active = bitsOf (numAt l 8 4) 29 16 ∧
              u.rd (Pg.disp n.val) DISP.PCLK_div_int = bitsOf (numAt l 16 4) 31 24 ∧ u.rd (Pg.disp n.val) DISP.PCLK_div_frac = bitsOf (numAt l 16 4) 23 0 ∧ u.rd (Pg.disp n.val) DISP.OUT_CFG_type = bitsOf (numAt l 20 4) 31 30)) ∧
          (tblFormat s.eng.tbl 0x12 (some n.val) id = none → ∃ u, exec (.loadFreeze src e seq id) s = .next (s.after u) ∧ answered u 0x12 mbNotFound) ∧
          (∀ l, tblFormat s.eng.tbl 0x12 (some n.val) id = some l → s.alive (Pg.frz n.val) = true → ∃ u, exec (.loadFreeze src e seq id) s = .next (s.after u) ∧ answered u 0x12 mbOk ∧
            u.rd (Pg.frz n.val) FRZ.HATCH_A_hatch_a = bitsOf (numAt l 4 4) 29 0 ∧ u.rd (Pg.frz n.val) FRZ.WD_CFG_wd_ms = bitsOf (numAt l 16 4) 15 0 ∧
            ∀ w : Fin 8, u.rd (Pg.frz n.val) (FRZ.WIN_CFG_mode w.val) = bitsOf (numAt l (20 + 16 * w.val) 4) 31 30 ∧ u.rd (Pg.frz n.val) (FRZ.WIN_X_x1 w.val) = bitsOf (numAt l (24 + 16 * w.val) 4) 28 16 ∧ u.rd (Pg.frz n.val) (FRZ.WIN_REF_ref w.val) = numAt l (32 + 16 * w.val) 4)) ∧
        (e.val = 14 → ∀ (w : Nat) id b,
          (7 < w → ∃ u, exec (.loadWindow src e seq w id b) s = .next (s.after u) ∧ answered u 0x11 mbBadArg) ∧
          (w ≤ 7 → tblFormat s.eng.tbl 0x11 none id = none → ∃ u, exec (.loadWindow src e seq w id b) s = .next (s.after u) ∧ answered u 0x11 mbNotFound) ∧
          (∀ l, w ≤ 7 → tblFormat s.eng.tbl 0x11 none id = some l →
            (s.pxOwner = 0 → ∃ u, exec (.loadWindow src e seq w id b) s = .next (s.after u) ∧ answered u 0x11 mbOk ∧ u.rd Pg.pxb (PXB.WIN_CFG_en w) = bitOf (numAt l 0 4) 31 ∧ u.rd Pg.pxb (PXB.WIN_CFG_tunnel w) = bitsOf (numAt l 0 4) 11 0 ∧
              u.rd Pg.pxb (PXB.WIN_PX_pxbase w) = bitsOf (numAt l 4 4) 23 0 ∧ u.rd Pg.pxb (PXB.WIN_TLO_tbase_lo w) = numAt l 8 4 ∧ u.rd Pg.pxb (PXB.WIN_THI_tbase_hi w) = numAt l 12 4) ∧
            (s.pxOwner ≠ 0 → b = true → ∃ u, exec (.loadWindow src e seq w id b) s = .next (s.after u) ∧ answered u 0x11 mbState ∧ u.xbr = s.xbr) ∧
            (s.pxOwner ≠ 0 → b = false → ∃ u, exec (.loadWindow src e seq w id b) s = .next (s.after u) ∧ answered u 0x11 mbOk ∧
              u.xbr.pxLate = s.xbr.pxLate ++ (List.range 4).map (fun i => (0x60 + 0x10 * w + 4 * i, numAt l (4 * i) 4))))))) ∧
    (∀ j : Fin 15, j.val = e.val →
      (s.engState e.val ≠ engRunning → exec (.engineWatchdogExpiry j) s = .next (s.after s)) ∧
      (s.engState e.val = engRunning → ∃ u, exec (.engineWatchdogExpiry j) s = .next (s.after u) ∧ u.engState e.val = 4 ∧ s.counted u p (ENG.ENG_CNT_wdg_exp k) ∧ u.raised p (ENG.ev_wdg k))) ∧
    (e.val = 15 → exec (.engineRestart e) s = .next (s.after s)) ∧
    (e.val ≠ 15 → s.engState e.val = engRunning ∨ s.engState e.val = 3 → ∃ u, exec (.engineRestart e) s = .next (s.after u) ∧ u.engState e.val = 4) ∧
    (s.engState e.val ≠ 4 → ∀ b, exec (.engineRestartComplete e b) s = .next (s.after s)) ∧
    (s.engState e.val = 4 → (∃ u, exec (.engineRestartComplete e false) s = .next (s.after u) ∧ u.engState e.val = 3 ∧ u.raised (Pg.eng 3) ENG.ev_table_err) ∧
      (∃ u, exec (.engineRestartComplete e true) s = .next (s.after u) ∧ u.engState e.val = engRunning ∧ s.counted u p (ENG.ENG_CNT_restarts k) ∧ u.raised p (ENG.ev_restart k) ∧
        (s.mbSt e.val = 1 → u.rd p (ENG.MB_STAT_st k) = 2 ∧ u.rd p (ENG.MB_STAT_status k) = mbBusy)))

/-- R388, R389, R393, R397, R400, R401. -/
def Obligations.UpdatesAndPins : Prop :=
  ∀ (s : State) (src : Fin 3) (seq : Nat), s.life = .running →
    let p := Pg.eng 3
    let u := s.update
    let b := s.eng.boot
    let mine := u.kind ≠ 0 ∧ u.owner = src.val + 1
    let answered := fun (t : State) (op status : Nat) => t.rd p (ENG.MB_STAT_st 3) = 2 ∧ t.rd p (ENG.MB_STAT_status 3) = status ∧ t.raised p (ENG.ev_mb_done 3) ∧ t.rd p (ENG.MB_DATA_data 384) = op + 256 * (seq % 256) + 65536 * status
    let wrote := fun (t : State) => t.eng.boot.seq = (b.seq + 1) % 2 ^ 32 ∧ ∃ l, t.outbox = s.outbox ++ [.flash "boot record" ((b.seq + 1) % 2 ^ 32) l]
    (s.rd p (ENG.MB_OWN_owner 3) = src.val + 1 → s.mbSt 15 ≠ 1 → s.engState 15 = engRunning →
      (∀ kind size,
        (u.kind ≠ 0 → ∃ t, exec (.updBegin src 15 seq kind size) s = .next (s.after t) ∧ answered t 0x20 mbLocked ∧ t.update = u) ∧
        (u.kind = 0 → (kind ≠ 1 ∧ kind ≠ 2) ∨ size = 0 ∨ (kind = 1 ∧ 0x300000 < size) ∨ (kind = 2 ∧ 0x80000 < size) → ∃ t, exec (.updBegin src 15 seq kind size) s = .next (s.after t) ∧ answered t 0x20 mbBadArg ∧ t.update = u) ∧
        (u.kind = 0 → 1 ≤ size → (kind = 1 ∧ size ≤ 0x300000) ∨ (kind = 2 ∧ size ≤ 0x80000) → ∃ t, exec (.updBegin src 15 seq kind size) s = .next (s.after t) ∧ answered t 0x20 mbOk ∧ t.update = { kind := kind, owner := src.val + 1, size := size } ∧
          t.outbox = s.outbox ++ [.flash "erase" (if kind = 1 then 0x10000 + 0x300000 * (1 - b.fw) else 0x610000 + 0x80000 * (1 - b.tbl)) []])) ∧
      (u.kind = 0 → ∀ off d, (∃ t, exec (.updData src 15 seq off d) s = .next (s.after t) ∧ answered t 0x21 mbState) ∧ (∃ t, exec (.updVerify src 15 seq) s = .next (s.after t) ∧ answered t 0x22 mbState) ∧
        (∃ t, exec (.updCommit src 15 seq) s = .next (s.after t) ∧ answered t 0x23 mbState) ∧ ∃ t, exec (.updAbort src 15 seq) s = .next (s.after t) ∧ answered t 0x24 mbState) ∧
      (u.kind ≠ 0 → u.owner ≠ src.val + 1 → ∀ off d, (∃ t, exec (.updData src 15 seq off d) s = .next (s.after t) ∧ answered t 0x21 mbLocked ∧ t.update = u) ∧ (∃ t, exec (.updVerify src 15 seq) s = .next (s.after t) ∧ answered t 0x22 mbLocked ∧ t.update = u) ∧
        (∃ t, exec (.updCommit src 15 seq) s = .next (s.after t) ∧ answered t 0x23 mbLocked ∧ t.update = u) ∧ (∃ t, exec (.updAbort src 15 seq) s = .next (s.after t) ∧ answered t 0x24 mbLocked ∧ t.update = u) ∧
        ∃ t, exec (.confirm src 15 seq) s = .next (s.after t) ∧ answered t 0x25 mbLocked ∧ t.eng = s.eng) ∧
      (mine →
        (∀ off d, (off % 16 ≠ 0 ∨ d = [] ∨ 480 < d.length ∨ u.size < off + d.length → ∃ t, exec (.updData src 15 seq off d) s = .next (s.after t) ∧ answered t 0x21 mbBadArg ∧ t.update = u) ∧
          (off % 16 = 0 → d ≠ [] → d.length ≤ 480 → off + d.length ≤ u.size → ∃ t, exec (.updData src 15 seq off d) s = .next (s.after t) ∧ answered t 0x21 mbOk ∧ t.update = { u with chunks := u.chunks ++ [(off, d)], passed := false } ∧
            t.outbox = s.outbox ++ [.flash "write" ((if u.kind = 1 then 0x10000 + 0x300000 * (1 - b.fw) else 0x610000 + 0x80000 * (1 - b.tbl)) + off) d])) ∧
        (let good := if u.kind = 1 then s.fwOk u.image && (fwProfiles u.image).contains s.profileId else s.tblOk u.image s.profileId
          ∃ t, exec (.updVerify src 15 seq) s = .next (s.after t) ∧ answered t 0x22 (if good then mbOk else mbVerifyFail) ∧ t.update = { u with passed := good }) ∧
        (u.passed = false → ∃ t, exec (.updCommit src 15 seq) s = .next (s.after t) ∧ answered t 0x23 mbState ∧ t.update = u ∧ t.eng = s.eng) ∧
        (u.passed = true → ∃ t, exec (.updCommit src 15 seq) s = .next (s.after t) ∧ answered t 0x23 mbOk ∧ t.update = {} ∧ wrote t ∧ t.raised p ENG.ev_update ∧ t.eng.boot.trial = true ∧ t.eng.boot.count = 0 ∧ t.eng.boot.prevFw = b.fw ∧ t.eng.boot.prevTbl = b.tbl ∧
          t.eng.boot.fw = (if u.kind = 1 then 1 - b.fw else b.fw) ∧ t.eng.boot.tbl = (if u.kind = 1 then b.tbl else 1 - b.tbl)) ∧
        (∃ t, exec (.updAbort src 15 seq) s = .next (s.after t) ∧ answered t 0x24 mbOk ∧ t.update = {})) ∧
      (u.kind = 0 ∨ u.owner = src.val + 1 → ∃ t, exec (.confirm src 15 seq) s = .next (s.after t) ∧ answered t 0x25 mbOk ∧ wrote t ∧ t.raised p ENG.ev_update ∧ t.eng.boot.trial = false ∧ t.eng.boot.count = 0 ∧ t.eng.boot.fw = b.fw ∧ t.eng.boot.tbl = b.tbl) ∧
      (∀ id, id < 65536 →
        (s.eng.pin = some id → ∃ t, exec (.profilePin src 15 seq id) s = .next (s.after t) ∧ answered t 0x30 mbOk ∧ t.eng = s.eng) ∧
        (s.rd Pg.fus FUS.PROFILE_profile ≠ 0 → s.eng.pin ≠ some id → ∃ t, exec (.profilePin src 15 seq id) s = .next (s.after t) ∧ answered t 0x30 mbLocked ∧ t.eng = s.eng) ∧
        (s.rd Pg.fus FUS.PROFILE_profile = 0 →
          (∀ q, s.eng.pin = some q → q ≠ id → ∃ t, exec (.profilePin src 15 seq id) s = .next (s.after t) ∧ answered t 0x30 mbLocked ∧ t.eng = s.eng) ∧
          (s.eng.pin = none → id ∉ fwProfiles s.eng.fw → ∃ t, exec (.profilePin src 15 seq id) s = .next (s.after t) ∧ answered t 0x30 mbProfile ∧ t.eng = s.eng) ∧
          (s.eng.pin = none → id ∈ fwProfiles s.eng.fw → ∃ t, exec (.profilePin src 15 seq id) s = .next (s.after t) ∧ answered t 0x30 mbOk ∧ t.eng = { s.eng with pin := some id } ∧ t.outbox = s.outbox ++ [.flash "pin" id []])))) ∧
    (∃ t, exec .updateIdleTimeout s = .next (s.after t) ∧ t.update = {} ∧ t.eng = s.eng ∧ t.regs = s.regs) ∧
    (∀ cool : Bool,
      let l := tblCurve s.eng.tbl (if cool then 0x21 else 0x20)
      (l = [] ∨ s.hvLink = false ∨ s.engState 7 ≠ engRunning → exec (.curveLoad cool) s = .next (s.after s)) ∧
      (l ≠ [] → s.hvLink = true → s.engState 7 = engRunning → s.ef = efRamp ∨ s.ef = efLimit ∨ s.ef = efCool → ∃ t, exec (.curveLoad cool) s = .next (s.after t) ∧ cool ∈ t.eng.curves ∧ t.regs = s.regs) ∧
      (l ≠ [] → s.hvLink = true → s.ef ≠ efRamp → s.ef ≠ efLimit → s.ef ≠ efCool → s.engState 7 = engRunning → ∃ t, exec (.curveLoad cool) s = .next (s.after t) ∧ ∀ k : Fin 8,
        let x := if k.val < l.length then l.getD k.val (0, 0) else l.getLastD (0, 0)
        if cool then t.rd Pg.pwp (PWP.CDN_e k.val) = x.1 % 2 ^ (PWP.CDN_e k.val).width ∧ t.rd Pg.pwp (PWP.CDN_t k.val) = x.2 % 2 ^ (PWP.CDN_t k.val).width
        else t.rd Pg.pwp (PWP.FBK_vds k.val) = x.1 % 2 ^ (PWP.FBK_vds k.val).width ∧ t.rd Pg.pwp (PWP.FBK_frac k.val) = x.2 % 2 ^ (PWP.FBK_frac k.val).width))

/-- R404, R405, R407, R409–R417. -/
def Obligations.LarderOperations : Prop :=
  ∀ (s : State) (src : Fin 3) (seq : Nat), s.life = .running →
    let p := Pg.eng 2
    let answered := fun (t : State) (op status : Nat) => t.rd p (ENG.MB_STAT_st 0) = 2 ∧ t.rd p (ENG.MB_STAT_status 0) = status ∧ t.raised p (ENG.ev_mb_done 0) ∧ t.rd p (ENG.MB_DATA_data 0) = op + 256 * (seq % 256) + 65536 * status
    let said := fun (t : State) (l : List Byte) => ∀ j, 4 * j + 4 ≤ l.length → t.rd p (ENG.MB_DATA_data (2 + j)) = numAt l (4 * j) 4
    (s.rd p (ENG.MB_OWN_owner 0) = src.val + 1 → s.mbSt 8 ≠ 1 → s.engState 8 = engRunning →
      (src.val = 2 → ∀ slot use burn key, ∃ t, exec (.keyWrite src 8 seq slot use burn key) s = .next (s.after t) ∧ answered t 0x40 mbBadOp ∧ t.larder = s.larder) ∧
      (src.val ≠ 2 →
        (∀ slot use burn key,
          (s.gateOpen = false → ∃ t, exec (.keyWrite src 8 seq slot use burn key) s = .next (s.after t) ∧ answered t 0x40 mbLocked ∧ t.larder = s.larder) ∧
          (s.gateOpen = true → slot < 256 → keyTarget slot = false ∨ key.length ≠ 32 → ∃ t, exec (.keyWrite src 8 seq slot use burn key) s = .next (s.after t) ∧ answered t 0x40 mbBadArg ∧ t.larder = s.larder)) ∧
        (∀ (slot : Fin 64) use key, s.gateOpen = true → keyTarget slot.val = true → key.length = 32 →
          (∃ t, exec (.keyWrite src 8 seq slot.val use false key) s = .next (s.after t) ∧ answered t 0x40 mbOk ∧ t.keyValue slot.val = key ∧ (t.slot slot.val).valid = true ∧ (t.slot slot.val).parent = s.rootSlot ∧
            ((s.slot s.rootSlot).valid = true → (s.slot s.rootSlot).kind = 1 ∨ (s.slot s.rootSlot).kind = 2 → t.keyOk slot.val = true)) ∧
          (s.freeRow = none → ∃ t, exec (.keyWrite src 8 seq slot.val use true key) s = .next (s.after t) ∧ answered t 0x40 mbState ∧ t.larder = s.larder) ∧
          (∀ r, s.freeRow = some r → ∃ t, exec (.keyWrite src 8 seq slot.val use true key) s = .next (s.after t) ∧ answered t 0x40 mbOk ∧ t.keyValue slot.val = key ∧ Tab.find r t.larder.rows = some key ∧ t.gateOpen = false ∧ t.raised Pg.lrd LRD.ev_gate_closed ∧
            t.rd Pg.fus (FUS.CR_TGT_slot r) = slot.val)) ∧
        (∀ slot parent use label context, slot < 256 → parent < 256 →
          (slot < 16 ∨ 64 ≤ slot ∨ 64 ≤ parent ∨ label.length ≠ 4 ∨ 64 < context.length → ∃ t, exec (.keyDerive src 8 seq slot parent use label context) s = .next (s.after t) ∧ answered t 0x41 mbBadArg ∧ t.larder = s.larder) ∧
          (16 ≤ slot → slot < 64 → parent < 64 → label.length = 4 → context.length ≤ 64 →
            (s.keyOk parent = false → ∃ t, exec (.keyDerive src 8 seq slot parent use label context) s = .next (s.after t) ∧ answered t 0x41 mbNotFound ∧ t.larder = s.larder) ∧
            (s.keyOk parent = true → (s.slot parent).use % 2 = 0 ∨ 8 ≤ s.keyDepth parent ∨ slot ∈ s.keyChain 10 parent → ∃ t, exec (.keyDerive src 8 seq slot parent use label context) s = .next (s.after t) ∧ answered t 0x41 mbBadArg ∧ t.larder = s.larder) ∧
            (s.keyOk parent = true → (s.slot parent).use % 2 = 1 → s.keyDepth parent < 8 → slot ∉ s.keyChain 10 parent → ∃ t, exec (.keyDerive src 8 seq slot parent use label context) s = .next (s.after t) ∧ answered t 0x41 mbOk ∧
              t.keyValue slot = kdf (s.keyValue parent) label context ∧ (t.slot slot).valid = true ∧ (t.slot slot).kind = 4 ∧ (t.slot slot).parent = parent ∧ (t.slot slot).use = use % 4 ∧ t.keyValue parent = s.keyValue parent))) ∧
        (∀ slot, slot < 256 → (keyTarget slot = false → ∃ t, exec (.keyInvalidate src 8 seq slot) s = .next (s.after t) ∧ answered t 0x42 mbBadArg ∧ t.larder = s.larder) ∧
          (keyTarget slot = true → ∃ t, exec (.keyInvalidate src 8 seq slot) s = .next (s.after t) ∧ answered t 0x42 mbOk ∧ t.keyOk slot = false ∧ (t.slot slot).stored = [])) ∧
        (∀ slot d, slot < 256 →
          (slot < 16 ∨ 64 ≤ slot ∨ 448 < d.length → ∃ t, exec (.keyMac src 8 seq slot d) s = .next (s.after t) ∧ answered t 0x43 mbBadArg) ∧
          (16 ≤ slot → slot < 64 → d.length ≤ 448 → (s.keyOk slot = false → ∃ t, exec (.keyMac src 8 seq slot d) s = .next (s.after t) ∧ answered t 0x43 mbNotFound) ∧
            (s.keyOk slot = true → (s.slot slot).use / 2 % 2 = 0 → ∃ t, exec (.keyMac src 8 seq slot d) s = .next (s.after t) ∧ answered t 0x43 mbBadArg) ∧
            (s.keyOk slot = true → (s.slot slot).use / 2 % 2 = 1 → ∃ t, exec (.keyMac src 8 seq slot d) s = .next (s.after t) ∧ answered t 0x43 mbOk ∧ said t (hmac (s.keyValue slot) d) ∧ t.larder = s.larder))) ∧
        (∀ m,
          let cnt := numAt m 16 4
          let failed := fun (t : State) (c st : Nat) => answered t 0x44 st ∧ t.rd Pg.lrd LRD.UPD_FAIL_cause = c ∧ s.counted t Pg.lrd LRD.LRD_CNT0_upd_fail ∧ t.raised Pg.lrd LRD.ev_upd_fail ∧ t.larder = s.larder ∧ t.rd Pg.lrd LRD.UPD_CNT_counter = s.rd Pg.lrd LRD.UPD_CNT_counter
          let form := m.length = 84 ∧ numAt m 0 4 = 0x4B55504C
          let ours := form ∧ numAt m 8 8 = s.devId
          let signed := ours ∧ s.keyOk 2 = true ∧ (m.drop 52).take 32 = hmac (s.keyValue 2) (m.take 52)
          (¬ form → ∃ t, exec (.keyUpdate src 8 seq m) s = .next (s.after t) ∧ failed t 1 mbBadArg) ∧
          (form → ¬ ours → ∃ t, exec (.keyUpdate src 8 seq m) s = .next (s.after t) ∧ failed t 2 mbBadArg) ∧
          (ours → ¬ signed → ∃ t, exec (.keyUpdate src 8 seq m) s = .next (s.after t) ∧ failed t 3 mbVerifyFail) ∧
          (signed → cnt ≤ s.rd Pg.lrd LRD.UPD_CNT_counter → ∃ t, exec (.keyUpdate src 8 seq m) s = .next (s.after t) ∧ failed t 4 mbBadArg) ∧
          (signed → s.rd Pg.lrd LRD.UPD_CNT_counter < cnt → s.updArgOk (byteAt m 4) (byteAt m 5) = false → ∃ t, exec (.keyUpdate src 8 seq m) s = .next (s.after t) ∧ failed t 5 mbBadArg) ∧
          (signed → s.rd Pg.lrd LRD.UPD_CNT_counter < cnt → byteAt m 4 = 1 → keyTarget (byteAt m 5) = true → byteAt m 7 % 2 = 0 → ∃ t, exec (.keyUpdate src 8 seq m) s = .next (s.after t) ∧ answered t 0x44 mbOk ∧ t.rd Pg.lrd LRD.UPD_CNT_counter = cnt ∧
            s.counted t Pg.lrd LRD.LRD_CNT0_upd_ok ∧ t.raised Pg.lrd LRD.ev_upd_ok ∧ t.keyValue (byteAt m 5) = List.zipWith (· ^^^ ·) ((m.drop 20).take 32) (kdf (s.keyValue 2) (ascii "UWRP") ((m.drop 8).take 12)))) ∧
        (∃ t, exec (.gateClose src 8 seq) s = .next (s.after t) ∧ answered t 0x45 mbOk ∧ t.gateOpen = false ∧ (s.gateOpen = true → t.raised Pg.lrd LRD.ev_gate_closed)) ∧
        (∀ nonce, (nonce.length ≠ 16 → ∃ t, exec (.attest src 8 seq nonce) s = .next (s.after t) ∧ answered t 0x46 mbBadArg) ∧
          (nonce.length = 16 → s.keyOk 9 = false → ∃ t, exec (.attest src 8 seq nonce) s = .next (s.after t) ∧ answered t 0x46 mbNotFound) ∧
          (nonce.length = 16 → s.keyOk 9 = true → s.eng.tbl = [] →
            let b := leBytes 8 s.devId ++ fwMeasure s.eng.fw ++ List.replicate 48 0 ++ leBytes 2 s.profileId
            ∃ t, exec (.attest src 8 seq nonce) s = .next (s.after t) ∧ answered t 0x46 mbOk ∧ said t (b ++ leBytes 2 s.rootSlot ++ hmac (s.keyValue 9) (nonce ++ b)) ∧ t.larder = s.larder)))) ∧
    (s.gateOpen = false → exec .lrdGateClose s = .next (s.after s)) ∧
    (s.gateOpen = true → ∃ t, exec .lrdGateClose s = .next (s.after t) ∧ t.gateOpen = false ∧ t.raised Pg.lrd LRD.ev_gate_closed ∧ t.larder = s.larder) ∧
    ((∀ n, (s.slot n).mask.length ≤ 32) → ∃ t, exec .remask s = .next (s.after t) ∧ t.regs = s.regs ∧ ∀ n, t.keyValue n = s.keyValue n ∧ t.keyOk n = s.keyOk n)

/-- R425–R433, R435–R439. -/
def Obligations.SleepAndWake : Prop :=
  ∀ (s : State),
    let asleep := fun (u : State) (k : Nat) => u.life = (if k = 3 then .p3 else .p2) ∧ u.pm.want = 0 ∧ u.pm.slept = s.chain.time ∧ u.chain.time = s.chain.time ∧ u.addr = s.addr ∧ s.counted u Pg.pws PWS.SLEEP_CNT_sleeps ∧ u.rd Pg.pws PWS.PWS_STAT_state = 0 ∧
      u.on Pg.pws PWS.WAKE_CAUSE_valid = false ∧ u.pst .tu = stSleep ∧ u.pst .td = stSleep ∧ u.on Pg.glb GLB.GLB_STAT_pads_held = !s.compat
    let refused := fun (u : State) (k : Nat) => u.life = s.life ∧ u.rd Pg.pws PWS.PWS_STAT_refuse = k ∧ s.counted u Pg.pws PWS.SLEEP_CNT_refusals ∧ u.raised Pg.pws PWS.ev_refused
    (s.life = .running →
      (∀ r, (r ∈ s.pm.trims ∨ s.trimOk r = false → exec (.trimEnter r) s = .next (s.after s)) ∧
        (r ∉ s.pm.trims → s.trimOk r = true → ∃ u, exec (.trimEnter r) s = .next (s.after u) ∧ u.pm.trims = s.pm.trims ++ [r] ∧ (s.pm.trims = [] → u.rd Pg.pws PWS.PWS_STAT_state = 1 ∧ u.raised Pg.pws PWS.ev_trim_enter) ∧ (s.pm.trims ≠ [] → u.regs = s.regs)) ∧
        (r ∉ s.pm.trims → exec (.trimExit r) s = .next (s.after s)) ∧
        (r ∈ s.pm.trims → ∃ u, exec (.trimExit r) s = .next (s.after u) ∧ u.pm.trims = s.pm.trims.erase r ∧ (s.pm.trims = [r] → u.rd Pg.pws PWS.PWS_STAT_state = 0 ∧ u.raised Pg.pws PWS.ev_trim_exit) ∧ (2 ≤ s.pm.trims.length → u.regs = s.regs))) ∧
      (∀ v, (s.mode = .hub → ∃ u, exec (.pwsSleepRequest v) s = .next (s.after u) ∧ refused u 5 ∧ u.pm = s.pm) ∧
        (s.mode = .head → ∃ u, exec (.pwsSleepRequest v) s = .next (s.after u) ∧ refused u 4 ∧ u.pm = s.pm) ∧
        (s.mode = .standalone → s.sleepRefusal = 0 → ∃ u, exec (.pwsSleepRequest v) s = .next (s.after u) ∧ u.pm.want = (if v % 4 = 3 then 3 else 2) ∧ u.raised Pg.pws PWS.ev_armed)) ∧
      (∀ banks,
        ((∀ a, a ∈ s.chain.armed → a.cmd ≠ 2 ∧ a.cmd ≠ 3) →
          (s.pm.want = 0 → exec (.sleepEntry banks) s = .next (s.after s)) ∧
          (s.pm.want ≠ 0 → s.sleepRefusal ≠ 0 → ∃ u, exec (.sleepEntry banks) s = .next (s.after u) ∧ refused u s.sleepRefusal ∧ u.pm.want = 0) ∧
          (s.pm.want ≠ 0 → s.sleepRefusal = 0 → ∃ u, exec (.sleepEntry banks) s = .next (s.after u) ∧ asleep u s.pm.want)) ∧
        (∀ a, s.chain.armed = [a] → a.cmd = 2 ∨ a.cmd = 3 →
          (s.sleepRefusal ≠ 0 → ∃ w : State, exec (.sleepEntry banks) s = .next (s.after (w.cmdAck a.seq 1 a.cmd)) ∧ refused w s.sleepRefusal ∧ w.chain.armed = []) ∧
          (s.sleepRefusal = 0 → ∃ u, exec (.sleepEntry banks) s = .next (s.after u) ∧ asleep u a.cmd))) ∧
      (s.compat = true ∨ s.on Pg.glb GLB.GLB_STAT_pads_held = false → exec .padRelease s = .next (s.after s)) ∧
      (s.compat = false → s.on Pg.glb GLB.GLB_STAT_pads_held = true → ∃ u, exec .padRelease s = .next (s.after u) ∧ u.on Pg.glb GLB.GLB_STAT_pads_held = false)) ∧
    (s.life ≠ .p2 → ∀ x, exec (.watchSample x) s = .next (s.after s)) ∧
    (∀ x r, s.life = .p2 → watchRules s.pm.prog = [r] → ∃ u, exec (.watchSample x) s = .next (s.after u) ∧ u.pm.period = s.pm.period + 1 ∧
      let n := (Tab.find 0 s.pm.hits).getD 0 + 1
      (s.pm.period % 2 ^ r.every ≠ 0 → u.pm.hits = s.pm.hits ∧ u.regs = s.regs) ∧
      (s.pm.period % 2 ^ r.every = 0 → watchHit r.op (s.watchSees x r) = false → 1 ≤ r.count → Tab.find 0 u.pm.hits = none ∧ u.regs = s.regs) ∧
      (s.pm.period % 2 ^ r.every = 0 → watchHit r.op (s.watchSees x r) = true →
        (n < r.count → Tab.find 0 u.pm.hits = some n ∧ u.regs = s.regs) ∧
        (r.count ≤ n → r.action = 1 → bitOf (u.rd Pg.pws PWS.WATCH_MARK_marks) 0 = 1 ∧ Tab.find 0 u.pm.hits = none ∧ u.woken = s.woken) ∧
        (r.count ≤ n → r.action ≠ 1 → s.wakeEn 0 = true → u.on Pg.pws PWS.WAKE_CAUSE_watch = true ∧ (s.on Pg.pws PWS.WAKE_CAUSE_watch = false → u.rd Pg.pws PWS.WAKE_CAUSE_rule = 0)))) ∧
    (∀ w gone images periods us,
      let at_ := s.pm.slept + periods * 1000000000 / 32768
      (s.life ≠ .p2 ∨ (s.wakeCauses w).woken = false → exec (.wakeFromP2 w gone images periods us) s = .next (s.after s)) ∧
      (s.life = .p2 → (s.wakeCauses w).woken = true → ∃ u, exec (.wakeFromP2 w gone images periods us) s = .next (s.after u) ∧ u.life = .running ∧ u.on Pg.pws PWS.WAKE_CAUSE_valid = true ∧ u.raised Pg.pws PWS.ev_woke ∧ u.rd Pg.pws PWS.PWS_STAT_last_sleep = 2 ∧
        u.rd Pg.pws PWS.WAKE_TIME_us = us % 2 ^ 24 ∧ u.chain.time = at_ ∧ u.pm = {} ∧ u.on Pg.ctim CTIM.CTIM_STAT_free = true) ∧
      ∀ (k : Fin 4) compat refsel f,
        (s.life ≠ .p3 ∨ (s.wakeCauses w).woken = false → exec (.wakeFromP3 w gone k compat refsel f periods us) s = .next (s.after s)) ∧
        (s.life = .p3 → (s.wakeCauses w).woken = true → ∃ u, exec (.wakeFromP3 w gone k compat refsel f periods us) s = .next (s.after u) ∧ u.life = .running ∧ u.on Pg.pws PWS.WAKE_CAUSE_valid = true ∧ u.raised Pg.pws PWS.ev_woke ∧ u.pm = {} ∧
          (u.on Pg.glb GLB.GLB_STAT_boot_err = false → u.rd Pg.pws PWS.PWS_STAT_last_sleep = 3 ∧ u.rd Pg.pws PWS.WAKE_TIME_us = us % 2 ^ 24 ∧ u.chain.time = at_)))

/-- R440–R445. -/
def Obligations.ClockAndVoltageLoops : Prop :=
  ∀ (s : State), s.life = .running →
    let k1 := s.rd1 Pg.avs AVS.AVS_CFG_step_mv
    let goal : Int := (s.rd Pg.avs AVS.AVS_CFG_target : Nat)
    let step := s.coreStep
    (∀ err, (s.rd Pg.pws PWS.PWS_STAT_state = 0 → ∃ u, exec (.osc32Trim err) s = .next (s.after u) ∧ u.rd Pg.clk CLK.CLK_STAT_osc32_err = unsigned 16 err) ∧ (s.rd Pg.pws PWS.PWS_STAT_state ≠ 0 → exec (.osc32Trim err) s = .next (s.after s))) ∧
    (∀ (slack : Int) (ack : Bool), ∃ u, exec (.avsInterval slack ack) s = .next (s.after u) ∧ u.rd Pg.avs AVS.AVS_STAT_slack = unsigned 8 slack ∧ (slack < goal → u.raised Pg.avs AVS.ev_slack_low) ∧
      (s.on Pg.avs AVS.AVS_CFG_hold = true → u.vdd = s.vdd) ∧ (goal ≤ slack → slack ≤ goal + 4 → u.vdd = s.vdd) ∧
      (s.on Pg.avs AVS.AVS_CFG_hold = false →
        (slack < goal → ack = true → s.vMin ≤ s.vdd + k1 → s.vdd + k1 ≤ s.vMax → u.vdd = s.vdd + k1 ∧ s.counted u Pg.avs AVS.AVS_CNT_ups ∧ u.on Pg.avs AVS.AVS_BUS_ok = true) ∧
        (slack < goal → ack = true → s.vMin ≤ s.vMax → s.vMax < s.vdd + k1 → u.vdd = s.vMax ∧ u.on Pg.avs AVS.AVS_STAT_pin = true) ∧
        (goal + 4 < slack → ack = true → s.vMin ≤ s.vdd - k1 → s.vdd - k1 ≤ s.vMax → 1 ≤ s.vdd → u.vdd = s.vdd - k1 ∧ s.counted u Pg.avs AVS.AVS_CNT_downs) ∧
        (slack < goal → ack = false → s.vMin ≤ s.vdd + k1 → s.vdd + k1 ≤ s.vMax → u.vdd = s.vdd ∧ u.on Pg.avs AVS.AVS_BUS_ok = false ∧ u.raised Pg.avs AVS.ev_bus_err))) ∧
    (∀ v, let c := max s.vMin (min s.vMax (v % 1024))
      (∃ u, exec (.avsSetWrite v true) s = .next (s.after u) ∧ u.vdd = c ∧ (c ≠ v % 1024 → u.on Pg.avs AVS.AVS_STAT_pin = true)) ∧ (c ≠ s.vdd → ∃ u, exec (.avsSetWrite v false) s = .next (s.after u) ∧ u.vdd = s.vdd ∧ u.raised Pg.avs AVS.ev_bus_err)) ∧
    (∀ v ack, bitsOf v 25 16 < bitsOf v 9 0 → ∃ u, exec (.avsEnvWrite v ack) s = .next (s.after u) ∧ u.raised Pg.avs AVS.ev_cfg_err ∧ u.vMax = s.vMax ∧ u.vMin = s.vMin ∧ u.vdd = s.vdd) ∧
    (∀ v, bitsOf v 9 0 ≤ bitsOf v 25 16 → ∃ u, exec (.avsEnvWrite v true) s = .next (s.after u) ∧ u.vMax = max 840 (min 960 (bitsOf v 25 16)) ∧ u.vMin = max 840 (min 960 (bitsOf v 9 0)) ∧ u.vMin ≤ u.vdd ∧ u.vdd ≤ u.vMax ∧ (u.vMin ≤ s.vdd → s.vdd ≤ u.vMax → u.vdd = s.vdd)) ∧
    (∀ v ack, let k := stepCode v
      s.hiStep ≤ k → k ≤ s.loStep →
        (k = step → exec (.frqSetWrite v ack) s = .next (s.after s)) ∧
        (step < k → ∃ u, exec (.frqSetWrite v ack) s = .next (s.after u) ∧ u.coreStep = k ∧ s.counted u Pg.clk CLK.CLK_CNT_downs ∧ u.raised Pg.clk CLK.ev_step ∧ u.vdd = s.vdd) ∧
        (k < step → s.pm.busBad = false → s.avsCurve k ≤ s.vdd → ∃ u, exec (.frqSetWrite v ack) s = .next (s.after u) ∧ u.coreStep = k ∧ s.counted u Pg.clk CLK.CLK_CNT_ups ∧ u.raised Pg.clk CLK.ev_step) ∧
        (k + 1 = step → s.pm.busBad = true → ∃ u, exec (.frqSetWrite v ack) s = .next (s.after u) ∧ u.coreStep = step ∧ u.on Pg.clk CLK.FRQ_STAT_pin = true)) ∧
    (∀ v ack, stepCode v < s.hiStep → s.hiStep ≤ s.loStep → step ≤ s.hiStep → ∃ u, exec (.frqSetWrite v ack) s = .next (s.after u) ∧ u.coreStep = s.hiStep ∧ u.on Pg.clk CLK.FRQ_STAT_pin = true ∧ (s.on Pg.clk CLK.FRQ_STAT_pin = false → u.raised Pg.clk CLK.ev_frq_pinned)) ∧
    (∀ v ack, (stepCode v < stepCode (v / 256) → ∃ u, exec (.frqEnvWrite v ack) s = .next (s.after u) ∧ u.raised Pg.clk CLK.ev_cfg_err ∧ u.hiStep = s.hiStep ∧ u.loStep = s.loStep ∧ u.coreStep = step) ∧
      (stepCode (v / 256) ≤ stepCode v → ∃ u, exec (.frqEnvWrite v ack) s = .next (s.after u) ∧ u.hiStep = stepCode (v / 256) ∧ u.loStep = stepCode v ∧
        (stepCode (v / 256) ≤ step → step ≤ stepCode v → u.coreStep = step) ∧ (step < stepCode (v / 256) → u.coreStep = stepCode (v / 256)))) ∧
    (∃ u, exec .timingGuard s = .next (s.after u) ∧ s.counted u Pg.clk CLK.CLK_CNT_guards ∧ u.raised Pg.clk CLK.ev_guard ∧ u.coreStep = min 2 (step + 1))
end

