-- ==== Sys2Proof/Laws/State.lean ====
section
/-!
SUPPORT. Sys2Proof/Laws/State.lean: what each small update of the state leaves of each field: one lemma a field and update, true by unfolding, so that no proof opens a
record update.
-/
namespace Sys2Proof.Machine

open Sys2Proof

/-! ### State.wr -/

@[simp] theorem State.wr_snap (s : State) (p : Nat) (f : Fld) (v : Nat) : (s.wr p f v).snap = s.snap := rfl
@[simp] theorem State.wr_mode (s : State) (p : Nat) (f : Fld) (v : Nat) : (s.wr p f v).mode = s.mode := rfl
@[simp] theorem State.wr_compat (s : State) (p : Nat) (f : Fld) (v : Nat) : (s.wr p f v).compat = s.compat := rfl
@[simp] theorem State.wr_refsel (s : State) (p : Nat) (f : Fld) (v : Nat) : (s.wr p f v).refsel = s.refsel := rfl
@[simp] theorem State.wr_life (s : State) (p : Nat) (f : Fld) (v : Nat) : (s.wr p f v).life = s.life := rfl
@[simp] theorem State.wr_now (s : State) (p : Nat) (f : Fld) (v : Nat) : (s.wr p f v).now = s.now := rfl
@[simp] theorem State.wr_free (s : State) (p : Nat) (f : Fld) (v : Nat) : (s.wr p f v).free = s.free := rfl
@[simp] theorem State.wr_evt (s : State) (p : Nat) (f : Fld) (v : Nat) : (s.wr p f v).evt = s.evt := rfl
@[simp] theorem State.wr_tu (s : State) (p : Nat) (f : Fld) (v : Nat) : (s.wr p f v).tu = s.tu := rfl
@[simp] theorem State.wr_td (s : State) (p : Nat) (f : Fld) (v : Nat) : (s.wr p f v).td = s.td := rfl
@[simp] theorem State.wr_lu (s : State) (p : Nat) (f : Fld) (v : Nat) : (s.wr p f v).lu = s.lu := rfl
@[simp] theorem State.wr_ld (s : State) (p : Nat) (f : Fld) (v : Nat) : (s.wr p f v).ld = s.ld := rfl
@[simp] theorem State.wr_gran (s : State) (p : Nat) (f : Fld) (v : Nat) : (s.wr p f v).gran = s.gran := rfl
@[simp] theorem State.wr_chain (s : State) (p : Nat) (f : Fld) (v : Nat) : (s.wr p f v).chain = s.chain := rfl
@[simp] theorem State.wr_sched (s : State) (p : Nat) (f : Fld) (v : Nat) : (s.wr p f v).sched = s.sched := rfl
@[simp] theorem State.wr_xbr (s : State) (p : Nat) (f : Fld) (v : Nat) : (s.wr p f v).xbr = s.xbr := rfl
@[simp] theorem State.wr_vhg (s : State) (p : Nat) (f : Fld) (v : Nat) : (s.wr p f v).vhg = s.vhg := rfl
@[simp] theorem State.wr_prof (s : State) (p : Nat) (f : Fld) (v : Nat) : (s.wr p f v).prof = s.prof := rfl
@[simp] theorem State.wr_larder (s : State) (p : Nat) (f : Fld) (v : Nat) : (s.wr p f v).larder = s.larder := rfl
@[simp] theorem State.wr_update (s : State) (p : Nat) (f : Fld) (v : Nat) : (s.wr p f v).update = s.update := rfl
@[simp] theorem State.wr_fns (s : State) (p : Nat) (f : Fld) (v : Nat) : (s.wr p f v).fns = s.fns := rfl
@[simp] theorem State.wr_disp (s : State) (p : Nat) (f : Fld) (v : Nat) : (s.wr p f v).disp = s.disp := rfl
@[simp] theorem State.wr_enc (s : State) (p : Nat) (f : Fld) (v : Nat) : (s.wr p f v).enc = s.enc := rfl
@[simp] theorem State.wr_tcs (s : State) (p : Nat) (f : Fld) (v : Nat) : (s.wr p f v).tcs = s.tcs := rfl
@[simp] theorem State.wr_usb (s : State) (p : Nat) (f : Fld) (v : Nat) : (s.wr p f v).usb = s.usb := rfl
@[simp] theorem State.wr_svc (s : State) (p : Nat) (f : Fld) (v : Nat) : (s.wr p f v).svc = s.svc := rfl
@[simp] theorem State.wr_eth (s : State) (p : Nat) (f : Fld) (v : Nat) : (s.wr p f v).eth = s.eth := rfl
@[simp] theorem State.wr_nic (s : State) (p : Nat) (f : Fld) (v : Nat) : (s.wr p f v).nic = s.nic := rfl
@[simp] theorem State.wr_pcie (s : State) (p : Nat) (f : Fld) (v : Nat) : (s.wr p f v).pcie = s.pcie := rfl
@[simp] theorem State.wr_pw (s : State) (p : Nat) (f : Fld) (v : Nat) : (s.wr p f v).pw = s.pw := rfl
@[simp] theorem State.wr_eng (s : State) (p : Nat) (f : Fld) (v : Nat) : (s.wr p f v).eng = s.eng := rfl
@[simp] theorem State.wr_pm (s : State) (p : Nat) (f : Fld) (v : Nat) : (s.wr p f v).pm = s.pm := rfl
@[simp] theorem State.wr_tmr (s : State) (p : Nat) (f : Fld) (v : Nat) : (s.wr p f v).tmr = s.tmr := rfl
@[simp] theorem State.wr_intN (s : State) (p : Nat) (f : Fld) (v : Nat) : (s.wr p f v).intN = s.intN := rfl
@[simp] theorem State.wr_outbox (s : State) (p : Nat) (f : Fld) (v : Nat) : (s.wr p f v).outbox = s.outbox := rfl
@[simp] theorem State.wr_pending (s : State) (p : Nat) (f : Fld) (v : Nat) : (s.wr p f v).pending = s.pending := rfl

/-! ### State.bump -/

@[simp] theorem State.bump_snap (s : State) (p : Nat) (f : Fld) (n : Nat) : (s.bump p f n).snap = s.snap := rfl
@[simp] theorem State.bump_mode (s : State) (p : Nat) (f : Fld) (n : Nat) : (s.bump p f n).mode = s.mode := rfl
@[simp] theorem State.bump_compat (s : State) (p : Nat) (f : Fld) (n : Nat) : (s.bump p f n).compat = s.compat := rfl
@[simp] theorem State.bump_refsel (s : State) (p : Nat) (f : Fld) (n : Nat) : (s.bump p f n).refsel = s.refsel := rfl
@[simp] theorem State.bump_life (s : State) (p : Nat) (f : Fld) (n : Nat) : (s.bump p f n).life = s.life := rfl
@[simp] theorem State.bump_now (s : State) (p : Nat) (f : Fld) (n : Nat) : (s.bump p f n).now = s.now := rfl
@[simp] theorem State.bump_free (s : State) (p : Nat) (f : Fld) (n : Nat) : (s.bump p f n).free = s.free := rfl
@[simp] theorem State.bump_evt (s : State) (p : Nat) (f : Fld) (n : Nat) : (s.bump p f n).evt = s.evt := rfl
@[simp] theorem State.bump_tu (s : State) (p : Nat) (f : Fld) (n : Nat) : (s.bump p f n).tu = s.tu := rfl
@[simp] theorem State.bump_td (s : State) (p : Nat) (f : Fld) (n : Nat) : (s.bump p f n).td = s.td := rfl
@[simp] theorem State.bump_lu (s : State) (p : Nat) (f : Fld) (n : Nat) : (s.bump p f n).lu = s.lu := rfl
@[simp] theorem State.bump_ld (s : State) (p : Nat) (f : Fld) (n : Nat) : (s.bump p f n).ld = s.ld := rfl
@[simp] theorem State.bump_gran (s : State) (p : Nat) (f : Fld) (n : Nat) : (s.bump p f n).gran = s.gran := rfl
@[simp] theorem State.bump_chain (s : State) (p : Nat) (f : Fld) (n : Nat) : (s.bump p f n).chain = s.chain := rfl
@[simp] theorem State.bump_sched (s : State) (p : Nat) (f : Fld) (n : Nat) : (s.bump p f n).sched = s.sched := rfl
@[simp] theorem State.bump_xbr (s : State) (p : Nat) (f : Fld) (n : Nat) : (s.bump p f n).xbr = s.xbr := rfl
@[simp] theorem State.bump_vhg (s : State) (p : Nat) (f : Fld) (n : Nat) : (s.bump p f n).vhg = s.vhg := rfl
@[simp] theorem State.bump_prof (s : State) (p : Nat) (f : Fld) (n : Nat) : (s.bump p f n).prof = s.prof := rfl
@[simp] theorem State.bump_larder (s : State) (p : Nat) (f : Fld) (n : Nat) : (s.bump p f n).larder = s.larder := rfl
@[simp] theorem State.bump_update (s : State) (p : Nat) (f : Fld) (n : Nat) : (s.bump p f n).update = s.update := rfl
@[simp] theorem State.bump_fns (s : State) (p : Nat) (f : Fld) (n : Nat) : (s.bump p f n).fns = s.fns := rfl
@[simp] theorem State.bump_disp (s : State) (p : Nat) (f : Fld) (n : Nat) : (s.bump p f n).disp = s.disp := rfl
@[simp] theorem State.bump_enc (s : State) (p : Nat) (f : Fld) (n : Nat) : (s.bump p f n).enc = s.enc := rfl
@[simp] theorem State.bump_tcs (s : State) (p : Nat) (f : Fld) (n : Nat) : (s.bump p f n).tcs = s.tcs := rfl
@[simp] theorem State.bump_usb (s : State) (p : Nat) (f : Fld) (n : Nat) : (s.bump p f n).usb = s.usb := rfl
@[simp] theorem State.bump_svc (s : State) (p : Nat) (f : Fld) (n : Nat) : (s.bump p f n).svc = s.svc := rfl
@[simp] theorem State.bump_eth (s : State) (p : Nat) (f : Fld) (n : Nat) : (s.bump p f n).eth = s.eth := rfl
@[simp] theorem State.bump_nic (s : State) (p : Nat) (f : Fld) (n : Nat) : (s.bump p f n).nic = s.nic := rfl
@[simp] theorem State.bump_pcie (s : State) (p : Nat) (f : Fld) (n : Nat) : (s.bump p f n).pcie = s.pcie := rfl
@[simp] theorem State.bump_pw (s : State) (p : Nat) (f : Fld) (n : Nat) : (s.bump p f n).pw = s.pw := rfl
@[simp] theorem State.bump_eng (s : State) (p : Nat) (f : Fld) (n : Nat) : (s.bump p f n).eng = s.eng := rfl
@[simp] theorem State.bump_pm (s : State) (p : Nat) (f : Fld) (n : Nat) : (s.bump p f n).pm = s.pm := rfl
@[simp] theorem State.bump_tmr (s : State) (p : Nat) (f : Fld) (n : Nat) : (s.bump p f n).tmr = s.tmr := rfl
@[simp] theorem State.bump_intN (s : State) (p : Nat) (f : Fld) (n : Nat) : (s.bump p f n).intN = s.intN := rfl
@[simp] theorem State.bump_outbox (s : State) (p : Nat) (f : Fld) (n : Nat) : (s.bump p f n).outbox = s.outbox := rfl
@[simp] theorem State.bump_pending (s : State) (p : Nat) (f : Fld) (n : Nat) : (s.bump p f n).pending = s.pending := rfl

/-! ### State.emit -/

@[simp] theorem State.emit_regs (s : State) (o : Output) : (s.emit o).regs = s.regs := rfl
@[simp] theorem State.emit_snap (s : State) (o : Output) : (s.emit o).snap = s.snap := rfl
@[simp] theorem State.emit_mode (s : State) (o : Output) : (s.emit o).mode = s.mode := rfl
@[simp] theorem State.emit_compat (s : State) (o : Output) : (s.emit o).compat = s.compat := rfl
@[simp] theorem State.emit_refsel (s : State) (o : Output) : (s.emit o).refsel = s.refsel := rfl
@[simp] theorem State.emit_life (s : State) (o : Output) : (s.emit o).life = s.life := rfl
@[simp] theorem State.emit_now (s : State) (o : Output) : (s.emit o).now = s.now := rfl
@[simp] theorem State.emit_free (s : State) (o : Output) : (s.emit o).free = s.free := rfl
@[simp] theorem State.emit_evt (s : State) (o : Output) : (s.emit o).evt = s.evt := rfl
@[simp] theorem State.emit_tu (s : State) (o : Output) : (s.emit o).tu = s.tu := rfl
@[simp] theorem State.emit_td (s : State) (o : Output) : (s.emit o).td = s.td := rfl
@[simp] theorem State.emit_lu (s : State) (o : Output) : (s.emit o).lu = s.lu := rfl
@[simp] theorem State.emit_ld (s : State) (o : Output) : (s.emit o).ld = s.ld := rfl
@[simp] theorem State.emit_gran (s : State) (o : Output) : (s.emit o).gran = s.gran := rfl
@[simp] theorem State.emit_chain (s : State) (o : Output) : (s.emit o).chain = s.chain := rfl
@[simp] theorem State.emit_sched (s : State) (o : Output) : (s.emit o).sched = s.sched := rfl
@[simp] theorem State.emit_xbr (s : State) (o : Output) : (s.emit o).xbr = s.xbr := rfl
@[simp] theorem State.emit_vhg (s : State) (o : Output) : (s.emit o).vhg = s.vhg := rfl
@[simp] theorem State.emit_prof (s : State) (o : Output) : (s.emit o).prof = s.prof := rfl
@[simp] theorem State.emit_larder (s : State) (o : Output) : (s.emit o).larder = s.larder := rfl
@[simp] theorem State.emit_update (s : State) (o : Output) : (s.emit o).update = s.update := rfl
@[simp] theorem State.emit_fns (s : State) (o : Output) : (s.emit o).fns = s.fns := rfl
@[simp] theorem State.emit_disp (s : State) (o : Output) : (s.emit o).disp = s.disp := rfl
@[simp] theorem State.emit_enc (s : State) (o : Output) : (s.emit o).enc = s.enc := rfl
@[simp] theorem State.emit_tcs (s : State) (o : Output) : (s.emit o).tcs = s.tcs := rfl
@[simp] theorem State.emit_usb (s : State) (o : Output) : (s.emit o).usb = s.usb := rfl
@[simp] theorem State.emit_svc (s : State) (o : Output) : (s.emit o).svc = s.svc := rfl
@[simp] theorem State.emit_eth (s : State) (o : Output) : (s.emit o).eth = s.eth := rfl
@[simp] theorem State.emit_nic (s : State) (o : Output) : (s.emit o).nic = s.nic := rfl
@[simp] theorem State.emit_pcie (s : State) (o : Output) : (s.emit o).pcie = s.pcie := rfl
@[simp] theorem State.emit_pw (s : State) (o : Output) : (s.emit o).pw = s.pw := rfl
@[simp] theorem State.emit_eng (s : State) (o : Output) : (s.emit o).eng = s.eng := rfl
@[simp] theorem State.emit_pm (s : State) (o : Output) : (s.emit o).pm = s.pm := rfl
@[simp] theorem State.emit_tmr (s : State) (o : Output) : (s.emit o).tmr = s.tmr := rfl
@[simp] theorem State.emit_intN (s : State) (o : Output) : (s.emit o).intN = s.intN := rfl
@[simp] theorem State.emit_pending (s : State) (o : Output) : (s.emit o).pending = s.pending := rfl

/-! ### State.setRaw -/

@[simp] theorem State.setRaw_snap (s : State) (p n : Nat) : (s.setRaw p n).snap = s.snap := rfl
@[simp] theorem State.setRaw_mode (s : State) (p n : Nat) : (s.setRaw p n).mode = s.mode := rfl
@[simp] theorem State.setRaw_compat (s : State) (p n : Nat) : (s.setRaw p n).compat = s.compat := rfl
@[simp] theorem State.setRaw_refsel (s : State) (p n : Nat) : (s.setRaw p n).refsel = s.refsel := rfl
@[simp] theorem State.setRaw_life (s : State) (p n : Nat) : (s.setRaw p n).life = s.life := rfl
@[simp] theorem State.setRaw_now (s : State) (p n : Nat) : (s.setRaw p n).now = s.now := rfl
@[simp] theorem State.setRaw_free (s : State) (p n : Nat) : (s.setRaw p n).free = s.free := rfl
@[simp] theorem State.setRaw_tu (s : State) (p n : Nat) : (s.setRaw p n).tu = s.tu := rfl
@[simp] theorem State.setRaw_td (s : State) (p n : Nat) : (s.setRaw p n).td = s.td := rfl
@[simp] theorem State.setRaw_lu (s : State) (p n : Nat) : (s.setRaw p n).lu = s.lu := rfl
@[simp] theorem State.setRaw_ld (s : State) (p n : Nat) : (s.setRaw p n).ld = s.ld := rfl
@[simp] theorem State.setRaw_gran (s : State) (p n : Nat) : (s.setRaw p n).gran = s.gran := rfl
@[simp] theorem State.setRaw_chain (s : State) (p n : Nat) : (s.setRaw p n).chain = s.chain := rfl
@[simp] theorem State.setRaw_sched (s : State) (p n : Nat) : (s.setRaw p n).sched = s.sched := rfl
@[simp] theorem State.setRaw_xbr (s : State) (p n : Nat) : (s.setRaw p n).xbr = s.xbr := rfl
@[simp] theorem State.setRaw_vhg (s : State) (p n : Nat) : (s.setRaw p n).vhg = s.vhg := rfl
@[simp] theorem State.setRaw_prof (s : State) (p n : Nat) : (s.setRaw p n).prof = s.prof := rfl
@[simp] theorem State.setRaw_larder (s : State) (p n : Nat) : (s.setRaw p n).larder = s.larder := rfl
@[simp] theorem State.setRaw_update (s : State) (p n : Nat) : (s.setRaw p n).update = s.update := rfl
@[simp] theorem State.setRaw_fns (s : State) (p n : Nat) : (s.setRaw p n).fns = s.fns := rfl
@[simp] theorem State.setRaw_disp (s : State) (p n : Nat) : (s.setRaw p n).disp = s.disp := rfl
@[simp] theorem State.setRaw_enc (s : State) (p n : Nat) : (s.setRaw p n).enc = s.enc := rfl
@[simp] theorem State.setRaw_tcs (s : State) (p n : Nat) : (s.setRaw p n).tcs = s.tcs := rfl
@[simp] theorem State.setRaw_usb (s : State) (p n : Nat) : (s.setRaw p n).usb = s.usb := rfl
@[simp] theorem State.setRaw_svc (s : State) (p n : Nat) : (s.setRaw p n).svc = s.svc := rfl
@[simp] theorem State.setRaw_eth (s : State) (p n : Nat) : (s.setRaw p n).eth = s.eth := rfl
@[simp] theorem State.setRaw_nic (s : State) (p n : Nat) : (s.setRaw p n).nic = s.nic := rfl
@[simp] theorem State.setRaw_pcie (s : State) (p n : Nat) : (s.setRaw p n).pcie = s.pcie := rfl
@[simp] theorem State.setRaw_pw (s : State) (p n : Nat) : (s.setRaw p n).pw = s.pw := rfl
@[simp] theorem State.setRaw_eng (s : State) (p n : Nat) : (s.setRaw p n).eng = s.eng := rfl
@[simp] theorem State.setRaw_pm (s : State) (p n : Nat) : (s.setRaw p n).pm = s.pm := rfl
@[simp] theorem State.setRaw_tmr (s : State) (p n : Nat) : (s.setRaw p n).tmr = s.tmr := rfl
@[simp] theorem State.setRaw_intN (s : State) (p n : Nat) : (s.setRaw p n).intN = s.intN := rfl
@[simp] theorem State.setRaw_outbox (s : State) (p n : Nat) : (s.setRaw p n).outbox = s.outbox := rfl
@[simp] theorem State.setRaw_pending (s : State) (p n : Nat) : (s.setRaw p n).pending = s.pending := rfl

/-! ### State.freshen -/

@[simp] theorem State.freshen_regs (s : State) (p : Nat) : (s.freshen p).regs = s.regs := rfl
@[simp] theorem State.freshen_snap (s : State) (p : Nat) : (s.freshen p).snap = s.snap := rfl
@[simp] theorem State.freshen_mode (s : State) (p : Nat) : (s.freshen p).mode = s.mode := rfl
@[simp] theorem State.freshen_compat (s : State) (p : Nat) : (s.freshen p).compat = s.compat := rfl
@[simp] theorem State.freshen_refsel (s : State) (p : Nat) : (s.freshen p).refsel = s.refsel := rfl
@[simp] theorem State.freshen_life (s : State) (p : Nat) : (s.freshen p).life = s.life := rfl
@[simp] theorem State.freshen_now (s : State) (p : Nat) : (s.freshen p).now = s.now := rfl
@[simp] theorem State.freshen_free (s : State) (p : Nat) : (s.freshen p).free = s.free := rfl
@[simp] theorem State.freshen_tu (s : State) (p : Nat) : (s.freshen p).tu = s.tu := rfl
@[simp] theorem State.freshen_td (s : State) (p : Nat) : (s.freshen p).td = s.td := rfl
@[simp] theorem State.freshen_lu (s : State) (p : Nat) : (s.freshen p).lu = s.lu := rfl
@[simp] theorem State.freshen_ld (s : State) (p : Nat) : (s.freshen p).ld = s.ld := rfl
@[simp] theorem State.freshen_gran (s : State) (p : Nat) : (s.freshen p).gran = s.gran := rfl
@[simp] theorem State.freshen_chain (s : State) (p : Nat) : (s.freshen p).chain = s.chain := rfl
@[simp] theorem State.freshen_sched (s : State) (p : Nat) : (s.freshen p).sched = s.sched := rfl
@[simp] theorem State.freshen_xbr (s : State) (p : Nat) : (s.freshen p).xbr = s.xbr := rfl
@[simp] theorem State.freshen_vhg (s : State) (p : Nat) : (s.freshen p).vhg = s.vhg := rfl
@[simp] theorem State.freshen_prof (s : State) (p : Nat) : (s.freshen p).prof = s.prof := rfl
@[simp] theorem State.freshen_larder (s : State) (p : Nat) : (s.freshen p).larder = s.larder := rfl
@[simp] theorem State.freshen_update (s : State) (p : Nat) : (s.freshen p).update = s.update := rfl
@[simp] theorem State.freshen_fns (s : State) (p : Nat) : (s.freshen p).fns = s.fns := rfl
@[simp] theorem State.freshen_disp (s : State) (p : Nat) : (s.freshen p).disp = s.disp := rfl
@[simp] theorem State.freshen_enc (s : State) (p : Nat) : (s.freshen p).enc = s.enc := rfl
@[simp] theorem State.freshen_tcs (s : State) (p : Nat) : (s.freshen p).tcs = s.tcs := rfl
@[simp] theorem State.freshen_usb (s : State) (p : Nat) : (s.freshen p).usb = s.usb := rfl
@[simp] theorem State.freshen_svc (s : State) (p : Nat) : (s.freshen p).svc = s.svc := rfl
@[simp] theorem State.freshen_eth (s : State) (p : Nat) : (s.freshen p).eth = s.eth := rfl
@[simp] theorem State.freshen_nic (s : State) (p : Nat) : (s.freshen p).nic = s.nic := rfl
@[simp] theorem State.freshen_pcie (s : State) (p : Nat) : (s.freshen p).pcie = s.pcie := rfl
@[simp] theorem State.freshen_pw (s : State) (p : Nat) : (s.freshen p).pw = s.pw := rfl
@[simp] theorem State.freshen_eng (s : State) (p : Nat) : (s.freshen p).eng = s.eng := rfl
@[simp] theorem State.freshen_pm (s : State) (p : Nat) : (s.freshen p).pm = s.pm := rfl
@[simp] theorem State.freshen_tmr (s : State) (p : Nat) : (s.freshen p).tmr = s.tmr := rfl
@[simp] theorem State.freshen_intN (s : State) (p : Nat) : (s.freshen p).intN = s.intN := rfl
@[simp] theorem State.freshen_outbox (s : State) (p : Nat) : (s.freshen p).outbox = s.outbox := rfl
@[simp] theorem State.freshen_pending (s : State) (p : Nat) : (s.freshen p).pending = s.pending := rfl

/-! ### State.setDh -/

@[simp] theorem State.setDh_regs (s : State) (n : Nat) (x : DispHead) : (s.setDh n x).regs = s.regs := rfl
@[simp] theorem State.setDh_snap (s : State) (n : Nat) (x : DispHead) : (s.setDh n x).snap = s.snap := rfl
@[simp] theorem State.setDh_life (s : State) (n : Nat) (x : DispHead) : (s.setDh n x).life = s.life := rfl
@[simp] theorem State.setDh_mode (s : State) (n : Nat) (x : DispHead) : (s.setDh n x).mode = s.mode := rfl
@[simp] theorem State.setDh_evt (s : State) (n : Nat) (x : DispHead) : (s.setDh n x).evt = s.evt := rfl
@[simp] theorem State.setDh_gran (s : State) (n : Nat) (x : DispHead) : (s.setDh n x).gran = s.gran := rfl
@[simp] theorem State.setDh_outbox (s : State) (n : Nat) (x : DispHead) : (s.setDh n x).outbox = s.outbox := rfl
@[simp] theorem State.setDh_free (s : State) (n : Nat) (x : DispHead) : (s.setDh n x).free = s.free := rfl
@[simp] theorem State.setDh_chain (s : State) (n : Nat) (x : DispHead) : (s.setDh n x).chain = s.chain := rfl
@[simp] theorem State.setDh_intN (s : State) (n : Nat) (x : DispHead) : (s.setDh n x).intN = s.intN := rfl
@[simp] theorem State.setDh_pending (s : State) (n : Nat) (x : DispHead) : (s.setDh n x).pending = s.pending := rfl

/-! ### State.setTc -/

@[simp] theorem State.setTc_regs (s : State) (n : Nat) (x : TcCtx) : (s.setTc n x).regs = s.regs := rfl
@[simp] theorem State.setTc_snap (s : State) (n : Nat) (x : TcCtx) : (s.setTc n x).snap = s.snap := rfl
@[simp] theorem State.setTc_life (s : State) (n : Nat) (x : TcCtx) : (s.setTc n x).life = s.life := rfl
@[simp] theorem State.setTc_mode (s : State) (n : Nat) (x : TcCtx) : (s.setTc n x).mode = s.mode := rfl
@[simp] theorem State.setTc_evt (s : State) (n : Nat) (x : TcCtx) : (s.setTc n x).evt = s.evt := rfl
@[simp] theorem State.setTc_gran (s : State) (n : Nat) (x : TcCtx) : (s.setTc n x).gran = s.gran := rfl
@[simp] theorem State.setTc_outbox (s : State) (n : Nat) (x : TcCtx) : (s.setTc n x).outbox = s.outbox := rfl
@[simp] theorem State.setTc_free (s : State) (n : Nat) (x : TcCtx) : (s.setTc n x).free = s.free := rfl
@[simp] theorem State.setTc_chain (s : State) (n : Nat) (x : TcCtx) : (s.setTc n x).chain = s.chain := rfl
@[simp] theorem State.setTc_intN (s : State) (n : Nat) (x : TcCtx) : (s.setTc n x).intN = s.intN := rfl
@[simp] theorem State.setTc_pending (s : State) (n : Nat) (x : TcCtx) : (s.setTc n x).pending = s.pending := rfl

/-! ### State.setEth -/

@[simp] theorem State.setEth_regs (s : State) (n : Nat) (x : EthCtx) : (s.setEth n x).regs = s.regs := rfl
@[simp] theorem State.setEth_snap (s : State) (n : Nat) (x : EthCtx) : (s.setEth n x).snap = s.snap := rfl
@[simp] theorem State.setEth_life (s : State) (n : Nat) (x : EthCtx) : (s.setEth n x).life = s.life := rfl
@[simp] theorem State.setEth_mode (s : State) (n : Nat) (x : EthCtx) : (s.setEth n x).mode = s.mode := rfl
@[simp] theorem State.setEth_evt (s : State) (n : Nat) (x : EthCtx) : (s.setEth n x).evt = s.evt := rfl
@[simp] theorem State.setEth_gran (s : State) (n : Nat) (x : EthCtx) : (s.setEth n x).gran = s.gran := rfl
@[simp] theorem State.setEth_outbox (s : State) (n : Nat) (x : EthCtx) : (s.setEth n x).outbox = s.outbox := rfl
@[simp] theorem State.setEth_free (s : State) (n : Nat) (x : EthCtx) : (s.setEth n x).free = s.free := rfl
@[simp] theorem State.setEth_chain (s : State) (n : Nat) (x : EthCtx) : (s.setEth n x).chain = s.chain := rfl
@[simp] theorem State.setEth_intN (s : State) (n : Nat) (x : EthCtx) : (s.setEth n x).intN = s.intN := rfl
@[simp] theorem State.setEth_pending (s : State) (n : Nat) (x : EthCtx) : (s.setEth n x).pending = s.pending := rfl

/-! ### State.setNic -/

@[simp] theorem State.setNic_regs (s : State) (n : Nat) (x : NicCtx) : (s.setNic n x).regs = s.regs := rfl
@[simp] theorem State.setNic_snap (s : State) (n : Nat) (x : NicCtx) : (s.setNic n x).snap = s.snap := rfl
@[simp] theorem State.setNic_life (s : State) (n : Nat) (x : NicCtx) : (s.setNic n x).life = s.life := rfl
@[simp] theorem State.setNic_mode (s : State) (n : Nat) (x : NicCtx) : (s.setNic n x).mode = s.mode := rfl
@[simp] theorem State.setNic_evt (s : State) (n : Nat) (x : NicCtx) : (s.setNic n x).evt = s.evt := rfl
@[simp] theorem State.setNic_gran (s : State) (n : Nat) (x : NicCtx) : (s.setNic n x).gran = s.gran := rfl
@[simp] theorem State.setNic_outbox (s : State) (n : Nat) (x : NicCtx) : (s.setNic n x).outbox = s.outbox := rfl
@[simp] theorem State.setNic_free (s : State) (n : Nat) (x : NicCtx) : (s.setNic n x).free = s.free := rfl
@[simp] theorem State.setNic_chain (s : State) (n : Nat) (x : NicCtx) : (s.setNic n x).chain = s.chain := rfl
@[simp] theorem State.setNic_intN (s : State) (n : Nat) (x : NicCtx) : (s.setNic n x).intN = s.intN := rfl
@[simp] theorem State.setNic_pending (s : State) (n : Nat) (x : NicCtx) : (s.setNic n x).pending = s.pending := rfl

/-! ### State.setPcx -/

@[simp] theorem State.setPcx_regs (s : State) (n : Nat) (x : PcieCtx) : (s.setPcx n x).regs = s.regs := rfl
@[simp] theorem State.setPcx_snap (s : State) (n : Nat) (x : PcieCtx) : (s.setPcx n x).snap = s.snap := rfl
@[simp] theorem State.setPcx_life (s : State) (n : Nat) (x : PcieCtx) : (s.setPcx n x).life = s.life := rfl
@[simp] theorem State.setPcx_mode (s : State) (n : Nat) (x : PcieCtx) : (s.setPcx n x).mode = s.mode := rfl
@[simp] theorem State.setPcx_evt (s : State) (n : Nat) (x : PcieCtx) : (s.setPcx n x).evt = s.evt := rfl
@[simp] theorem State.setPcx_gran (s : State) (n : Nat) (x : PcieCtx) : (s.setPcx n x).gran = s.gran := rfl
@[simp] theorem State.setPcx_outbox (s : State) (n : Nat) (x : PcieCtx) : (s.setPcx n x).outbox = s.outbox := rfl
@[simp] theorem State.setPcx_free (s : State) (n : Nat) (x : PcieCtx) : (s.setPcx n x).free = s.free := rfl
@[simp] theorem State.setPcx_chain (s : State) (n : Nat) (x : PcieCtx) : (s.setPcx n x).chain = s.chain := rfl
@[simp] theorem State.setPcx_intN (s : State) (n : Nat) (x : PcieCtx) : (s.setPcx n x).intN = s.intN := rfl
@[simp] theorem State.setPcx_pending (s : State) (n : Nat) (x : PcieCtx) : (s.setPcx n x).pending = s.pending := rfl

/-! ### State.setUfn -/

@[simp] theorem State.setUfn_regs (s : State) (n : Nat) (x : UsbFn) : (s.setUfn n x).regs = s.regs := rfl
@[simp] theorem State.setUfn_snap (s : State) (n : Nat) (x : UsbFn) : (s.setUfn n x).snap = s.snap := rfl
@[simp] theorem State.setUfn_life (s : State) (n : Nat) (x : UsbFn) : (s.setUfn n x).life = s.life := rfl
@[simp] theorem State.setUfn_mode (s : State) (n : Nat) (x : UsbFn) : (s.setUfn n x).mode = s.mode := rfl
@[simp] theorem State.setUfn_evt (s : State) (n : Nat) (x : UsbFn) : (s.setUfn n x).evt = s.evt := rfl
@[simp] theorem State.setUfn_gran (s : State) (n : Nat) (x : UsbFn) : (s.setUfn n x).gran = s.gran := rfl
@[simp] theorem State.setUfn_outbox (s : State) (n : Nat) (x : UsbFn) : (s.setUfn n x).outbox = s.outbox := rfl
@[simp] theorem State.setUfn_free (s : State) (n : Nat) (x : UsbFn) : (s.setUfn n x).free = s.free := rfl
@[simp] theorem State.setUfn_chain (s : State) (n : Nat) (x : UsbFn) : (s.setUfn n x).chain = s.chain := rfl
@[simp] theorem State.setUfn_intN (s : State) (n : Nat) (x : UsbFn) : (s.setUfn n x).intN = s.intN := rfl
@[simp] theorem State.setUfn_pending (s : State) (n : Nat) (x : UsbFn) : (s.setUfn n x).pending = s.pending := rfl

/-! ### State.setVhcCtx -/

@[simp] theorem State.setVhcCtx_regs (s : State) (n : Nat) (x : VhcCtx) : (s.setVhcCtx n x).regs = s.regs := rfl
@[simp] theorem State.setVhcCtx_snap (s : State) (n : Nat) (x : VhcCtx) : (s.setVhcCtx n x).snap = s.snap := rfl
@[simp] theorem State.setVhcCtx_life (s : State) (n : Nat) (x : VhcCtx) : (s.setVhcCtx n x).life = s.life := rfl
@[simp] theorem State.setVhcCtx_mode (s : State) (n : Nat) (x : VhcCtx) : (s.setVhcCtx n x).mode = s.mode := rfl
@[simp] theorem State.setVhcCtx_evt (s : State) (n : Nat) (x : VhcCtx) : (s.setVhcCtx n x).evt = s.evt := rfl
@[simp] theorem State.setVhcCtx_gran (s : State) (n : Nat) (x : VhcCtx) : (s.setVhcCtx n x).gran = s.gran := rfl
@[simp] theorem State.setVhcCtx_outbox (s : State) (n : Nat) (x : VhcCtx) : (s.setVhcCtx n x).outbox = s.outbox := rfl
@[simp] theorem State.setVhcCtx_free (s : State) (n : Nat) (x : VhcCtx) : (s.setVhcCtx n x).free = s.free := rfl
@[simp] theorem State.setVhcCtx_chain (s : State) (n : Nat) (x : VhcCtx) : (s.setVhcCtx n x).chain = s.chain := rfl
@[simp] theorem State.setVhcCtx_intN (s : State) (n : Nat) (x : VhcCtx) : (s.setVhcCtx n x).intN = s.intN := rfl
@[simp] theorem State.setVhcCtx_pending (s : State) (n : Nat) (x : VhcCtx) : (s.setVhcCtx n x).pending = s.pending := rfl

/-! ### State.setSlot -/

@[simp] theorem State.setSlot_regs (s : State) (n : Nat) (x : KeySlot) : (s.setSlot n x).regs = s.regs := rfl
@[simp] theorem State.setSlot_snap (s : State) (n : Nat) (x : KeySlot) : (s.setSlot n x).snap = s.snap := rfl
@[simp] theorem State.setSlot_life (s : State) (n : Nat) (x : KeySlot) : (s.setSlot n x).life = s.life := rfl
@[simp] theorem State.setSlot_mode (s : State) (n : Nat) (x : KeySlot) : (s.setSlot n x).mode = s.mode := rfl
@[simp] theorem State.setSlot_evt (s : State) (n : Nat) (x : KeySlot) : (s.setSlot n x).evt = s.evt := rfl
@[simp] theorem State.setSlot_gran (s : State) (n : Nat) (x : KeySlot) : (s.setSlot n x).gran = s.gran := rfl
@[simp] theorem State.setSlot_outbox (s : State) (n : Nat) (x : KeySlot) : (s.setSlot n x).outbox = s.outbox := rfl
@[simp] theorem State.setSlot_free (s : State) (n : Nat) (x : KeySlot) : (s.setSlot n x).free = s.free := rfl
@[simp] theorem State.setSlot_chain (s : State) (n : Nat) (x : KeySlot) : (s.setSlot n x).chain = s.chain := rfl
@[simp] theorem State.setSlot_intN (s : State) (n : Nat) (x : KeySlot) : (s.setSlot n x).intN = s.intN := rfl
@[simp] theorem State.setSlot_pending (s : State) (n : Nat) (x : KeySlot) : (s.setSlot n x).pending = s.pending := rfl

/-! ### State.setMsgs -/

@[simp] theorem State.setMsgs_regs (s : State) (l : List GenMsg) : (s.setMsgs l).regs = s.regs := rfl
@[simp] theorem State.setMsgs_snap (s : State) (l : List GenMsg) : (s.setMsgs l).snap = s.snap := rfl
@[simp] theorem State.setMsgs_life (s : State) (l : List GenMsg) : (s.setMsgs l).life = s.life := rfl
@[simp] theorem State.setMsgs_mode (s : State) (l : List GenMsg) : (s.setMsgs l).mode = s.mode := rfl
@[simp] theorem State.setMsgs_evt (s : State) (l : List GenMsg) : (s.setMsgs l).evt = s.evt := rfl
@[simp] theorem State.setMsgs_gran (s : State) (l : List GenMsg) : (s.setMsgs l).gran = s.gran := rfl
@[simp] theorem State.setMsgs_outbox (s : State) (l : List GenMsg) : (s.setMsgs l).outbox = s.outbox := rfl
@[simp] theorem State.setMsgs_free (s : State) (l : List GenMsg) : (s.setMsgs l).free = s.free := rfl
@[simp] theorem State.setMsgs_chain (s : State) (l : List GenMsg) : (s.setMsgs l).chain = s.chain := rfl
@[simp] theorem State.setMsgs_intN (s : State) (l : List GenMsg) : (s.setMsgs l).intN = s.intN := rfl
@[simp] theorem State.setMsgs_pending (s : State) (l : List GenMsg) : (s.setMsgs l).pending = s.pending := rfl

/-! ### State.setQuota -/

@[simp] theorem State.setQuota_regs (s : State) (v q : Nat) : (s.setQuota v q).regs = s.regs := rfl
@[simp] theorem State.setQuota_snap (s : State) (v q : Nat) : (s.setQuota v q).snap = s.snap := rfl
@[simp] theorem State.setQuota_life (s : State) (v q : Nat) : (s.setQuota v q).life = s.life := rfl
@[simp] theorem State.setQuota_mode (s : State) (v q : Nat) : (s.setQuota v q).mode = s.mode := rfl
@[simp] theorem State.setQuota_evt (s : State) (v q : Nat) : (s.setQuota v q).evt = s.evt := rfl
@[simp] theorem State.setQuota_gran (s : State) (v q : Nat) : (s.setQuota v q).gran = s.gran := rfl
@[simp] theorem State.setQuota_outbox (s : State) (v q : Nat) : (s.setQuota v q).outbox = s.outbox := rfl
@[simp] theorem State.setQuota_free (s : State) (v q : Nat) : (s.setQuota v q).free = s.free := rfl
@[simp] theorem State.setQuota_chain (s : State) (v q : Nat) : (s.setQuota v q).chain = s.chain := rfl
@[simp] theorem State.setQuota_intN (s : State) (v q : Nat) : (s.setQuota v q).intN = s.intN := rfl
@[simp] theorem State.setQuota_pending (s : State) (v q : Nat) : (s.setQuota v q).pending = s.pending := rfl

/-! ### State.setDslot -/

@[simp] theorem State.setDslot_regs (s : State) (n : Nat) (x : Slot) : (s.setDslot n x).regs = s.regs := rfl
@[simp] theorem State.setDslot_snap (s : State) (n : Nat) (x : Slot) : (s.setDslot n x).snap = s.snap := rfl
@[simp] theorem State.setDslot_life (s : State) (n : Nat) (x : Slot) : (s.setDslot n x).life = s.life := rfl
@[simp] theorem State.setDslot_mode (s : State) (n : Nat) (x : Slot) : (s.setDslot n x).mode = s.mode := rfl
@[simp] theorem State.setDslot_evt (s : State) (n : Nat) (x : Slot) : (s.setDslot n x).evt = s.evt := rfl
@[simp] theorem State.setDslot_gran (s : State) (n : Nat) (x : Slot) : (s.setDslot n x).gran = s.gran := rfl
@[simp] theorem State.setDslot_outbox (s : State) (n : Nat) (x : Slot) : (s.setDslot n x).outbox = s.outbox := rfl
@[simp] theorem State.setDslot_free (s : State) (n : Nat) (x : Slot) : (s.setDslot n x).free = s.free := rfl
@[simp] theorem State.setDslot_chain (s : State) (n : Nat) (x : Slot) : (s.setDslot n x).chain = s.chain := rfl
@[simp] theorem State.setDslot_intN (s : State) (n : Nat) (x : Slot) : (s.setDslot n x).intN = s.intN := rfl
@[simp] theorem State.setDslot_pending (s : State) (n : Nat) (x : Slot) : (s.setDslot n x).pending = s.pending := rfl

/-! ### State.setTun -/

@[simp] theorem State.setTun_regs (s : State) (n : Nat) (x : TunEnt) : (s.setTun n x).regs = s.regs := rfl
@[simp] theorem State.setTun_snap (s : State) (n : Nat) (x : TunEnt) : (s.setTun n x).snap = s.snap := rfl
@[simp] theorem State.setTun_life (s : State) (n : Nat) (x : TunEnt) : (s.setTun n x).life = s.life := rfl
@[simp] theorem State.setTun_mode (s : State) (n : Nat) (x : TunEnt) : (s.setTun n x).mode = s.mode := rfl
@[simp] theorem State.setTun_evt (s : State) (n : Nat) (x : TunEnt) : (s.setTun n x).evt = s.evt := rfl
@[simp] theorem State.setTun_gran (s : State) (n : Nat) (x : TunEnt) : (s.setTun n x).gran = s.gran := rfl
@[simp] theorem State.setTun_outbox (s : State) (n : Nat) (x : TunEnt) : (s.setTun n x).outbox = s.outbox := rfl
@[simp] theorem State.setTun_free (s : State) (n : Nat) (x : TunEnt) : (s.setTun n x).free = s.free := rfl
@[simp] theorem State.setTun_chain (s : State) (n : Nat) (x : TunEnt) : (s.setTun n x).chain = s.chain := rfl
@[simp] theorem State.setTun_intN (s : State) (n : Nat) (x : TunEnt) : (s.setTun n x).intN = s.intN := rfl
@[simp] theorem State.setTun_pending (s : State) (n : Nat) (x : TunEnt) : (s.setTun n x).pending = s.pending := rfl

/-! ### State.setOp -/

@[simp] theorem State.setOp_regs (s : State) (x : Option TunOp) : (s.setOp x).regs = s.regs := rfl
@[simp] theorem State.setOp_snap (s : State) (x : Option TunOp) : (s.setOp x).snap = s.snap := rfl
@[simp] theorem State.setOp_life (s : State) (x : Option TunOp) : (s.setOp x).life = s.life := rfl
@[simp] theorem State.setOp_mode (s : State) (x : Option TunOp) : (s.setOp x).mode = s.mode := rfl
@[simp] theorem State.setOp_evt (s : State) (x : Option TunOp) : (s.setOp x).evt = s.evt := rfl
@[simp] theorem State.setOp_gran (s : State) (x : Option TunOp) : (s.setOp x).gran = s.gran := rfl
@[simp] theorem State.setOp_outbox (s : State) (x : Option TunOp) : (s.setOp x).outbox = s.outbox := rfl
@[simp] theorem State.setOp_free (s : State) (x : Option TunOp) : (s.setOp x).free = s.free := rfl
@[simp] theorem State.setOp_chain (s : State) (x : Option TunOp) : (s.setOp x).chain = s.chain := rfl
@[simp] theorem State.setOp_intN (s : State) (x : Option TunOp) : (s.setOp x).intN = s.intN := rfl
@[simp] theorem State.setOp_pending (s : State) (x : Option TunOp) : (s.setOp x).pending = s.pending := rfl

/-! ### State.setRsq -/

@[simp] theorem State.setRsq_regs (s : State) (n : Nat) (x : Rsq) : (s.setRsq n x).regs = s.regs := rfl
@[simp] theorem State.setRsq_snap (s : State) (n : Nat) (x : Rsq) : (s.setRsq n x).snap = s.snap := rfl
@[simp] theorem State.setRsq_life (s : State) (n : Nat) (x : Rsq) : (s.setRsq n x).life = s.life := rfl
@[simp] theorem State.setRsq_mode (s : State) (n : Nat) (x : Rsq) : (s.setRsq n x).mode = s.mode := rfl
@[simp] theorem State.setRsq_evt (s : State) (n : Nat) (x : Rsq) : (s.setRsq n x).evt = s.evt := rfl
@[simp] theorem State.setRsq_outbox (s : State) (n : Nat) (x : Rsq) : (s.setRsq n x).outbox = s.outbox := rfl
@[simp] theorem State.setRsq_free (s : State) (n : Nat) (x : Rsq) : (s.setRsq n x).free = s.free := rfl
@[simp] theorem State.setRsq_chain (s : State) (n : Nat) (x : Rsq) : (s.setRsq n x).chain = s.chain := rfl
@[simp] theorem State.setRsq_intN (s : State) (n : Nat) (x : Rsq) : (s.setRsq n x).intN = s.intN := rfl
@[simp] theorem State.setRsq_pending (s : State) (n : Nat) (x : Rsq) : (s.setRsq n x).pending = s.pending := rfl

/-! ### State.setPr -/

@[simp] theorem State.setPr_regs (s : State) (n : Nat) (x : PrCtx) : (s.setPr n x).regs = s.regs := rfl
@[simp] theorem State.setPr_snap (s : State) (n : Nat) (x : PrCtx) : (s.setPr n x).snap = s.snap := rfl
@[simp] theorem State.setPr_life (s : State) (n : Nat) (x : PrCtx) : (s.setPr n x).life = s.life := rfl
@[simp] theorem State.setPr_mode (s : State) (n : Nat) (x : PrCtx) : (s.setPr n x).mode = s.mode := rfl
@[simp] theorem State.setPr_evt (s : State) (n : Nat) (x : PrCtx) : (s.setPr n x).evt = s.evt := rfl
@[simp] theorem State.setPr_gran (s : State) (n : Nat) (x : PrCtx) : (s.setPr n x).gran = s.gran := rfl
@[simp] theorem State.setPr_outbox (s : State) (n : Nat) (x : PrCtx) : (s.setPr n x).outbox = s.outbox := rfl
@[simp] theorem State.setPr_free (s : State) (n : Nat) (x : PrCtx) : (s.setPr n x).free = s.free := rfl
@[simp] theorem State.setPr_chain (s : State) (n : Nat) (x : PrCtx) : (s.setPr n x).chain = s.chain := rfl
@[simp] theorem State.setPr_intN (s : State) (n : Nat) (x : PrCtx) : (s.setPr n x).intN = s.intN := rfl
@[simp] theorem State.setPr_pending (s : State) (n : Nat) (x : PrCtx) : (s.setPr n x).pending = s.pending := rfl

/-! ### State.setTrunk -/

@[simp] theorem State.setTrunk_regs (s : State) (p : Port) (x : Trunk) : (s.setTrunk p x).regs = s.regs := by cases p <;> rfl
@[simp] theorem State.setTrunk_snap (s : State) (p : Port) (x : Trunk) : (s.setTrunk p x).snap = s.snap := by cases p <;> rfl
@[simp] theorem State.setTrunk_mode (s : State) (p : Port) (x : Trunk) : (s.setTrunk p x).mode = s.mode := by cases p <;> rfl
@[simp] theorem State.setTrunk_compat (s : State) (p : Port) (x : Trunk) : (s.setTrunk p x).compat = s.compat := by cases p <;> rfl
@[simp] theorem State.setTrunk_refsel (s : State) (p : Port) (x : Trunk) : (s.setTrunk p x).refsel = s.refsel := by cases p <;> rfl
@[simp] theorem State.setTrunk_life (s : State) (p : Port) (x : Trunk) : (s.setTrunk p x).life = s.life := by cases p <;> rfl
@[simp] theorem State.setTrunk_now (s : State) (p : Port) (x : Trunk) : (s.setTrunk p x).now = s.now := by cases p <;> rfl
@[simp] theorem State.setTrunk_free (s : State) (p : Port) (x : Trunk) : (s.setTrunk p x).free = s.free := by cases p <;> rfl
@[simp] theorem State.setTrunk_evt (s : State) (p : Port) (x : Trunk) : (s.setTrunk p x).evt = s.evt := by cases p <;> rfl
@[simp] theorem State.setTrunk_lu (s : State) (p : Port) (x : Trunk) : (s.setTrunk p x).lu = s.lu := by cases p <;> rfl
@[simp] theorem State.setTrunk_ld (s : State) (p : Port) (x : Trunk) : (s.setTrunk p x).ld = s.ld := by cases p <;> rfl
@[simp] theorem State.setTrunk_gran (s : State) (p : Port) (x : Trunk) : (s.setTrunk p x).gran = s.gran := by cases p <;> rfl
@[simp] theorem State.setTrunk_chain (s : State) (p : Port) (x : Trunk) : (s.setTrunk p x).chain = s.chain := by cases p <;> rfl
@[simp] theorem State.setTrunk_sched (s : State) (p : Port) (x : Trunk) : (s.setTrunk p x).sched = s.sched := by cases p <;> rfl
@[simp] theorem State.setTrunk_xbr (s : State) (p : Port) (x : Trunk) : (s.setTrunk p x).xbr = s.xbr := by cases p <;> rfl
@[simp] theorem State.setTrunk_vhg (s : State) (p : Port) (x : Trunk) : (s.setTrunk p x).vhg = s.vhg := by cases p <;> rfl
@[simp] theorem State.setTrunk_prof (s : State) (p : Port) (x : Trunk) : (s.setTrunk p x).prof = s.prof := by cases p <;> rfl
@[simp] theorem State.setTrunk_larder (s : State) (p : Port) (x : Trunk) : (s.setTrunk p x).larder = s.larder := by cases p <;> rfl
@[simp] theorem State.setTrunk_update (s : State) (p : Port) (x : Trunk) : (s.setTrunk p x).update = s.update := by cases p <;> rfl
@[simp] theorem State.setTrunk_fns (s : State) (p : Port) (x : Trunk) : (s.setTrunk p x).fns = s.fns := by cases p <;> rfl
@[simp] theorem State.setTrunk_disp (s : State) (p : Port) (x : Trunk) : (s.setTrunk p x).disp = s.disp := by cases p <;> rfl
@[simp] theorem State.setTrunk_enc (s : State) (p : Port) (x : Trunk) : (s.setTrunk p x).enc = s.enc := by cases p <;> rfl
@[simp] theorem State.setTrunk_tcs (s : State) (p : Port) (x : Trunk) : (s.setTrunk p x).tcs = s.tcs := by cases p <;> rfl
@[simp] theorem State.setTrunk_usb (s : State) (p : Port) (x : Trunk) : (s.setTrunk p x).usb = s.usb := by cases p <;> rfl
@[simp] theorem State.setTrunk_svc (s : State) (p : Port) (x : Trunk) : (s.setTrunk p x).svc = s.svc := by cases p <;> rfl
@[simp] theorem State.setTrunk_eth (s : State) (p : Port) (x : Trunk) : (s.setTrunk p x).eth = s.eth := by cases p <;> rfl
@[simp] theorem State.setTrunk_nic (s : State) (p : Port) (x : Trunk) : (s.setTrunk p x).nic = s.nic := by cases p <;> rfl
@[simp] theorem State.setTrunk_pcie (s : State) (p : Port) (x : Trunk) : (s.setTrunk p x).pcie = s.pcie := by cases p <;> rfl
@[simp] theorem State.setTrunk_pw (s : State) (p : Port) (x : Trunk) : (s.setTrunk p x).pw = s.pw := by cases p <;> rfl
@[simp] theorem State.setTrunk_eng (s : State) (p : Port) (x : Trunk) : (s.setTrunk p x).eng = s.eng := by cases p <;> rfl
@[simp] theorem State.setTrunk_pm (s : State) (p : Port) (x : Trunk) : (s.setTrunk p x).pm = s.pm := by cases p <;> rfl
@[simp] theorem State.setTrunk_tmr (s : State) (p : Port) (x : Trunk) : (s.setTrunk p x).tmr = s.tmr := by cases p <;> rfl
@[simp] theorem State.setTrunk_intN (s : State) (p : Port) (x : Trunk) : (s.setTrunk p x).intN = s.intN := by cases p <;> rfl
@[simp] theorem State.setTrunk_outbox (s : State) (p : Port) (x : Trunk) : (s.setTrunk p x).outbox = s.outbox := by cases p <;> rfl
@[simp] theorem State.setTrunk_pending (s : State) (p : Port) (x : Trunk) : (s.setTrunk p x).pending = s.pending := by cases p <;> rfl

/-! ### State.setLink -/

@[simp] theorem State.setLink_regs (s : State) (p : Port) (x : Link) : (s.setLink p x).regs = s.regs := by cases p <;> rfl
@[simp] theorem State.setLink_snap (s : State) (p : Port) (x : Link) : (s.setLink p x).snap = s.snap := by cases p <;> rfl
@[simp] theorem State.setLink_mode (s : State) (p : Port) (x : Link) : (s.setLink p x).mode = s.mode := by cases p <;> rfl
@[simp] theorem State.setLink_compat (s : State) (p : Port) (x : Link) : (s.setLink p x).compat = s.compat := by cases p <;> rfl
@[simp] theorem State.setLink_refsel (s : State) (p : Port) (x : Link) : (s.setLink p x).refsel = s.refsel := by cases p <;> rfl
@[simp] theorem State.setLink_life (s : State) (p : Port) (x : Link) : (s.setLink p x).life = s.life := by cases p <;> rfl
@[simp] theorem State.setLink_now (s : State) (p : Port) (x : Link) : (s.setLink p x).now = s.now := by cases p <;> rfl
@[simp] theorem State.setLink_free (s : State) (p : Port) (x : Link) : (s.setLink p x).free = s.free := by cases p <;> rfl
@[simp] theorem State.setLink_evt (s : State) (p : Port) (x : Link) : (s.setLink p x).evt = s.evt := by cases p <;> rfl
@[simp] theorem State.setLink_tu (s : State) (p : Port) (x : Link) : (s.setLink p x).tu = s.tu := by cases p <;> rfl
@[simp] theorem State.setLink_td (s : State) (p : Port) (x : Link) : (s.setLink p x).td = s.td := by cases p <;> rfl
@[simp] theorem State.setLink_gran (s : State) (p : Port) (x : Link) : (s.setLink p x).gran = s.gran := by cases p <;> rfl
@[simp] theorem State.setLink_chain (s : State) (p : Port) (x : Link) : (s.setLink p x).chain = s.chain := by cases p <;> rfl
@[simp] theorem State.setLink_sched (s : State) (p : Port) (x : Link) : (s.setLink p x).sched = s.sched := by cases p <;> rfl
@[simp] theorem State.setLink_xbr (s : State) (p : Port) (x : Link) : (s.setLink p x).xbr = s.xbr := by cases p <;> rfl
@[simp] theorem State.setLink_vhg (s : State) (p : Port) (x : Link) : (s.setLink p x).vhg = s.vhg := by cases p <;> rfl
@[simp] theorem State.setLink_prof (s : State) (p : Port) (x : Link) : (s.setLink p x).prof = s.prof := by cases p <;> rfl
@[simp] theorem State.setLink_larder (s : State) (p : Port) (x : Link) : (s.setLink p x).larder = s.larder := by cases p <;> rfl
@[simp] theorem State.setLink_update (s : State) (p : Port) (x : Link) : (s.setLink p x).update = s.update := by cases p <;> rfl
@[simp] theorem State.setLink_fns (s : State) (p : Port) (x : Link) : (s.setLink p x).fns = s.fns := by cases p <;> rfl
@[simp] theorem State.setLink_disp (s : State) (p : Port) (x : Link) : (s.setLink p x).disp = s.disp := by cases p <;> rfl
@[simp] theorem State.setLink_enc (s : State) (p : Port) (x : Link) : (s.setLink p x).enc = s.enc := by cases p <;> rfl
@[simp] theorem State.setLink_tcs (s : State) (p : Port) (x : Link) : (s.setLink p x).tcs = s.tcs := by cases p <;> rfl
@[simp] theorem State.setLink_usb (s : State) (p : Port) (x : Link) : (s.setLink p x).usb = s.usb := by cases p <;> rfl
@[simp] theorem State.setLink_svc (s : State) (p : Port) (x : Link) : (s.setLink p x).svc = s.svc := by cases p <;> rfl
@[simp] theorem State.setLink_eth (s : State) (p : Port) (x : Link) : (s.setLink p x).eth = s.eth := by cases p <;> rfl
@[simp] theorem State.setLink_nic (s : State) (p : Port) (x : Link) : (s.setLink p x).nic = s.nic := by cases p <;> rfl
@[simp] theorem State.setLink_pcie (s : State) (p : Port) (x : Link) : (s.setLink p x).pcie = s.pcie := by cases p <;> rfl
@[simp] theorem State.setLink_pw (s : State) (p : Port) (x : Link) : (s.setLink p x).pw = s.pw := by cases p <;> rfl
@[simp] theorem State.setLink_eng (s : State) (p : Port) (x : Link) : (s.setLink p x).eng = s.eng := by cases p <;> rfl
@[simp] theorem State.setLink_pm (s : State) (p : Port) (x : Link) : (s.setLink p x).pm = s.pm := by cases p <;> rfl
@[simp] theorem State.setLink_tmr (s : State) (p : Port) (x : Link) : (s.setLink p x).tmr = s.tmr := by cases p <;> rfl
@[simp] theorem State.setLink_intN (s : State) (p : Port) (x : Link) : (s.setLink p x).intN = s.intN := by cases p <;> rfl
@[simp] theorem State.setLink_outbox (s : State) (p : Port) (x : Link) : (s.setLink p x).outbox = s.outbox := by cases p <;> rfl
@[simp] theorem State.setLink_pending (s : State) (p : Port) (x : Link) : (s.setLink p x).pending = s.pending := by cases p <;> rfl

/-! ### State.setHeadChain -/

@[simp] theorem State.setHeadChain_regs (s : State) (c : Nat) (x : HeadChain) : (s.setHeadChain c x).regs = s.regs := by unfold State.setHeadChain; split <;> rfl
@[simp] theorem State.setHeadChain_snap (s : State) (c : Nat) (x : HeadChain) : (s.setHeadChain c x).snap = s.snap := by unfold State.setHeadChain; split <;> rfl
@[simp] theorem State.setHeadChain_mode (s : State) (c : Nat) (x : HeadChain) : (s.setHeadChain c x).mode = s.mode := by unfold State.setHeadChain; split <;> rfl
@[simp] theorem State.setHeadChain_compat (s : State) (c : Nat) (x : HeadChain) : (s.setHeadChain c x).compat = s.compat := by unfold State.setHeadChain; split <;> rfl
@[simp] theorem State.setHeadChain_refsel (s : State) (c : Nat) (x : HeadChain) : (s.setHeadChain c x).refsel = s.refsel := by unfold State.setHeadChain; split <;> rfl
@[simp] theorem State.setHeadChain_life (s : State) (c : Nat) (x : HeadChain) : (s.setHeadChain c x).life = s.life := by unfold State.setHeadChain; split <;> rfl
@[simp] theorem State.setHeadChain_now (s : State) (c : Nat) (x : HeadChain) : (s.setHeadChain c x).now = s.now := by unfold State.setHeadChain; split <;> rfl
@[simp] theorem State.setHeadChain_free (s : State) (c : Nat) (x : HeadChain) : (s.setHeadChain c x).free = s.free := by unfold State.setHeadChain; split <;> rfl
@[simp] theorem State.setHeadChain_evt (s : State) (c : Nat) (x : HeadChain) : (s.setHeadChain c x).evt = s.evt := by unfold State.setHeadChain; split <;> rfl
@[simp] theorem State.setHeadChain_tu (s : State) (c : Nat) (x : HeadChain) : (s.setHeadChain c x).tu = s.tu := by unfold State.setHeadChain; split <;> rfl
@[simp] theorem State.setHeadChain_td (s : State) (c : Nat) (x : HeadChain) : (s.setHeadChain c x).td = s.td := by unfold State.setHeadChain; split <;> rfl
@[simp] theorem State.setHeadChain_lu (s : State) (c : Nat) (x : HeadChain) : (s.setHeadChain c x).lu = s.lu := by unfold State.setHeadChain; split <;> rfl
@[simp] theorem State.setHeadChain_ld (s : State) (c : Nat) (x : HeadChain) : (s.setHeadChain c x).ld = s.ld := by unfold State.setHeadChain; split <;> rfl
@[simp] theorem State.setHeadChain_gran (s : State) (c : Nat) (x : HeadChain) : (s.setHeadChain c x).gran = s.gran := by unfold State.setHeadChain; split <;> rfl
@[simp] theorem State.setHeadChain_sched (s : State) (c : Nat) (x : HeadChain) : (s.setHeadChain c x).sched = s.sched := by unfold State.setHeadChain; split <;> rfl
@[simp] theorem State.setHeadChain_xbr (s : State) (c : Nat) (x : HeadChain) : (s.setHeadChain c x).xbr = s.xbr := by unfold State.setHeadChain; split <;> rfl
@[simp] theorem State.setHeadChain_vhg (s : State) (c : Nat) (x : HeadChain) : (s.setHeadChain c x).vhg = s.vhg := by unfold State.setHeadChain; split <;> rfl
@[simp] theorem State.setHeadChain_prof (s : State) (c : Nat) (x : HeadChain) : (s.setHeadChain c x).prof = s.prof := by unfold State.setHeadChain; split <;> rfl
@[simp] theorem State.setHeadChain_larder (s : State) (c : Nat) (x : HeadChain) : (s.setHeadChain c x).larder = s.larder := by unfold State.setHeadChain; split <;> rfl
@[simp] theorem State.setHeadChain_update (s : State) (c : Nat) (x : HeadChain) : (s.setHeadChain c x).update = s.update := by unfold State.setHeadChain; split <;> rfl
@[simp] theorem State.setHeadChain_fns (s : State) (c : Nat) (x : HeadChain) : (s.setHeadChain c x).fns = s.fns := by unfold State.setHeadChain; split <;> rfl
@[simp] theorem State.setHeadChain_disp (s : State) (c : Nat) (x : HeadChain) : (s.setHeadChain c x).disp = s.disp := by unfold State.setHeadChain; split <;> rfl
@[simp] theorem State.setHeadChain_enc (s : State) (c : Nat) (x : HeadChain) : (s.setHeadChain c x).enc = s.enc := by unfold State.setHeadChain; split <;> rfl
@[simp] theorem State.setHeadChain_tcs (s : State) (c : Nat) (x : HeadChain) : (s.setHeadChain c x).tcs = s.tcs := by unfold State.setHeadChain; split <;> rfl
@[simp] theorem State.setHeadChain_usb (s : State) (c : Nat) (x : HeadChain) : (s.setHeadChain c x).usb = s.usb := by unfold State.setHeadChain; split <;> rfl
@[simp] theorem State.setHeadChain_svc (s : State) (c : Nat) (x : HeadChain) : (s.setHeadChain c x).svc = s.svc := by unfold State.setHeadChain; split <;> rfl
@[simp] theorem State.setHeadChain_eth (s : State) (c : Nat) (x : HeadChain) : (s.setHeadChain c x).eth = s.eth := by unfold State.setHeadChain; split <;> rfl
@[simp] theorem State.setHeadChain_nic (s : State) (c : Nat) (x : HeadChain) : (s.setHeadChain c x).nic = s.nic := by unfold State.setHeadChain; split <;> rfl
@[simp] theorem State.setHeadChain_pcie (s : State) (c : Nat) (x : HeadChain) : (s.setHeadChain c x).pcie = s.pcie := by unfold State.setHeadChain; split <;> rfl
@[simp] theorem State.setHeadChain_pw (s : State) (c : Nat) (x : HeadChain) : (s.setHeadChain c x).pw = s.pw := by unfold State.setHeadChain; split <;> rfl
@[simp] theorem State.setHeadChain_eng (s : State) (c : Nat) (x : HeadChain) : (s.setHeadChain c x).eng = s.eng := by unfold State.setHeadChain; split <;> rfl
@[simp] theorem State.setHeadChain_pm (s : State) (c : Nat) (x : HeadChain) : (s.setHeadChain c x).pm = s.pm := by unfold State.setHeadChain; split <;> rfl
@[simp] theorem State.setHeadChain_tmr (s : State) (c : Nat) (x : HeadChain) : (s.setHeadChain c x).tmr = s.tmr := by unfold State.setHeadChain; split <;> rfl
@[simp] theorem State.setHeadChain_intN (s : State) (c : Nat) (x : HeadChain) : (s.setHeadChain c x).intN = s.intN := by unfold State.setHeadChain; split <;> rfl
@[simp] theorem State.setHeadChain_outbox (s : State) (c : Nat) (x : HeadChain) : (s.setHeadChain c x).outbox = s.outbox := by unfold State.setHeadChain; split <;> rfl
@[simp] theorem State.setHeadChain_pending (s : State) (c : Nat) (x : HeadChain) : (s.setHeadChain c x).pending = s.pending := by unfold State.setHeadChain; split <;> rfl

@[simp] theorem State.trunk_setTrunk (s : State) (p : Port) (x : Trunk) : (s.setTrunk p x).trunk p = x := by cases p <;> rfl
@[simp] theorem State.link_setLink (s : State) (p : Port) (x : Link) : (s.setLink p x).link p = x := by cases p <;> rfl
@[simp] theorem State.link_setTrunk (s : State) (p q : Port) (x : Trunk) : (s.setTrunk p x).link q = s.link q := by cases p <;> cases q <;> rfl
@[simp] theorem State.trunk_setLink (s : State) (p q : Port) (x : Link) : (s.setLink p x).trunk q = s.trunk q := by cases p <;> cases q <;> rfl
@[simp] theorem State.headChain_setHeadChain (s : State) (c : Nat) (x : HeadChain) : (s.setHeadChain c x).headChain c = x := by
  unfold State.setHeadChain State.headChain; split <;> rfl

/-! ### Registers are what `regs` holds -/

@[simp] theorem State.rd_emit (s : State) (o : Output) (pg : Nat) (g : Fld) : (s.emit o).rd pg g = s.rd pg g := rfl
@[simp] theorem State.on_emit (s : State) (o : Output) (pg : Nat) (g : Fld) : (s.emit o).on pg g = s.on pg g := rfl
@[simp] theorem State.rd_freshen (s : State) (p : Nat) (pg : Nat) (g : Fld) : (s.freshen p).rd pg g = s.rd pg g := rfl
@[simp] theorem State.on_freshen (s : State) (p : Nat) (pg : Nat) (g : Fld) : (s.freshen p).on pg g = s.on pg g := rfl
@[simp] theorem State.rd_setDh (s : State) (n : Nat) (x : DispHead) (pg : Nat) (g : Fld) : (s.setDh n x).rd pg g = s.rd pg g := rfl
@[simp] theorem State.on_setDh (s : State) (n : Nat) (x : DispHead) (pg : Nat) (g : Fld) : (s.setDh n x).on pg g = s.on pg g := rfl
@[simp] theorem State.rd_setTc (s : State) (n : Nat) (x : TcCtx) (pg : Nat) (g : Fld) : (s.setTc n x).rd pg g = s.rd pg g := rfl
@[simp] theorem State.on_setTc (s : State) (n : Nat) (x : TcCtx) (pg : Nat) (g : Fld) : (s.setTc n x).on pg g = s.on pg g := rfl
@[simp] theorem State.rd_setEth (s : State) (n : Nat) (x : EthCtx) (pg : Nat) (g : Fld) : (s.setEth n x).rd pg g = s.rd pg g := rfl
@[simp] theorem State.on_setEth (s : State) (n : Nat) (x : EthCtx) (pg : Nat) (g : Fld) : (s.setEth n x).on pg g = s.on pg g := rfl
@[simp] theorem State.rd_setNic (s : State) (n : Nat) (x : NicCtx) (pg : Nat) (g : Fld) : (s.setNic n x).rd pg g = s.rd pg g := rfl
@[simp] theorem State.on_setNic (s : State) (n : Nat) (x : NicCtx) (pg : Nat) (g : Fld) : (s.setNic n x).on pg g = s.on pg g := rfl
@[simp] theorem State.rd_setPcx (s : State) (n : Nat) (x : PcieCtx) (pg : Nat) (g : Fld) : (s.setPcx n x).rd pg g = s.rd pg g := rfl
@[simp] theorem State.on_setPcx (s : State) (n : Nat) (x : PcieCtx) (pg : Nat) (g : Fld) : (s.setPcx n x).on pg g = s.on pg g := rfl
@[simp] theorem State.rd_setUfn (s : State) (n : Nat) (x : UsbFn) (pg : Nat) (g : Fld) : (s.setUfn n x).rd pg g = s.rd pg g := rfl
@[simp] theorem State.on_setUfn (s : State) (n : Nat) (x : UsbFn) (pg : Nat) (g : Fld) : (s.setUfn n x).on pg g = s.on pg g := rfl
@[simp] theorem State.rd_setVhcCtx (s : State) (n : Nat) (x : VhcCtx) (pg : Nat) (g : Fld) : (s.setVhcCtx n x).rd pg g = s.rd pg g := rfl
@[simp] theorem State.on_setVhcCtx (s : State) (n : Nat) (x : VhcCtx) (pg : Nat) (g : Fld) : (s.setVhcCtx n x).on pg g = s.on pg g := rfl
@[simp] theorem State.rd_setSlot (s : State) (n : Nat) (x : KeySlot) (pg : Nat) (g : Fld) : (s.setSlot n x).rd pg g = s.rd pg g := rfl
@[simp] theorem State.on_setSlot (s : State) (n : Nat) (x : KeySlot) (pg : Nat) (g : Fld) : (s.setSlot n x).on pg g = s.on pg g := rfl
@[simp] theorem State.rd_setMsgs (s : State) (l : List GenMsg) (pg : Nat) (g : Fld) : (s.setMsgs l).rd pg g = s.rd pg g := rfl
@[simp] theorem State.on_setMsgs (s : State) (l : List GenMsg) (pg : Nat) (g : Fld) : (s.setMsgs l).on pg g = s.on pg g := rfl
@[simp] theorem State.rd_setQuota (s : State) (v q : Nat) (pg : Nat) (g : Fld) : (s.setQuota v q).rd pg g = s.rd pg g := rfl
@[simp] theorem State.on_setQuota (s : State) (v q : Nat) (pg : Nat) (g : Fld) : (s.setQuota v q).on pg g = s.on pg g := rfl
@[simp] theorem State.rd_setDslot (s : State) (n : Nat) (x : Slot) (pg : Nat) (g : Fld) : (s.setDslot n x).rd pg g = s.rd pg g := rfl
@[simp] theorem State.on_setDslot (s : State) (n : Nat) (x : Slot) (pg : Nat) (g : Fld) : (s.setDslot n x).on pg g = s.on pg g := rfl
@[simp] theorem State.rd_setTun (s : State) (n : Nat) (x : TunEnt) (pg : Nat) (g : Fld) : (s.setTun n x).rd pg g = s.rd pg g := rfl
@[simp] theorem State.on_setTun (s : State) (n : Nat) (x : TunEnt) (pg : Nat) (g : Fld) : (s.setTun n x).on pg g = s.on pg g := rfl
@[simp] theorem State.rd_setOp (s : State) (x : Option TunOp) (pg : Nat) (g : Fld) : (s.setOp x).rd pg g = s.rd pg g := rfl
@[simp] theorem State.on_setOp (s : State) (x : Option TunOp) (pg : Nat) (g : Fld) : (s.setOp x).on pg g = s.on pg g := rfl
@[simp] theorem State.rd_setRsq (s : State) (n : Nat) (x : Rsq) (pg : Nat) (g : Fld) : (s.setRsq n x).rd pg g = s.rd pg g := rfl
@[simp] theorem State.on_setRsq (s : State) (n : Nat) (x : Rsq) (pg : Nat) (g : Fld) : (s.setRsq n x).on pg g = s.on pg g := rfl
@[simp] theorem State.rd_setPr (s : State) (n : Nat) (x : PrCtx) (pg : Nat) (g : Fld) : (s.setPr n x).rd pg g = s.rd pg g := rfl
@[simp] theorem State.on_setPr (s : State) (n : Nat) (x : PrCtx) (pg : Nat) (g : Fld) : (s.setPr n x).on pg g = s.on pg g := rfl

@[simp] theorem State.setRaw_hold (s : State) (p n : Nat) : (s.setRaw p n).evt.hold = s.evt.hold := rfl
@[simp] theorem State.setRaw_due (s : State) (p n : Nat) : (s.setRaw p n).evt.due = s.evt.due := rfl
@[simp] theorem State.emit_outbox (s : State) (o : Output) : (s.emit o).outbox = s.outbox ++ [o] := rfl

/-- A read sees nothing but the registers. -/
theorem State.rd_regs (s t : State) (h : t.regs = s.regs) (p : Nat) (f : Fld) : t.rd p f = s.rd p f := by simp [State.rd, h]

/-! ### State.capture and State.raise -/

@[simp] theorem State.capture_snap (s : State) (p : Nat) (e : Ev) (c : Sev) (x : Ctx) : (s.capture p e c x).snap = s.snap := by
  unfold State.capture; split <;> split <;> (try split) <;> rfl
@[simp] theorem State.capture_mode (s : State) (p : Nat) (e : Ev) (c : Sev) (x : Ctx) : (s.capture p e c x).mode = s.mode := by
  unfold State.capture; split <;> split <;> (try split) <;> rfl
@[simp] theorem State.capture_compat (s : State) (p : Nat) (e : Ev) (c : Sev) (x : Ctx) : (s.capture p e c x).compat = s.compat := by
  unfold State.capture; split <;> split <;> (try split) <;> rfl
@[simp] theorem State.capture_refsel (s : State) (p : Nat) (e : Ev) (c : Sev) (x : Ctx) : (s.capture p e c x).refsel = s.refsel := by
  unfold State.capture; split <;> split <;> (try split) <;> rfl
@[simp] theorem State.capture_life (s : State) (p : Nat) (e : Ev) (c : Sev) (x : Ctx) : (s.capture p e c x).life = s.life := by
  unfold State.capture; split <;> split <;> (try split) <;> rfl
@[simp] theorem State.capture_now (s : State) (p : Nat) (e : Ev) (c : Sev) (x : Ctx) : (s.capture p e c x).now = s.now := by
  unfold State.capture; split <;> split <;> (try split) <;> rfl
@[simp] theorem State.capture_free (s : State) (p : Nat) (e : Ev) (c : Sev) (x : Ctx) : (s.capture p e c x).free = s.free := by
  unfold State.capture; split <;> split <;> (try split) <;> rfl
@[simp] theorem State.capture_evt (s : State) (p : Nat) (e : Ev) (c : Sev) (x : Ctx) : (s.capture p e c x).evt = s.evt := by
  unfold State.capture; split <;> split <;> (try split) <;> rfl
@[simp] theorem State.capture_tu (s : State) (p : Nat) (e : Ev) (c : Sev) (x : Ctx) : (s.capture p e c x).tu = s.tu := by
  unfold State.capture; split <;> split <;> (try split) <;> rfl
@[simp] theorem State.capture_td (s : State) (p : Nat) (e : Ev) (c : Sev) (x : Ctx) : (s.capture p e c x).td = s.td := by
  unfold State.capture; split <;> split <;> (try split) <;> rfl
@[simp] theorem State.capture_lu (s : State) (p : Nat) (e : Ev) (c : Sev) (x : Ctx) : (s.capture p e c x).lu = s.lu := by
  unfold State.capture; split <;> split <;> (try split) <;> rfl
@[simp] theorem State.capture_ld (s : State) (p : Nat) (e : Ev) (c : Sev) (x : Ctx) : (s.capture p e c x).ld = s.ld := by
  unfold State.capture; split <;> split <;> (try split) <;> rfl
@[simp] theorem State.capture_gran (s : State) (p : Nat) (e : Ev) (c : Sev) (x : Ctx) : (s.capture p e c x).gran = s.gran := by
  unfold State.capture; split <;> split <;> (try split) <;> rfl
@[simp] theorem State.capture_chain (s : State) (p : Nat) (e : Ev) (c : Sev) (x : Ctx) : (s.capture p e c x).chain = s.chain := by
  unfold State.capture; split <;> split <;> (try split) <;> rfl
@[simp] theorem State.capture_sched (s : State) (p : Nat) (e : Ev) (c : Sev) (x : Ctx) : (s.capture p e c x).sched = s.sched := by
  unfold State.capture; split <;> split <;> (try split) <;> rfl
@[simp] theorem State.capture_xbr (s : State) (p : Nat) (e : Ev) (c : Sev) (x : Ctx) : (s.capture p e c x).xbr = s.xbr := by
  unfold State.capture; split <;> split <;> (try split) <;> rfl
@[simp] theorem State.capture_vhg (s : State) (p : Nat) (e : Ev) (c : Sev) (x : Ctx) : (s.capture p e c x).vhg = s.vhg := by
  unfold State.capture; split <;> split <;> (try split) <;> rfl
@[simp] theorem State.capture_prof (s : State) (p : Nat) (e : Ev) (c : Sev) (x : Ctx) : (s.capture p e c x).prof = s.prof := by
  unfold State.capture; split <;> split <;> (try split) <;> rfl
@[simp] theorem State.capture_larder (s : State) (p : Nat) (e : Ev) (c : Sev) (x : Ctx) : (s.capture p e c x).larder = s.larder := by
  unfold State.capture; split <;> split <;> (try split) <;> rfl
@[simp] theorem State.capture_update (s : State) (p : Nat) (e : Ev) (c : Sev) (x : Ctx) : (s.capture p e c x).update = s.update := by
  unfold State.capture; split <;> split <;> (try split) <;> rfl
@[simp] theorem State.capture_fns (s : State) (p : Nat) (e : Ev) (c : Sev) (x : Ctx) : (s.capture p e c x).fns = s.fns := by
  unfold State.capture; split <;> split <;> (try split) <;> rfl
@[simp] theorem State.capture_disp (s : State) (p : Nat) (e : Ev) (c : Sev) (x : Ctx) : (s.capture p e c x).disp = s.disp := by
  unfold State.capture; split <;> split <;> (try split) <;> rfl
@[simp] theorem State.capture_enc (s : State) (p : Nat) (e : Ev) (c : Sev) (x : Ctx) : (s.capture p e c x).enc = s.enc := by
  unfold State.capture; split <;> split <;> (try split) <;> rfl
@[simp] theorem State.capture_tcs (s : State) (p : Nat) (e : Ev) (c : Sev) (x : Ctx) : (s.capture p e c x).tcs = s.tcs := by
  unfold State.capture; split <;> split <;> (try split) <;> rfl
@[simp] theorem State.capture_usb (s : State) (p : Nat) (e : Ev) (c : Sev) (x : Ctx) : (s.capture p e c x).usb = s.usb := by
  unfold State.capture; split <;> split <;> (try split) <;> rfl
@[simp] theorem State.capture_svc (s : State) (p : Nat) (e : Ev) (c : Sev) (x : Ctx) : (s.capture p e c x).svc = s.svc := by
  unfold State.capture; split <;> split <;> (try split) <;> rfl
@[simp] theorem State.capture_eth (s : State) (p : Nat) (e : Ev) (c : Sev) (x : Ctx) : (s.capture p e c x).eth = s.eth := by
  unfold State.capture; split <;> split <;> (try split) <;> rfl
@[simp] theorem State.capture_nic (s : State) (p : Nat) (e : Ev) (c : Sev) (x : Ctx) : (s.capture p e c x).nic = s.nic := by
  unfold State.capture; split <;> split <;> (try split) <;> rfl
@[simp] theorem State.capture_pcie (s : State) (p : Nat) (e : Ev) (c : Sev) (x : Ctx) : (s.capture p e c x).pcie = s.pcie := by
  unfold State.capture; split <;> split <;> (try split) <;> rfl
@[simp] theorem State.capture_pw (s : State) (p : Nat) (e : Ev) (c : Sev) (x : Ctx) : (s.capture p e c x).pw = s.pw := by
  unfold State.capture; split <;> split <;> (try split) <;> rfl
@[simp] theorem State.capture_eng (s : State) (p : Nat) (e : Ev) (c : Sev) (x : Ctx) : (s.capture p e c x).eng = s.eng := by
  unfold State.capture; split <;> split <;> (try split) <;> rfl
@[simp] theorem State.capture_pm (s : State) (p : Nat) (e : Ev) (c : Sev) (x : Ctx) : (s.capture p e c x).pm = s.pm := by
  unfold State.capture; split <;> split <;> (try split) <;> rfl
@[simp] theorem State.capture_tmr (s : State) (p : Nat) (e : Ev) (c : Sev) (x : Ctx) : (s.capture p e c x).tmr = s.tmr := by
  unfold State.capture; split <;> split <;> (try split) <;> rfl
@[simp] theorem State.capture_intN (s : State) (p : Nat) (e : Ev) (c : Sev) (x : Ctx) : (s.capture p e c x).intN = s.intN := by
  unfold State.capture; split <;> split <;> (try split) <;> rfl
@[simp] theorem State.capture_outbox (s : State) (p : Nat) (e : Ev) (c : Sev) (x : Ctx) : (s.capture p e c x).outbox = s.outbox := by
  unfold State.capture; split <;> split <;> (try split) <;> rfl
@[simp] theorem State.capture_pending (s : State) (p : Nat) (e : Ev) (c : Sev) (x : Ctx) : (s.capture p e c x).pending = s.pending := by
  unfold State.capture; split <;> split <;> (try split) <;> rfl
@[simp] theorem State.raise_snap (s : State) (p : Nat) (e : Ev) (x : Ctx) : (s.raise p e x).snap = s.snap := by
  unfold State.raise; split <;> simp
@[simp] theorem State.raise_mode (s : State) (p : Nat) (e : Ev) (x : Ctx) : (s.raise p e x).mode = s.mode := by
  unfold State.raise; split <;> simp
@[simp] theorem State.raise_compat (s : State) (p : Nat) (e : Ev) (x : Ctx) : (s.raise p e x).compat = s.compat := by
  unfold State.raise; split <;> simp
@[simp] theorem State.raise_refsel (s : State) (p : Nat) (e : Ev) (x : Ctx) : (s.raise p e x).refsel = s.refsel := by
  unfold State.raise; split <;> simp
@[simp] theorem State.raise_life (s : State) (p : Nat) (e : Ev) (x : Ctx) : (s.raise p e x).life = s.life := by
  unfold State.raise; split <;> simp
@[simp] theorem State.raise_now (s : State) (p : Nat) (e : Ev) (x : Ctx) : (s.raise p e x).now = s.now := by
  unfold State.raise; split <;> simp
@[simp] theorem State.raise_free (s : State) (p : Nat) (e : Ev) (x : Ctx) : (s.raise p e x).free = s.free := by
  unfold State.raise; split <;> simp
@[simp] theorem State.raise_tu (s : State) (p : Nat) (e : Ev) (x : Ctx) : (s.raise p e x).tu = s.tu := by
  unfold State.raise; split <;> simp
@[simp] theorem State.raise_td (s : State) (p : Nat) (e : Ev) (x : Ctx) : (s.raise p e x).td = s.td := by
  unfold State.raise; split <;> simp
@[simp] theorem State.raise_lu (s : State) (p : Nat) (e : Ev) (x : Ctx) : (s.raise p e x).lu = s.lu := by
  unfold State.raise; split <;> simp
@[simp] theorem State.raise_ld (s : State) (p : Nat) (e : Ev) (x : Ctx) : (s.raise p e x).ld = s.ld := by
  unfold State.raise; split <;> simp
@[simp] theorem State.raise_gran (s : State) (p : Nat) (e : Ev) (x : Ctx) : (s.raise p e x).gran = s.gran := by
  unfold State.raise; split <;> simp
@[simp] theorem State.raise_chain (s : State) (p : Nat) (e : Ev) (x : Ctx) : (s.raise p e x).chain = s.chain := by
  unfold State.raise; split <;> simp
@[simp] theorem State.raise_sched (s : State) (p : Nat) (e : Ev) (x : Ctx) : (s.raise p e x).sched = s.sched := by
  unfold State.raise; split <;> simp
@[simp] theorem State.raise_xbr (s : State) (p : Nat) (e : Ev) (x : Ctx) : (s.raise p e x).xbr = s.xbr := by
  unfold State.raise; split <;> simp
@[simp] theorem State.raise_vhg (s : State) (p : Nat) (e : Ev) (x : Ctx) : (s.raise p e x).vhg = s.vhg := by
  unfold State.raise; split <;> simp
@[simp] theorem State.raise_prof (s : State) (p : Nat) (e : Ev) (x : Ctx) : (s.raise p e x).prof = s.prof := by
  unfold State.raise; split <;> simp
@[simp] theorem State.raise_larder (s : State) (p : Nat) (e : Ev) (x : Ctx) : (s.raise p e x).larder = s.larder := by
  unfold State.raise; split <;> simp
@[simp] theorem State.raise_update (s : State) (p : Nat) (e : Ev) (x : Ctx) : (s.raise p e x).update = s.update := by
  unfold State.raise; split <;> simp
@[simp] theorem State.raise_fns (s : State) (p : Nat) (e : Ev) (x : Ctx) : (s.raise p e x).fns = s.fns := by
  unfold State.raise; split <;> simp
@[simp] theorem State.raise_disp (s : State) (p : Nat) (e : Ev) (x : Ctx) : (s.raise p e x).disp = s.disp := by
  unfold State.raise; split <;> simp
@[simp] theorem State.raise_enc (s : State) (p : Nat) (e : Ev) (x : Ctx) : (s.raise p e x).enc = s.enc := by
  unfold State.raise; split <;> simp
@[simp] theorem State.raise_tcs (s : State) (p : Nat) (e : Ev) (x : Ctx) : (s.raise p e x).tcs = s.tcs := by
  unfold State.raise; split <;> simp
@[simp] theorem State.raise_usb (s : State) (p : Nat) (e : Ev) (x : Ctx) : (s.raise p e x).usb = s.usb := by
  unfold State.raise; split <;> simp
@[simp] theorem State.raise_svc (s : State) (p : Nat) (e : Ev) (x : Ctx) : (s.raise p e x).svc = s.svc := by
  unfold State.raise; split <;> simp
@[simp] theorem State.raise_eth (s : State) (p : Nat) (e : Ev) (x : Ctx) : (s.raise p e x).eth = s.eth := by
  unfold State.raise; split <;> simp
@[simp] theorem State.raise_nic (s : State) (p : Nat) (e : Ev) (x : Ctx) : (s.raise p e x).nic = s.nic := by
  unfold State.raise; split <;> simp
@[simp] theorem State.raise_pcie (s : State) (p : Nat) (e : Ev) (x : Ctx) : (s.raise p e x).pcie = s.pcie := by
  unfold State.raise; split <;> simp
@[simp] theorem State.raise_pw (s : State) (p : Nat) (e : Ev) (x : Ctx) : (s.raise p e x).pw = s.pw := by
  unfold State.raise; split <;> simp
@[simp] theorem State.raise_eng (s : State) (p : Nat) (e : Ev) (x : Ctx) : (s.raise p e x).eng = s.eng := by
  unfold State.raise; split <;> simp
@[simp] theorem State.raise_pm (s : State) (p : Nat) (e : Ev) (x : Ctx) : (s.raise p e x).pm = s.pm := by
  unfold State.raise; split <;> simp
@[simp] theorem State.raise_tmr (s : State) (p : Nat) (e : Ev) (x : Ctx) : (s.raise p e x).tmr = s.tmr := by
  unfold State.raise; split <;> simp
@[simp] theorem State.raise_intN (s : State) (p : Nat) (e : Ev) (x : Ctx) : (s.raise p e x).intN = s.intN := by
  unfold State.raise; split <;> simp
@[simp] theorem State.raise_outbox (s : State) (p : Nat) (e : Ev) (x : Ctx) : (s.raise p e x).outbox = s.outbox := by
  unfold State.raise; split <;> simp
@[simp] theorem State.raise_pending (s : State) (p : Nat) (e : Ev) (x : Ctx) : (s.raise p e x).pending = s.pending := by
  unfold State.raise; split <;> simp

end Sys2Proof.Machine
end

