-- ==== Sys2Proof/Laws/Ops.lean ====
section
/-!
SUPPORT. Sys2Proof/Laws/Ops.lean: what the shared operations over registers do, once each: reads after writes, counters, events, error capture, and what ends every meaning.
-/
namespace Sys2Proof.Machine

open Sys2Proof

/-! ### Tables -/

theorem Tab.find_put_same {α : Type} (k : Nat) (v : α) (t : Tab α) : Tab.find k (Tab.put k v t) = some v := by
  induction t with
  | nil => simp [Tab.put, Tab.find]
  | cons x t ih =>
    obtain ⟨a, b⟩ := x
    unfold Tab.put
    split
    · simp [Tab.find]
    · split
      · simp [Tab.find]
      · rename_i h; simp [Tab.find, h, ih]

theorem Tab.find_put_ne {α : Type} (j k : Nat) (v : α) (t : Tab α) (h : j ≠ k) : Tab.find j (Tab.put k v t) = Tab.find j t := by
  induction t with
  | nil => simp [Tab.put, Tab.find, Ne.symm h]
  | cons x t ih =>
    obtain ⟨a, b⟩ := x
    unfold Tab.put
    split
    · simp [Tab.find, Ne.symm h]
    · split
      · rename_i h1; subst h1; simp [Tab.find, Ne.symm h]
      · simp [Tab.find, ih]

theorem Tab.find_del_same {α : Type} (k : Nat) (t : Tab α) : Tab.find k (Tab.del k t) = none := by
  induction t with
  | nil => rfl
  | cons x t ih =>
    obtain ⟨a, b⟩ := x
    by_cases h : a = k
    · simpa [Tab.del, h] using ih
    · simp only [Tab.del, List.filter_cons] at ih ⊢
      simp [h, Tab.find, ih]

theorem Tab.find_del_ne {α : Type} (j k : Nat) (t : Tab α) (h : j ≠ k) : Tab.find j (Tab.del k t) = Tab.find j t := by
  induction t with
  | nil => rfl
  | cons x t ih =>
    obtain ⟨a, b⟩ := x
    by_cases hk : a = k
    · subst hk
      have := ih
      simp only [Tab.del, List.filter_cons] at this ⊢
      simp [Tab.find, Ne.symm h, this]
    · simp only [Tab.del, List.filter_cons] at ih ⊢
      simp [hk, Tab.find, ih]

theorem Tab.wf_tail {α : Type} (x : Nat × α) (t : Tab α) (h : Tab.wf (x :: t) = true) : Tab.wf t = true := by
  cases t with
  | nil => rfl
  | cons y t => simp only [Tab.wf, Bool.and_eq_true] at h; exact h.2

/-- In canonical form the first key lies below every other. -/
theorem Tab.wf_lt {α : Type} (t : Tab α) (a : Nat) (b : α) (h : Tab.wf ((a, b) :: t) = true) : ∀ x ∈ t, a < x.1 := by
  induction t generalizing a b with
  | nil => simp
  | cons y t ih =>
    obtain ⟨c, d⟩ := y
    simp only [Tab.wf, Bool.and_eq_true, decide_eq_true_eq] at h
    intro x hx
    rcases List.mem_cons.1 hx with rfl | hx
    · exact h.1
    · exact Nat.lt_trans h.1 (ih c d h.2 x hx)

theorem Tab.wf_cons {α : Type} (t : Tab α) (a : Nat) (b : α) (ht : Tab.wf t = true) (h : ∀ x ∈ t, a < x.1) : Tab.wf ((a, b) :: t) = true := by
  cases t with
  | nil => rfl
  | cons y t =>
    obtain ⟨c, d⟩ := y
    simp only [Tab.wf, Bool.and_eq_true, decide_eq_true_eq]
    exact ⟨h (c, d) (by simp), ht⟩

theorem Tab.mem_put {α : Type} (k : Nat) (v : α) (t : Tab α) (x : Nat × α) (h : x ∈ Tab.put k v t) : x = (k, v) ∨ x ∈ t := by
  induction t with
  | nil => simpa [Tab.put] using h
  | cons y t ih =>
    obtain ⟨a, b⟩ := y
    unfold Tab.put at h
    split at h
    · rcases List.mem_cons.1 h with h | h
      · exact .inl h
      · exact .inr h
    · split at h
      · rcases List.mem_cons.1 h with h | h
        · exact .inl h
        · exact .inr (List.mem_cons_of_mem _ h)
      · rcases List.mem_cons.1 h with h | h
        · exact .inr (by simp [h])
        · rcases ih h with h | h
          · exact .inl h
          · exact .inr (List.mem_cons_of_mem _ h)

/-- A table stays in canonical form when something is put into it. -/
theorem Tab.wf_put {α : Type} (k : Nat) (v : α) (t : Tab α) (h : Tab.wf t = true) : Tab.wf (Tab.put k v t) = true := by
  induction t with
  | nil => rfl
  | cons y t ih =>
    obtain ⟨a, b⟩ := y
    have hl := Tab.wf_lt t a b h
    have ht := Tab.wf_tail (a, b) t h
    unfold Tab.put
    split
    · rename_i hk
      exact Tab.wf_cons _ _ _ h (fun x hx => by
        rcases List.mem_cons.1 hx with rfl | hx
        · exact hk
        · exact Nat.lt_trans hk (hl x hx))
    · split
      · rename_i hk; subst hk; exact Tab.wf_cons _ _ _ ht hl
      · rename_i h1 h2
        exact Tab.wf_cons _ _ _ (ih ht) (fun x hx => by
          rcases Tab.mem_put k v t x hx with rfl | hx
          · show a < k; omega
          · exact hl x hx)

/-- A table stays in canonical form when something is taken out of it. -/
theorem Tab.wf_filter {α : Type} (p : Nat × α → Bool) (t : Tab α) (h : Tab.wf t = true) : Tab.wf (t.filter p) = true := by
  induction t with
  | nil => rfl
  | cons y t ih =>
    obtain ⟨a, b⟩ := y
    have ht := ih (Tab.wf_tail (a, b) t h)
    rw [List.filter_cons]
    split
    · exact Tab.wf_cons _ _ _ ht (fun x hx => Tab.wf_lt t a b h x ((List.mem_filter.1 hx).1))
    · exact ht

theorem Tab.wf_del {α : Type} (k : Nat) (t : Tab α) (h : Tab.wf t = true) : Tab.wf (Tab.del k t) = true := Tab.wf_filter _ t h

/-! ### Register fields -/

theorem Store.find_setField_same (r : Store) (p : Nat) (f : Fld) (v : Nat) : (Tab.find (fkey p f) (Store.setField r p f v)).getD f.rst = v % 2 ^ f.width := by
  unfold Store.setField
  split
  · rename_i h; simp [Tab.find_del_same, h]
  · simp [Tab.find_put_same]

theorem Store.find_setField_ne (r : Store) (j p : Nat) (f : Fld) (v : Nat) (h : j ≠ fkey p f) : Tab.find j (Store.setField r p f v) = Tab.find j r := by
  unfold Store.setField
  split
  · exact Tab.find_del_ne _ _ _ h
  · exact Tab.find_put_ne _ _ _ _ h

theorem Store.wf_setField (r : Store) (p : Nat) (f : Fld) (v : Nat) (h : Tab.wf r = true) : Tab.wf (Store.setField r p f v) = true := by
  unfold Store.setField
  split
  · exact Tab.wf_del _ _ h
  · exact Tab.wf_put _ _ _ h

/-- A field reads as what was written to it, cut to its width. -/
@[simp] theorem State.rd_wr_same (s : State) (p : Nat) (f : Fld) (v : Nat) : (s.wr p f v).rd p f = v % 2 ^ f.width := Store.find_setField_same s.regs p f v

/-- A write leaves a field with another key alone. -/
theorem State.rd_wr_ne (s : State) (p q : Nat) (f g : Fld) (v : Nat) (h : fkey q g ≠ fkey p f) : (s.wr p f v).rd q g = s.rd q g := by
  show (Tab.find _ (Store.setField s.regs p f v)).getD _ = _
  rw [Store.find_setField_ne s.regs _ p f v h]; rfl

/-- Fields at different places of their page have different keys. -/
theorem fkey_ne_place (p : Nat) (f g : Fld) (h : g.off * 32 + g.lsb ≠ f.off * 32 + f.lsb) : fkey p g ≠ fkey p f := by unfold fkey; omega

/-- Fields of different pages have different keys. -/
theorem fkey_ne_page (p q : Nat) (f g : Fld) (hp : q ≠ p) (hf : f.off < 4096 ∧ f.lsb < 32) (hg : g.off < 4096 ∧ g.lsb < 32) : fkey q g ≠ fkey p f := by unfold fkey; omega

/-- A write leaves another field of its page alone; for fields written out the side condition is decided. -/
theorem State.rd_wr_place (s : State) (p : Nat) (f g : Fld) (v : Nat) (h : (g.off * 32 + g.lsb != f.off * 32 + f.lsb) = true) : (s.wr p f v).rd p g = s.rd p g :=
  s.rd_wr_ne p p f g v (fkey_ne_place p f g (by simpa using h))

/-- A write leaves the fields of another page alone. -/
theorem State.rd_wr_page (s : State) (p q : Nat) (f g : Fld) (v : Nat) (hp : q ≠ p) (h : (f.off < 4096 && f.lsb < 32 && g.off < 4096 && g.lsb < 32) = true) :
    (s.wr p f v).rd q g = s.rd q g := by
  simp only [Bool.and_eq_true, decide_eq_true_eq] at h
  exact s.rd_wr_ne p q f g v (fkey_ne_page p q f g hp ⟨h.1.1.1, h.1.1.2⟩ ⟨h.1.2, h.2⟩)

@[simp] theorem State.on_wr_same (s : State) (p : Nat) (f : Fld) (v : Nat) : (s.wr p f v).on p f = (v % 2 ^ f.width != 0) := by simp [State.on]

/-- A write keeps the store in canonical form. -/
theorem State.wf_wr (s : State) (p : Nat) (f : Fld) (v : Nat) (h : Tab.wf s.regs = true) : Tab.wf (s.wr p f v).regs = true := Store.wf_setField _ _ _ _ h

/-- A counter reads as its count and what was added, saturated. -/
@[simp] theorem State.rd_bump_same (s : State) (p : Nat) (f : Fld) (n : Nat) : (s.bump p f n).rd p f = min (s.rd p f + n) (2 ^ f.width - 1) := by
  have h : 0 < 2 ^ f.width := Nat.two_pow_pos _
  simp only [State.bump, State.rd_wr_same, satAdd]
  exact Nat.mod_eq_of_lt (by omega)

theorem State.rd_bump_ne (s : State) (p q : Nat) (f g : Fld) (n : Nat) (h : fkey q g ≠ fkey p f) : (s.bump p f n).rd q g = s.rd q g := s.rd_wr_ne p q f g _ h

theorem State.rd_bump_place (s : State) (p : Nat) (f g : Fld) (n : Nat) (h : (g.off * 32 + g.lsb != f.off * 32 + f.lsb) = true) : (s.bump p f n).rd p g = s.rd p g :=
  s.rd_wr_place p f g _ h

theorem State.rd_bump_page (s : State) (p q : Nat) (f g : Fld) (n : Nat) (hp : q ≠ p) (h : (f.off < 4096 && f.lsb < 32 && g.off < 4096 && g.lsb < 32) = true) :
    (s.bump p f n).rd q g = s.rd q g := s.rd_wr_page p q f g _ hp h

/-! ### Events -/

theorem State.setRaw_rd (s : State) (p n q : Nat) (g : Fld) : (s.setRaw p n).rd q g = (s.wr p (HDR.raw n) 1).rd q g := rfl

/-- An event sets its bit of EV_RAW. -/
theorem State.rd_setRaw_same (s : State) (p n : Nat) : (s.setRaw p n).rd p (HDR.raw n) = 1 := by
  rw [State.setRaw_rd, State.rd_wr_same]; rfl

/-- A capture writes only the header words from ER_CAP0 on and PG_STAT.fault of its page. -/
theorem State.rd_capture_block (s : State) (p : Nat) (e : Ev) (c : Sev) (x : Ctx) (q : Nat) (g : Fld) (h : q ≠ p ∨ 0x40 ≤ g.off ∨ g.off = 0x10) (hg : g.off < 4096 ∧ g.lsb < 32) :
    (s.capture p e c x).rd q g = s.rd q g := by
  have k : ∀ (t : State) (f : Fld) (v : Nat), (f.off < 0x40 ∧ f.off ≠ 0x10 ∧ f.lsb < 32) → (t.wr p f v).rd q g = t.rd q g := by
    intro t f v hf
    refine t.rd_wr_ne p q f g v ?_
    unfold fkey
    omega
  unfold State.capture State.bump
  simp only
  split <;> split <;> (try split) <;> (repeat rw [k _ _ _ (by decide)])

/-- Raising an event writes only the header of its page. -/
theorem State.rd_raise_block (s : State) (p : Nat) (e : Ev) (x : Ctx) (q : Nat) (g : Fld) (h : q ≠ p ∨ 0x40 ≤ g.off) (hg : g.off < 4096 ∧ g.lsb < 32) (he : e.bit < 32) :
    (s.raise p e x).rd q g = s.rd q g := by
  have k : (s.setRaw p e.bit).rd q g = s.rd q g := by
    rw [State.setRaw_rd]
    refine s.rd_wr_ne p q _ g 1 ?_
    show fkey q g ≠ (p * 4096 + 0x10) * 32 + e.bit
    unfold fkey
    omega
  unfold State.raise
  simp only
  split
  · exact k
  · rw [State.rd_capture_block _ _ _ _ _ _ _ (by omega) hg, k]

/-- An event that is raised shows in EV_RAW. -/
theorem State.rd_raise_same (s : State) (p : Nat) (e : Ev) (x : Ctx) (he : e.bit < 32) : (s.raise p e x).rd p (HDR.raw e.bit) = 1 := by
  have k := s.rd_setRaw_same p e.bit
  unfold State.raise
  simp only
  split
  · exact k
  · rw [State.rd_capture_block _ _ _ _ _ _ _ (Or.inr (Or.inr rfl)) ⟨by show 0x10 < 4096; decide, he⟩, k]

/-! ### CRCs -/

/-- A CRC run is a fold. -/
theorem crcRun_eq (f : Nat → Byte → Nat) (l : List Byte) (r : Nat) : crcRun f l r = l.foldl f r := by
  induction l generalizing r with
  | nil => simp [crcRun]
  | cons b l ih => cases r <;> simp [crcRun, ih]

/-! ### What ends every meaning -/

/-- Every meaning answers a next state. -/
theorem State.served_next (s t : State) : s.served t = .next (s.after t) := rfl

/-- The queue is the sender's. -/
@[simp] theorem State.after_pending (s t : State) : (s.after t).pending = s.pending := rfl

theorem State.run_running (s : State) (f : State → State) (h : s.life = .running) : s.run f = .next (s.after (f s)) := by simp [State.run, h, State.served]

theorem State.always_next (s : State) (f : State → State) : s.always f = .next (s.after (f s)) := rfl

/-- INT_N is driven as `intPad` says, and nothing else but the outbox changes. -/
theorem State.drivePad_eq (s : State) : s.drivePad = s ∨ s.drivePad = { s with intN := s.intPad, outbox := s.outbox ++ [.pin "INT_N" (b2n !s.intPad)] } := by
  unfold State.drivePad
  simp only
  split
  · exact .inl rfl
  · exact .inr rfl

@[simp] theorem State.drivePad_regs (s : State) : s.drivePad.regs = s.regs := by rcases s.drivePad_eq with h | h <;> rw [h]
@[simp] theorem State.drivePad_mode (s : State) : s.drivePad.mode = s.mode := by rcases s.drivePad_eq with h | h <;> rw [h]
@[simp] theorem State.drivePad_life (s : State) : s.drivePad.life = s.life := by rcases s.drivePad_eq with h | h <;> rw [h]
@[simp] theorem State.drivePad_pw (s : State) : s.drivePad.pw = s.pw := by rcases s.drivePad_eq with h | h <;> rw [h]
@[simp] theorem State.drivePad_compat (s : State) : s.drivePad.compat = s.compat := by rcases s.drivePad_eq with h | h <;> rw [h]

/-- The pin is at the level that drives it. -/
theorem State.drivePad_intN (s : State) : s.drivePad.intN = s.intPad := by
  unfold State.drivePad
  simp only
  split
  · rename_i h; exact h.symm
  · rfl

/-- A quiet state does nothing more by itself. -/
theorem State.settled_quiet (s : State) (h : s.gran.waiting = [] ∧ s.gran.cuts = [] ∧ s.evt.fresh = []) : s.settled = s := by
  obtain ⟨hw, hc, hf⟩ := h
  have e : s.cutGroups = s := by
    unfold State.cutGroups
    rw [hc]
    obtain ⟨⟩ := s
    simp_all
  unfold State.settled
  split
  · unfold State.settle
    simp [hw, e, hf]
  · rfl

/-- What a page has pending is a matter of the registers. -/
theorem State.evPend_congr (s t : State) (p : Nat) (hr : t.regs = s.regs) : t.evPend p = s.evPend p := by
  unfold State.evPend State.on State.rd
  rw [hr]

/-- What is shown of the companion's pages is a matter of the registers and of the companion's power and link. -/
theorem State.companionView_congr (s t : State) (hr : t.regs = s.regs) (hp : t.pw = s.pw) : t.companionView.regs = s.companionView.regs := by
  have hl : t.hvLink = s.hvLink := by unfold State.hvLink State.on State.rd; rw [hr, hp]
  unfold State.companionView
  rw [hl, hp]
  split
  · exact hr
  · split
    · rfl
    · split
      · exact hr
      · rfl

/-- Whether INT_N is due is a matter of the registers, the mode and the companion's power and link. -/
theorem State.intLow_congr (s t : State) (hr : t.regs = s.regs) (hm : t.mode = s.mode) (hp : t.pw = s.pw) : t.intLow = s.intLow := by
  have h (p : Nat) : t.isPending p = s.isPending p := by
    unfold State.isPending
    split
    · rw [State.evPend_congr _ _ p (s.companionView_congr t hr hp)]
    · rw [State.evPend_congr _ _ p hr]
  unfold State.intLow State.route State.present State.fused State.on State.rd
  simp only [h, hr, hm]

/-- Nothing dealt is nothing joined. -/
theorem joinUnits_nil (n k : Nat) : joinUnits n k [] [] = [] := by
  induction n generalizing k with
  | zero => rfl
  | succ n ih => unfold joinUnits; split <;> simp [ih]

/-- R84: what the sending end deals to two lanes, the receiving end puts together again, from whichever lane the stream stands. -/
theorem joinUnits_dealUnits (n k : Nat) (l : List Byte) (hk : k ≤ 1) (h : l.length ≤ 8 * n) : joinUnits n k (dealUnits n k l).1 (dealUnits n k l).2 = l := by
  induction n generalizing k l with
  | zero => simp [List.length_eq_zero_iff.mp (by omega : l.length = 0), joinUnits]
  | succ n ih =>
    by_cases he : l = []
    · simp [he, dealUnits, joinUnits_nil]
    have hd := ih (1 - k) (l.drop 8) (by omega) (by simp; omega)
    by_cases h8 : 8 ≤ l.length
    · have ht : ∀ a : List Byte, (l.take 8 ++ a).take 8 = l.take 8 ∧ (l.take 8 ++ a).drop 8 = a := fun a => by
        have h9 : (l.take 8).length = 8 := by simp; omega
        exact ⟨by rw [List.take_append_of_le_length (by omega), List.take_take]; simp, by rw [List.drop_append_of_le_length (by omega), List.drop_eq_nil_of_le (by omega)]; rfl⟩
      rcases (by omega : k = 0 ∨ k = 1) with rfl | rfl
      · replace hd : joinUnits n 1 (dealUnits n 1 (l.drop 8)).1 (dealUnits n 1 (l.drop 8)).2 = l.drop 8 := hd
        simp [dealUnits, joinUnits, he, (ht _).1, (ht _).2, hd]
      · replace hd : joinUnits n 0 (dealUnits n 0 (l.drop 8)).1 (dealUnits n 0 (l.drop 8)).2 = l.drop 8 := hd
        simp [dealUnits, joinUnits, he, (ht _).1, (ht _).2, hd]
    · have hz : l.drop 8 = [] := List.drop_eq_nil_of_le (by omega)
      have ht : l.take 8 = l := List.take_of_length_le (by omega)
      have hr : ∀ k, dealUnits n k [] = ([], []) := fun k => by cases n <;> simp [dealUnits]
      rcases (by omega : k = 0 ∨ k = 1) with rfl | rfl <;> simp [dealUnits, joinUnits, he, hz, ht, hr, joinUnits_nil]

/-- A field that is not at its own reset and that a state does not list a state does not list reads as its reset value. -/
theorem State.rd_default (s : State) (p : Nat) (f : Fld) (h : Tab.find (fkey p f) s.regs = none) : s.rd p f = f.rst := by simp [State.rd, h]

end Sys2Proof.Machine
end

