-- ==== Sys2Proof/Tests/Slice0.lean ====
section
/-!
SUPPORT. Sys2Proof/Tests/Slice0.lean: tests of single commands on small states. Each `test_` theorem evaluates commands on a state that meets the hypotheses of the statement that it is named
after, and looks at what the rules say the command leaves; expected values come from the rule that the test's comment names.
-/
namespace Sys2Proof.Tests

open Sys2Proof Sys2Proof.Machine

set_option Elab.async false

/-- A state with some registers set, and with INT_N disabled. -/
def held (l : List (Nat × Fld × Nat)) : State := { regs := Store.hold ((Pg.evt, EVT.EVT_CFG_int_en, 0) :: l) [] }

/-- A head with some registers set. -/
def headHeld (l : List (Nat × Fld × Nat)) : State := { held l with mode := .head }

/-- Exec answers a next state with a property. -/
def ok (c : Instr) (s : State) (P : State → Bool) : Bool := match exec c s with
  | .next t => P t
  | _ => false

/-! ### Ill-formed terms, one for each check -/

theorem test_wf_number_too_wide : Instr.wf (.registerWrite .lmp 0 16 0) = false := by decide
theorem test_wf_cell_field_too_wide : Instr.wf (.errorEventRx .tu { tunnel := 4096 }) = false ∧ Instr.wf (.errorEventRx .tu { tunnel := 4095 }) = true := by decide
theorem test_wf_frame_of_wrong_length : Instr.wf (.hopPageRx .tu { delims := true, bytes := [0, 0, 0, 0, 0] }) = false := by decide
theorem test_wf_too_many_bytes : ∀ l : List Byte, 2 ^ 25 < l.length → Instr.wf (.allotmentTableRx .tu ⟨0, l⟩) = false := by
  intro l h
  exact decide_eq_false (Nat.not_le.mpr h)
theorem test_wf_good : Instr.wf (.registerWrite .lmp 0 15 0) = true := by decide

/-! ### Registers -/

theorem test_allPages : allPages = (List.range 0x190).filter (fun p => (pageKind p).isSome) := by decide +kernel

theorem test_StepRunsFront : (match step ({ pending := [.pageLock 0x171, .padRelease] } : State) with
    | .next t => t.locked 0x171 && t.pending = [.padRelease]
    | _ => false) = true := by decide +kernel

theorem test_IdleStepIsOneMicrosecond : (match step ({} : State) with
    | .next t => t.now = 1000 && t.chain.time = 1000
    | _ => false) = true ∧ (match step ({ life := .inReset } : State) with
    | .next t => t.now = 1000 && t.chain.time = 0
    | _ => false) = true := by decide +kernel

/-- R463: a timer event with EV_EN and route bit 0 drives INT_N low. -/
theorem test_PinFollowsPendingPages : ok (.eventSet 0x171 1) { regs := Store.hold [(0x171, HDR.evEn 0, 1), (0x170, EVT.ROUTE_route 23, 4)] [] } (fun t => t.intN && t.outbox = [.pin "INT_N" 0]) = true := by decide +kernel

theorem test_AfterQuiet : ({} : State).quiet := ⟨rfl, rfl, rfl⟩

theorem test_RegisterWriteEnables : ok (.registerWrite .lmp 0x171014 15 0xA) (held [(0x171, HDR.evEn 0, 1)])
    (fun t => t.rd 0x171 (HDR.evEn 0) = 0 && t.rd 0x171 (HDR.evEn 1) = 1 && t.rd 0x171 (HDR.evEn 2) = 0 && t.rd 0x171 (HDR.evEn 3) = 1) = true := by decide +kernel

theorem test_MisalignedAccess : goodAccess 0x171012 15 = false ∧ goodAccess 0x171010 7 = false ∧
    ok (.registerWrite .lmp 0x171010 7 1) (held []) (fun t => t.rd Pg.evt EVT.ACC_CNT_count = 1 && t.rd Pg.evt EVT.ACC_ERR_src = 2 && t.rd Pg.evt EVT.ACC_ERR_byte_en = 7) = true ∧
    ok (.rcFieldRead .engine 0x171012 15) (held []) (fun t => t.rd Pg.evt EVT.ACC_ERR_offset = 0x171012 && t.rd Pg.evt EVT.ACC_ERR_write = 0) = true ∧
    State.pathUp { held [] with mode := .head, vhg := { perst := false, numVfs := 4 } } (.vfBar 3) = true ∧
    ok (.registerWrite (.vfBar 3) 0x52 15 1) { held [] with mode := .head, vhg := { perst := false, numVfs := 4 } } (fun t => t.rd Pg.evt EVT.ACC_ERR_offset = 0x83052 && t.rd Pg.evt EVT.ACC_ERR_src = 1) = true := by decide +kernel

theorem test_ReadsWithEffects : [ok (.rcFieldRead .lmp 0x170048 15) (held [(Pg.evt, EVT.ACC_CNT_count, 9)]) (fun t => t.outbox = [.busData .lmp 0x170048 9] && t.rd Pg.evt EVT.ACC_CNT_count = 0),
    ok (.rcFieldRead .lmp 0x170048 15) { held [(Pg.evt, EVT.ACC_CNT_count, 9), (Pg.evt, HDR.PG_CTL_frz, 1)] with snap := [(fkey Pg.evt EVT.ACC_CNT_count, 4)] }
      (fun t => t.outbox = [.busData .lmp 0x170048 4] && t.rd Pg.evt EVT.ACC_CNT_count = 5),
    ok (.counterSnapshot Pg.evt true) (held [(Pg.evt, EVT.ACC_CNT_count, 9)]) (fun t => Tab.find (fkey Pg.evt EVT.ACC_CNT_count) t.snap = some 9)].all id = true := by decide +kernel

theorem test_ReadsWithEffects_latched : [ok (.timeLoRead .lmp) { chain := { time := 0x500000007 } } (fun t => t.rd Pg.ctim CTIM.TIME_HI_time_hi = 5 && t.outbox = [.busData .lmp 0x15044 7]),
    ok (.frameTLoRead .lmp 1) { disp := [(1, { frameT := 0x300000001 })] } (fun t => t.rd (Pg.disp 1) DISP.FRAME_T_HI_t_hi = 3),
    ok (.pfqData2Read .lmp) { mode := .head, vhg := { pfq := [[0, 1, 0x10, 3, 77], [0, 2, 0x10, 1, 78]] } } (fun t => t.outbox = [.busData .lmp 0x17021C 77] && t.vhg.pfq = [[0, 2, 0x10, 1, 78]])].all id = true := by
  decide +kernel

theorem test_LockAndEventSet : [ok (.pageLock 0x171) (held []) (fun t => t.locked 0x171), ok (.eventSet 0x171 5) (held []) (fun t => t.rd 0x171 (HDR.raw 2) = 1 && t.rd 0x171 HDR.ER_CNT_corr = 0),
    ok (.blockReset Pg.evt) (held [(Pg.evt, HDR.PG_CTL_lock, 1), (Pg.evt, HDR.raw 0, 1), (Pg.evt, EVT.EVT_CFG_hold_us, 7)]) (fun t => !t.locked Pg.evt && t.rd Pg.evt (HDR.raw 0) = 0 && t.rd Pg.evt EVT.EVT_CFG_hold_us = 0x64)].all id = true := by
  decide +kernel

/-! ### Resets and boot (R22, R446, R448, R450) -/

theorem test_MainDieResets : (let s := held [(Pg.chn, CHN.CHN_STAT_home_state, 1), (Pg.chn, CHN.CHN_STAT_addr, 5), (Pg.pws, PWS.WATCH_MARK_marks, 6), (Pg.pwp, PWP.EF_STAT_state, 5)]
    [ok .powerOnReset s (fun t => t.life = .inReset && t.addr = 63 && t.rd Pg.glb GLB.RST_CAUSE_cause = 1 && t.rd Pg.pws PWS.WATCH_MARK_marks = 0 && t.ef = 5),
    ok .pinReset s (fun t => t.rd Pg.glb GLB.RST_CAUSE_cause = 3 && t.rd Pg.pws PWS.WATCH_MARK_marks = 6 && !t.homed),
    ok .thermalReset s (fun t => t.rd Pg.glb GLB.RST_CAUSE_cause = 0x11 && t.pm.hot), ok .watchdogReset s (fun t => t.rd Pg.glb GLB.RST_CAUSE_cause = 9),
    ok .clockReset s (fun t => t.rd Pg.glb GLB.RST_CAUSE_cause = 0x21 && t.pm.noLock), ok (.commandReset (some 0xA501)) s (fun t => t.rd Pg.glb GLB.RST_CAUSE_cause = 5),
    ok (.commandReset (some 0xA401)) s (fun t => t.life = .running && t.addr = 5),
    ok .pinReset (held [(Pg.vbs 3, VBS.VBS_STAT_state, vbOn)]) (fun t => t.vb 3 = vbDisch && t.rd (Pg.vbs 3) VBS.VBS_STAT_cause = 7)]).all id = true := by decide +kernel

theorem test_ResetRelease : [ok (.resetRelease 1 true false true 40) { held [] with life := .inReset } (fun t => t.life = .running && t.mode = .head && t.rd Pg.glb GLB.GLB_STAT_mode = 1 && t.compat),
    ok (.resetRelease 3 false false true 40) { held [] with life := .inReset } (fun t => t.rd Pg.glb (HDR.raw 2) = 1),
    ok (.resetRelease 0 false false true 110) { held [] with life := .inReset, pm := { hot := true } } (fun t => t.life = .inReset),
    ok (.resetRelease 0 false false true 109) { held [] with life := .inReset, pm := { hot := true } } (fun t => t.life = .running),
    ok (.resetRelease 0 false false false 40) { held [] with life := .inReset, pm := { noLock := true } } (fun t => t.life = .inReset)].all id = true := by decide +kernel

/-- A flash that does not answer. -/
def noFlash : Flash := ⟨false, none, none, none, [], [], [], []⟩

theorem test_BootEnds : ok (.bootComplete noFlash) (held []) (fun t => t.rd Pg.glb GLB.GLB_STAT_boot_err = 1 && t.engState 15 = engRunning && t.engState 3 = 0 && t.rd Pg.glb (HDR.raw 1) = 1) = true := by decide +kernel

/-- SHA-384 of no bytes, of the key below. -/
def noHash : List Byte := beBytes 48 0x38b060a751ac96384cd9327eb1b1e36a21fdb71114be07434c0cc7bf63f6e1da274edebfe76f65fbd51ad2f14898b95b

/-- A bundle of version 1.2.3 for profile 1 whose engine images are empty. It was signed outside Lean with a key made for it. -/
def bundle0 : List Byte :=
  leBytes 4 0x42464C50 ++ [1, 0, 16, 0] ++ leBytes 4 0x500 ++ leBytes 4 0x01020003 ++ leBytes 4 0 ++ [1, 0, 1, 0] ++ List.replicate 8 0 ++ [1, 0] ++ List.replicate 30 0 ++
  (List.range 16).flatMap (fun i => [BitVec.ofNat 8 i] ++ List.replicate 15 0 ++ noHash) ++
  beBytes 48 0x52836dc1c6916de282e8233ab9b9e0df38a1e484598ea9957c4767a03be18fc2be7f5cb602447a7c36ba48a37f5256a9 ++ beBytes 48 0x32d923c9d8fb99d82b24431129a8e6c453c8fad0fe4f7c4172a6a7c7215ea315202108e4adef88811e5e926fc0372c6c ++
  beBytes 48 0x79eed2788547072894da3ae92642696db0984531d7653560eeeaa88387e8dfa77eef1bf3204b35712d8962d294ef800f ++ beBytes 48 0x6f7bd50506c9639f76cbccb0578d6eee669ade6ad29d6c1d7edb4fc22bffb1d442d8c9195add49450c6de96d7bf30852

/-- A hub whose fuses name the key of `bundle0`. -/
def fusedHub : State :=
  held ([1508612717, 497622625, 1570362047, 2488602203, 1839034410, 2646753042, 2279617538, 724369844, 930477750, 1858078738, 3557349929, 866676092].zipIdx.map (fun x => (Pg.fus, FUS.FW_KEY_HASH0_hash0 x.2, x.1)))

/-- A flash with it in slot A. -/
def goodFlash : Flash := ⟨true, none, none, none, bundle0, [], [], []⟩

theorem test_BootSlot : 0 ∈ ({ fusedHub with eng := { boot := flashRecord goodFlash } } : State).trial.fwSlots goodFlash ∧
    ({ fusedHub with eng := { boot := flashRecord goodFlash } } : State).trial.fwFits goodFlash 0 = true := by decide +kernel

/-! ### Trunk ports (R28–R61) -/

/-- The TU port in a state, with some fields. -/
def tuAt (st : Nat) (l : List (Fld × Nat)) (t : Trunk := {}) : State :=
  { held ((Pg.trk .tu, TRK.PORT_STAT_state, st) :: l.map (fun x => (Pg.trk .tu, x.1, x.2))) with tu := t }

/-- A sideband frame with the right CRC. -/
def frame (l : List Byte) : SbFrame := ⟨true, l ++ leBytes 1 (crc8 l)⟩

theorem test_PortControls : [ok (.portEnable .tu) (tuAt stDisabled [(TRK.PORT_CFG_media, 1)]) (fun t => t.pst .tu = stDetect && t.tu.medium = 1),
    ok (.portEnable .tu) (tuAt stDisabled [(TRK.PORT_CFG_media, 5)]) (fun t => t.pst .tu = stDisabled && t.rd 0x10 (HDR.raw TRK.ev_cfg_err.bit) = 1),
    ok (.portDisable .tu) (tuAt stUp []) (fun t => t.pst .tu = stDown && t.trkF .tu TRK.PORT_CAUSE_cause = 5 && t.trkF .tu TRK.LINK_CNT_downs = 1 && t.trkF .tu TRK.PORT_CAUSE_state_at_down = stUp),
    ok (.portDisable .tu) (tuAt stTrain []) (fun t => t.pst .tu = stDisabled), ok (.portHoldDown .tu true) (tuAt stUp []) (fun t => t.pst .tu = stDown),
    ok (.portHoldDown .tu true) (tuAt stNegotiate []) (fun t => t.pst .tu = stDetect && !t.tu.txOn), ok (.portRenego .tu) (tuAt stUp [(TRK.PORT_STAT_failed, 8)]) (fun t => t.pst .tu = stDown && t.trkF .tu TRK.PORT_STAT_failed = 0),
    ok (.portRetrain .tu) (tuAt stUp []) (fun t => t.pst .tu = stRecover && t.trkF .tu TRK.LINK_CNT_recovers = 1)].all id = true := by decide +kernel

theorem test_MediaAndAttach : [ok (.mediaAutoTimeout .tu false) (tuAt stDetect [] { autoWin := true }) (fun t => t.tu.medium = 1), ok (.enterNegotiate .tu false) (tuAt stDetect [] { medium := 1, pageSeq := 255 }) (fun t => t.pst .tu = stNegotiate && t.tu.pageSeq = 0),
    ok (.enterNegotiate .tu true) (tuAt stDetect [] { medium := 1, pageSeq := 9, pageLast := [15, 15, 1], partner := some (pageOf [8, 0xF, 1, 0]) }) (fun t => t.tu.pageSeq = 9 && t.tu.partner = none),
    ok (.trunkCcToggle .tu) (tuAt stDetect [(TRK.TTC_CFG_cc_role, 2)]) (fun t => t.tu.ccTerm = 1), ok (.trunkCcTerminationChange .tu 2) (tuAt stDetect []) (fun t => t.tu.ccSeen = 2),
    ok (.trunkCcAttach .tu) (tuAt stDetect [] { ccSeen := 2, autoWin := true }) (fun t => t.trkF .tu TRK.TTC_STAT_orient = 1 && t.tu.medium = 3),
    ok (.trunkCcDetach .tu) (tuAt stNegotiate [(TRK.TTC_STAT_attached, 1), (TRK.PORT_CFG_media, 3)] { medium := 3 }) (fun t => t.pst .tu = stDetect && t.trkF .tu TRK.TTC_STAT_attached = 0 && t.tu.snap = none)].all id = true := by decide +kernel

/-- R39's worked example: both pages allow G2, G1 and G0; the ports select G2, and G1 once G2 is marked failed. -/
theorem test_SidebandNegotiation : [ok (.hopPageRx .tu ⟨false, []⟩) (tuAt stNegotiate []) (fun t => t.trkF .tu TRK.SB_ERR_sb_crc = 1), ok (.hopPageRx .tu (frame [1, 0xE, 0xF, 1, 0])) (tuAt stNegotiate [] { medium := 2 }) (fun t => t.trkF .tu TRK.PORT_STAT_sb_up = 0 && t.tu.partner = none), ok (.keepaliveRx .tu ⟨false, []⟩) (tuAt stUp [(TRK.PORT_CFG_sb_en, 0)] { medium := 1 }) (fun t => t.trkF .tu TRK.SB_ERR_sb_crc = 0),
    ok (.hopAckRx .tu ⟨true, [2, 0, 0, 0, 0, 1]⟩) (tuAt stNegotiate []) (fun t => t.trkF .tu TRK.SB_ERR_sb_crc = 1),
    ok (.hopPageRx .tu (frame [1, 0xE, 0xF, 1, 0])) (tuAt stNegotiate [] { medium := 1 }) (fun t => t.tu.sel = some ⟨mdG2, 3, 3⟩ && t.trkF .tu TRK.PORT_STAT_sb_up = 1),
    ok (.hopPageRx .tu (frame [1, 0xE, 0xF, 1, 0])) (tuAt stNegotiate [(TRK.PORT_STAT_failed, 8)] { medium := 1 }) (fun t => t.tu.sel = some ⟨mdG1, 3, 3⟩),
    ok (.hopAckRx .tu (frame [2, 3, 0xF, 0, 0])) (tuAt stNegotiate [] { medium := 1, sel := some ⟨mdG2, 3, 3⟩ }) (fun t => t.pst .tu = stTrain && t.tu.training = mdG2),
    ok (.hopAckRx .tu (frame [2, 2, 0xF, 0, 0])) (tuAt stNegotiate [] { medium := 1, sel := some ⟨mdG2, 3, 3⟩ }) (fun t => t.pst .tu = stNegotiate && t.tu.sel = none),
    ok (.hopPageSend .tu) (tuAt stNegotiate [] { medium := 1, pageSeq := 4 }) (fun t => t.outbox = [.sideband .tu 0 (frame [1, 15, 15, 1, 4])]),
    ok (.hopAckSend .tu) (tuAt stNegotiate [] { medium := 1, sel := some ⟨mdG1, 3, 1⟩ }) (fun t => t.outbox = [.sideband .tu 0 (frame [2, 2, 7, 0, 0])]),
    ok (.keepaliveSend .tu) (tuAt stUp [(TRK.PORT_STAT_rx_lanes, 3)] { medium := 1, txOn := true }) (fun t => t.outbox = [.sideband .tu 0 (frame [3, 5, 3, 0, 0])]),
    ok (.keepaliveRx .tu (frame [3, 5, 3, 0, 0])) (tuAt stUp []) (fun t => t.trkF .tu TRK.SB_STAT_up = 1), ok (.sidebandLost .tu) (tuAt stUp [(TRK.PORT_STAT_sb_up, 1)]) (fun t => t.pst .tu = stUp && t.tu.inbandDue)].all id = true := by
  decide +kernel

theorem test_TrainingAndLinkUp : [ok (.trainingConverged .tu) (tuAt stTrain []) (fun t => t.pst .tu = stAlign),
    ok (.trainingTimeout .tu) (tuAt stTrain [] { sel := some ⟨mdG2, 3, 3⟩, medium := 1, allow := 14 }) (fun t => t.tu.failWait && t.trkF .tu TRK.PORT_STAT_failed = 0),
    ok (.trainingTimeout .tu) (tuAt stTrain [] { sel := some ⟨mdG2, 3, 3⟩, medium := 1 }) (fun t => t.tu.p1Try && t.trkF .tu TRK.PORT_STAT_failed = 8),
    ok (.inbandNegotiate .tu) (tuAt stNegotiate [] { medium := 1 }) (fun t => t.trkF .tu TRK.PORT_STAT_inband = 1 && t.tu.training = mdG0),
    ok (.trainingFrameRx .tu [0xE, 0xF, 1, 0] []) (tuAt stNegotiate [(TRK.PORT_STAT_inband, 1)] { medium := 1 }) (fun t => t.tu.sel = some ⟨mdG2, 3, 3⟩),
    ok (.p1Attempt .tu) (tuAt stNegotiate [] { medium := 1 }) (fun t => t.tu.p1Try && t.tu.training = mdP1), ok (.p1Attempt .tu) (tuAt stNegotiate [] { medium := 1, partner := some (pageOf [1, 0xF, 1, 0]) }) (fun t => t.tu.p1Try),
    ok (.p1Attempt .tu) (tuAt stNegotiate [] { medium := 1, partner := some (pageOf [2, 0, 1, 0]) }) (fun t => !t.tu.p1Try && t.pst .tu = stNegotiate),
    ok (.trainingTimeout .tu) (tuAt stNegotiate [] { p1Try := true }) (fun t => t.tu.failWait && t.trkF .tu TRK.LINK_CNT_train_fails = 1),
    ok (.trainFailRetry .tu) (tuAt stNegotiate [] { medium := 1, failWait := true }) (fun t => !t.tu.failWait),
    ok (.p1Aligned .tu true 7 0) (tuAt stNegotiate [] { p1Try := true }) (fun t => t.pst .tu = stUp && t.trkF .tu TRK.PORT_STAT_mode = 4 && t.tu.isP1200),
    ok (.linkUp .tu) (tuAt stAlign [] { sel := some ⟨mdG2, 3, 1⟩ }) (fun t => t.pst .tu = stUp && t.trkF .tu TRK.PORT_STAT_tx_lanes = 3 && t.trkF .tu TRK.PORT_STAT_rx_lanes = 1)].all id = true := by decide +kernel

theorem test_EqualiserEnvelopes : [ok (.eqSetpointWrite .tu 0x94 0x1F05) (tuAt stUp [(TRK.CTLE_ENV_ctle_max, 20)]) (fun t => t.trkF .tu TRK.CTLE_SET_ctle_l0 = 5 && t.trkF .tu TRK.CTLE_SET_ctle_l1 = 20 && t.trkF .tu TRK.EQ_PIN_ctle_l1 = 1 && t.trkF .tu TRK.EQ_PIN_ctle_l0 = 0),
    ok (.eqEnvelopeWrite .tu 0x88 0x0405) (tuAt stUp []) (fun t => t.trkF .tu TRK.CTLE_ENV_ctle_max = 31 && t.rd 0x10 (HDR.raw TRK.ev_cfg_err.bit) = 1),
    ok (.eqEnvelopeWrite .tu 0x88 0x0404) (tuAt stUp []) (fun t => t.trkF .tu TRK.CTLE_SET_ctle_l0 = 4 && t.trkF .tu TRK.CTLE_SET_ctle_l1 = 4),
    ok (.ffeRequestRx .tu 1 15 31) (tuAt stTrain []) (fun t => t.trkF .tu TRK.FFE_L1_main = 17 && t.outbox = [.training .tu 6 [1, 0]]),
    ok (.ffeRequestRx .tu 0 5 0) (tuAt stTrain [(TRK.FFE_ENV_pre_max, 4)]) (fun t => t.trkF .tu TRK.FFE_L0_pre = 4 && t.outbox = [.training .tu 6 [0, 1]])].all id = true := by decide +kernel

theorem test_LanesAndRecover : [ok (.laneLost .tu 1 1) (tuAt stUp [(TRK.PORT_STAT_rx_lanes, 3)] { fullRx := 3 }) (fun t => t.pst .tu = stDegraded && t.trkF .tu TRK.PORT_STAT_rx_lanes = 1),
    ok (.laneReady .tu 1) (tuAt stDegraded [(laneFlags 1, 1)]) (fun t => t.tu.readyLanes = 2), ok (.laneNoticeRx .tu true (frame [4, 2, 0, 0, 0]).bytes) (tuAt stUp [(TRK.PORT_STAT_tx_lanes, 3)] { fullTx := 3 }) (fun t => t.trkF .tu TRK.PORT_STAT_tx_lanes = 2),
    ok (.uncorrectableLimit .tu 9) (tuAt stUp []) (fun t => t.pst .tu = stRecover && t.trkF .tu TRK.FEC_UNC_fec_unc = 9),
    ok (.recoverRx .tu (some (frame [5, 1, 0, 0, 0]))) (tuAt stUp [(TRK.PORT_STAT_sb_up, 1)]) (fun t => t.pst .tu = stRecover && t.outbox.getLast? = some (.sideband .tu 0 (frame [5, 2, 0, 0, 0]))),
    ok (.recoverRx .tu none) (tuAt stUp []) (fun t => t.pst .tu = stRecover && t.outbox = [.training .tu 5 []]), ok (.recoverComplete .tu) (tuAt stRecover []) (fun t => t.pst .tu = stUp && t.lu.replayWait), ok (.recoverTimeout .tu) (tuAt stRecover [] { recLink := true }) (fun t => t.pst .tu = stDown && t.trkF .tu TRK.PORT_CAUSE_cause = 9)].all id = true := by
  decide +kernel

theorem test_LinkEnds : [ok (.linkLoss .tu 4) (tuAt stDegraded []) (fun t => t.pst .tu = stDown && t.trkF .tu TRK.PORT_CAUSE_cause = 4 && t.trkF .tu TRK.PORT_CAUSE_state_at_down = stDegraded),
    ok (.linkLoss .tu 1) (tuAt stAlign [(TRK.PORT_STAT_failed, 8)]) (fun t => t.pst .tu = stDetect && t.trkF .tu TRK.PORT_STAT_failed = 8), ok (.downNoticeRx ⟨.tu, frame [7, 0, 0, 0, 0]⟩) (tuAt stUp []) (fun t => t.trkF .tu TRK.PORT_CAUSE_cause = 6),
    ok (.negotiateTimeout .tu) (tuAt stNegotiate []) (fun t => t.pst .tu = stDetect), ok (.downStateExpiry .tu) (tuAt stDown []) (fun t => t.pst .tu = stDisabled),
    ok (.downStateExpiry .tu) (tuAt stDown [(TRK.PORT_CFG_port_en, 1)]) (fun t => t.pst .tu = stDetect), ok (.sleepNoticeRx .tu (frame [6, 2, 0, 0, 0])) (tuAt stUp []) (fun t => t.tu.partnerSleep = 2),
    ok (.beaconSend .tu) (tuAt stDetect [(TRK.PORT_CFG_beacon_en, 1)]) (fun t => t.pst .tu = stBeacon && t.outbox = [.bay 0 "trunk: beacon on a pair" [1, 0]]),
    ok (.beaconSend .tu) (tuAt stDetect [(TRK.PORT_CFG_beacon_en, 1)] { medium := 2 }) (fun t => t.tu.txOn && t.outbox = [.pin "TU_SBTX" 0, .bay 0 "trunk: continuous light" [1]]),
    ok (.beaconAnswered .tu) (tuAt stBeacon [] { medium := 3 }) (fun t => t.pst .tu = stBeacon || t.pst .tu = stDetect), ok (.beaconAnswered .tu) (tuAt stBeacon [] { medium := 1 }) (fun t => t.pst .tu = stNegotiate),
    ok (.beaconTimeout .tu) (tuAt stBeacon []) (fun t => t.pst .tu = stDetect && t.rd 0x10 (HDR.raw TRK.ev_beacon_unanswered.bit) = 1)].all id = true := by decide +kernel


/-! ### The link layer, the Granary (R62–R147, R418–R420) -/

/-- A running native TU hop at hub address 3, with a link record and registers; credits for every class in both directions. -/
def hop (l : Link) (r : List (Nat × Fld × Nat) := []) (m : Nat := 3) : State :=
  { held ([(Pg.trk .tu, TRK.PORT_STAT_state, stUp), (Pg.trk .td, TRK.PORT_STAT_state, stUp), (Pg.trk .tu, TRK.PORT_STAT_mode, m), (Pg.chn, CHN.CHN_STAT_home_state, 1), (Pg.chn, CHN.CHN_STAT_addr, 3)] ++ r) with
    lu := { l with up := true, granted := ⟨9, 9, 9, 9, 9⟩, pLimits := ⟨9, 9, 9, 9, 9⟩ } }

/-- A sealed cell on the one pair in use, from its bytes. -/
def one (f : List Byte → List Byte) (c : Cell) : List (List Byte) := [f c.seal.bytes]

/-- The bytes of a sealed cell with one byte of its payload field flipped. -/
def spoilt (c : Cell) : List (List Byte) := one (·.set 16 0xFF) c

/-- A cell with a pattern in each field. -/
def patterned : Cell := { ctype := 0xA, cls := 1, ce := true, dhub := 63, dport := 6, shub := 2, sport := 7, tunnel := 0xABC, tseq := 0x1234, fst := true, vhc := 5, gen := 0x80, tag := 0xFFF, lseq := 0x555, hops := 3, len := 256 }

/-- R62, R63: the header words of a cell, bit by bit. -/
theorem test_CellHeader : [decide (patterned.w0 = 0xA6FD8270),
    decide (patterned.w1 = 0xABC1234C),
    decide (patterned.w2 = 0x1603FFC0),
    decide (patterned.w3 = 0x5550E000)].all id = true := by decide

/-- R30, R84: units of 8 bytes go to the two lanes in turn, here onto crossed pairs with the polarity of L1's receive pair inverted. -/
theorem test_LinkReceive_lanes : [decide (dealUnits 9 1 ((List.range 20).map (BitVec.ofNat 8)) = ((List.range 8).map (fun i => BitVec.ofNat 8 (8 + i)), ((List.range 8).map (BitVec.ofNat 8)) ++ [16, 17, 18, 19])),
    ok (.cellRx .tu [((dealUnits 99 0 (({ ctype := 9, len := 4 } : Cell).seal.abortBytes)).2).map (· ^^^ 0xFF), (dealUnits 99 0 (({ ctype := 9, len := 4 } : Cell).seal.abortBytes)).1])
      { hop {} [(Pg.trk .tu, TRK.PORT_STAT_rx_lanes, 3)] with tu := { laneMap := 24 } } (fun t => t.rd (Pg.lnk .tu) LNK.LNK_CNT0_aborts_rx = 1 && t.lu.rxUnit = 1)].all id = true := by decide +kernel

theorem test_LinkReceive : [ok (.cellRx .tu [({ ctype := 9, len := 4 } : Cell).seal.abortBytes]) (hop {}) (fun t => t.rd (Pg.lnk .tu) LNK.LNK_CNT0_aborts_rx = 1 && !t.lu.owedNak),
    ok (.cellRx .tu (spoilt { ctype := 0xB })) (hop {}) (fun t => t.rd (Pg.lnk .tu) LNK.LNK_CNT0_hop_crc = 1 && t.lu.owedNak && t.lu.replayWait),
    ok (.cellRx .tu [List.replicate 128 1]) (hop {} [] mdP1) (fun t => t.rd (Pg.lnk .tu) LNK.LNK_CNT6_p1_crc = 1 && t.lu.owedNak),
    ok (.cellRx .tu (one id { ctype := 4, dhub := 5, tunnel := 9, lseq := 7 })) (hop { rxCount := 6 }) (fun t => t.lu.owedNak && t.lu.rxCount = 6),
    ok (.cellRx .tu (one id { ctype := 4, dhub := 5, tunnel := 9, lseq := 7 })) (hop { rxCount := 7, replayWait := true }) (fun t => !t.lu.owedNak && t.lu.rxCount = 7 && t.gran.queues = []),
    ok (.cellRx .tu (one id { ctype := 7, dhub := 5, tunnel := 9, lseq := 7 })) (hop { rxCount := 7 }) (fun t => t.lu.rxCount = 8 && t.rd (Pg.lnk .tu) LNK.LNK_CNT3_hdr_err = 1 && t.lu.returned.m = 1),
    ok (.cellRx .tu (one id { ctype := 4, dhub := 5, tunnel := 9, lseq := 7, hops := 4, payload := [1, 2, 3] })) (hop { rxCount := 7 } [(Pg.trk .td, TRK.PORT_STAT_state, stRecover)])
      (fun t => t.lu.rxCount = 8 && (t.queue (classQ 1 0)).map (·.cell.payload) = [[1, 2, 3]]),
    ok (.cellRx .tu (one id { ctype := 4, dhub := 5, tunnel := 9, lseq := 7 })) (hop { rxCount := 7 } [(Pg.trk .tu, TRK.PORT_STAT_state, stRecover)]) (fun t => t.lu.rxCount = 7)].all id = true := by decide +kernel

/-- A link with one cell outstanding. -/
def sent1 : Link := { txCount := 5, ackCount := 4, store := [⟨4, { ctype := 4, dhub := 5 }, 0, none⟩] }

theorem test_AckAndReplay : [ok (.statusBlockRx .tu (4 * 4096) 0 1 2) (hop sent1) (fun t => t.lu.ackCount = 5 && t.lu.store = []), ok (.statusBlockRx .tu (5 * 4096) 0 1 2) (hop sent1) (fun t => t.lu.owedRetrain = some 3 && t.lu.ackCount = 4),
    ok (.statusSend .tu) (hop { owedNak := true }) (fun t => !t.lu.owedNak && t.rd (Pg.lnk .tu) LNK.LNK_CNT1_naks_tx = 1 && t.outbox.length = 1), ok (.statusSend .tu) (hop {}) (fun t => t.outbox.length = 1), ok (.statusSend .tu) (hop {} [] mdP1) (fun t => t.outbox.length = 3 && t.calPos .tu = 1),
    ok (.replayTimerExpiry .tu) (hop sent1 [(Pg.lnk .tu, LNK.RTT_rtt_ns, 500)]) (fun t => t.lu.owedRs = some 4 && t.rd (Pg.lnk .tu) LNK.LNK_CNT2_replays = 1),
    ok (.replayTimerExpiry .tu) (hop { sent1 with replayN := 4, replayBase := 4 } [(Pg.lnk .tu, LNK.RTT_rtt_ns, 500), (Pg.lnk .tu, LNK.LNK_CFG_replay_max, 4)]) (fun t => t.lu.owedRetrain = some 1 && t.rd (Pg.lnk .tu) LNK.LNK_STAT_rtr_cause = 1),
    ok (.statusTimeout .tu) (hop sent1) (fun t => t.lu.owedRetrain = some 2), ok (.statusTimeout .tu) (hop {}) (fun t => t.lu.owedRetrain = none),
    ok (.retrainReqRx ⟨.tu, 2⟩) (hop {}) (fun t => t.pst .tu = stRecover && t.trkF .tu TRK.LINK_CNT_recovers = 1 && t.rd (Pg.lnk .tu) LNK.LNK_STAT_rtr_cause = 2), ok (.retrainReqRx ⟨.tu, 2⟩) (hop { sinceRecover := true }) (fun t => t.pst .tu = stUp && t.rd (Pg.lnk .tu) LNK.LNK_STAT_rtr_cause = 2)].all id = true := by decide +kernel

theorem test_CreditsAndLimits : [ok (.creditBlockRx .tu [2, 0, 1, 0, 0, 0, 20, 21, 22, 23, 24]) (hop { sent := { m := 2, t := 1 } }) (fun t => t.lu.pReturned.m = 2 && t.lu.pReturned.t = 1 && t.lu.pLimits = ⟨20, 21, 22, 23, 24⟩),
    ok (.creditBlockRx .tu [0, 0, 2, 0, 0, 0, 20, 21, 22, 23, 24]) (hop { sent := { m := 2, t := 1 } }) (fun t => t.lu.pReturned.t = 0 && t.lu.pLimits = ⟨9, 9, 9, 9, 9⟩ && t.lu.owedRetrain = some 4),
    ok (.crdCfgWrite .tu 0x01000808) (hop {}) (fun t => t.rd (Pg.lnk .tu) (HDR.raw LNK.ev_cfg_err.bit) = 1 && t.rd (Pg.lnk .tu) LNK.CRD_CFG_g_share = LNK.CRD_CFG_g_share.rst),
    ok (.crdCfgWrite .tu 0x01000402) (hop {}) (fun t => t.rd (Pg.lnk .tu) LNK.CRD_CFG_rt_cells = 256 && t.rd (Pg.lnk .tu) LNK.CRD_LIM0_m_lim = 48 && t.rd (Pg.lnk .tu) LNK.CRD_LIM0_g_lim = 80)].all id = true := by decide +kernel

/-- A buffer with a cell. -/
def buf (n : Nat) (c : Cell) : Buf := ⟨n, c.seal, 15, 6, true, 0, 15⟩

theorem test_EgressSlots : [ok (.slotTransmit .tu .good) (hop { owedRetrain := some 2 }) (fun t => t.pst .tu = stRecover && t.lu.txCount = 1 && t.calPos .tu = 1),
    ok (.slotTransmit .tu .good) (hop { sent1 with replayAt := some 4 }) (fun t => t.lu.replayAt = none && t.lu.txCount = 5 && t.outbox.length = 1),
    ok (.slotTransmit .tu .good) { hop {} with gran := { queues := [(4096, [buf 3 { ctype := 0xB, dhub := 0, hops := 2 }]), (4098, [buf 4 { ctype := 4, cls := 2 }])] } }
      (fun t => t.queue 4096 = [] && t.lu.sent.m = 1 && t.lu.store.map (·.cell.hops) = [3]),
    ok (.slotTransmit .tu .good) (hop {} [(Pg.sch, SCH.CAL_STAT_pos 0, 4095)]) (fun t => t.outbox.length = 1 && t.lu.txCount = 0 && t.calPos .tu = 0),
    ok (.localEgressDequeue ⟨4, 0⟩ .good) (hop {}) (fun t => t.outbox = []),
    ok (.localEgressDequeue ⟨4, 0⟩ .good) { hop {} with gran := { queues := [(classQ 6 0, [buf 3 { ctype := 4, dhub := 3, payload := [7] }])] } } (fun t => t.queue (classQ 6 0) = [] && t.outbox.length = 1),
    ok (.slotTransmit .tu .good) (hop {} [] mdP1) (fun t => t.outbox.length = 3 && t.calPos .tu = 1),
    ok (.localEgressDequeue ⟨4, 0⟩ .good) { hop {} with gran := { queues := [(classQ 6 0, [buf 3 { ctype := 4, psn := true, dhub := 3, payload := [7] }])] } } (fun t => t.outbox = [.spoiled 6 .unperformed [({ ctype := 4, psn := true, dhub := 3, payload := [7] } : Cell).seal]]),
    ok (.localEgressDequeue ⟨4, 0⟩ .good) { hop {} with gran := { queues := [(classQ 6 0, [buf 3 { ctype := 0xA, tunnel := 1, dhub := 3, payload := [0x1C] }])] } } (fun t => t.outbox = [] && t.rd (Pg.lnk (portOf 15)) LNK.LNK_CNT3_hdr_err = 1)].all id = true := by decide +kernel

theorem test_QueuesAndGleaner : [ok (.reseqTimeout 20 0 0 0) { hop {} with gran := { rsqs := [(0x100000 + 40, { code := 2, exp := 5, held := [⟨3, { ctype := 4, tunnel := 20, tseq := 7 }, 2, 6, true, 0, 15⟩] })] } }
      (fun t => t.rd (Pg.lnk .tu) LNK.RSQ_GAP_gap_tseq = 5 && t.rd (Pg.lnk .tu) LNK.RSQ_GAP_gap_tunnel = 20 && (t.rsq (0x100000 + 40)).map (·.exp) = some 8),
    ok (.queuePointerMismatch 4098 1) { hop {} with gran := { queues := [(4098, [buf 4 { ctype := 4, cls := 2, dhub := 5, shub := 9, tunnel := 30 }])] } }
      (fun t => t.queue 4098 = [] && t.rd Pg.grn GRN.QRST_queue = 4098 && t.rd Pg.erl ERL.ERL_STAT_next_seq = 1 && Tab.find 4098 t.gran.incs = some 1),
    ok (.queuePointerMismatch 4128 1) (hop {}) (fun t => t.rd Pg.grn GRN.QRST_resets = 0),
    ok .gleanerSweepStep { hop {} with gran := { stale := [(4098, 0, buf 4 {})] } } (fun t => t.gran.stale.length = 1 && t.gran.sweep = 1),
    ok .gleanerSweepStep { hop {} with gran := { sweep := 3, stale := [(4098, 0, buf 4 {})] } } (fun t => t.gran.stale = [] && t.gran.sweep = 4 && t.rd Pg.grn GRN.GLN_RECL_reclaimed = 1),
    ok .gleanerPassEnd { hop {} [(Pg.grn, GRN.RES_in_use 4, 7)] with gran := { stopped := [4098] } } (fun t => t.gran.stopped = [] && t.rd Pg.grn (GRN.RES_in_use 4) = 0 && t.rd Pg.grn GRN.GLN_RECL_acct_fix = 1),
    ok .gleanerFullPass (hop {}) (fun t => t.rd Pg.grn GRN.GLN_STAT_busy = 1)].all id = true := by decide +kernel

theorem test_AccountsAndReserves : [ok (.accountLimitsWrite 4 0x00100020) (hop {}) (fun t => t.rd Pg.grn (GRN.LIMITS_floor 4) = 16 && t.rd Pg.grn (GRN.LIMITS_ceiling 4) = 32 && t.rd Pg.grn (GRN.RES_reserve 4) = 16),
    ok (.accountLimitsWrite 4 0x00200010) (hop {}) (fun t => t.rd Pg.grn (GRN.LIMITS_floor 4) = (GRN.LIMITS_floor 4).rst && t.rd Pg.grn (HDR.raw GRN.ev_cfg_err.bit) = 1),
    ok (.accountLimitsWrite 9 0x00100020) (hop {}) (fun t => t.rd Pg.grn (GRN.LIMITS_floor 9) = (GRN.LIMITS_floor 9).rst),
    ok (.reserveWrite 5 0) (hop {} [(Pg.grn, GRN.LIMITS_floor 5, 10), (Pg.grn, GRN.LIMITS_ceiling 5, 20)]) (fun t => t.rd Pg.grn (GRN.RES_reserve 5) = 10 && t.rd Pg.grn GRN.PLC_PIN_pin = 2),
    ok .placementLoop { hop {} [(Pg.grn, GRN.PLC_CFG_hold, 0), (Pg.grn, GRN.PLC_CFG_headroom, 8), (Pg.grn, GRN.LIMITS_ceiling 4, 5000)] with gran := { peaks := [(4, 3000)], plcEpochs := 65535 } } (fun t => t.rd Pg.grn (GRN.RES_reserve 4) = 4500),
    ok .placementLoop { hop {} [(Pg.grn, GRN.PLC_CFG_hold, 1)] with gran := { peaks := [(4, 3000)], plcEpochs := 65535 } } (fun t => t.gran.plcEpochs = 0 && t.gran.peaks = [(4, 3000)]),
    ok .placementLoop { hop {} with gran := { peaks := [(4, 3000)] } } (fun t => t.gran.peaks = [(4, 3000)])].all id = true := by decide +kernel

/-- A state whose K10 is valid. -/
def keyed (l : Link) : State := { hop l with larder := { slots := [(1, { valid := true, kind := 2 }), (10, { valid := true, kind := 4, parent := 1 })] } }

/-- A HOP_MAC for link count 5 with the right tag of a cell that is held. -/
def goodMac (s : State) (raw : List Byte) : List Byte := [7, 0, 0, 0, 5, 0, 0, 0] ++ hopTag (s.keyValue (hopSlot .tu)) (s.peerD .tu) 5 raw

/-- R419: a message with the right tag exists for every held cell. -/
theorem test_HopKeys_good_tag : let s := hop { macHeld := [(5, ({ ctype := 4 } : Cell).body, 0)] }
    s.hopRuns .tu = true ∧ (s.link .tu).macHeld = [(5, ({ ctype := 4 } : Cell).body, 0)] ∧ (s.link .tu).macCut = [] ∧ ∀ raw,
      numAt (goodMac s raw) 4 4 = 5 ∧ bitOf (numAt (goodMac s raw) 1 1) 0 = 0 ∧ ((goodMac s raw).drop 8).take 16 = hopTag (s.keyValue (hopSlot .tu)) (s.peerD .tu) 5 raw :=
  ⟨by decide +kernel, rfl, rfl, fun _ => ⟨rfl, rfl, by simp [goodMac, hopTag, List.take_take]⟩⟩

theorem test_HopKeys : [ok (.kxHelloRx .tu (5 :: 3 :: List.replicate 30 0)) (keyed { kx := 1 }) (fun t => t.lu.kx = 3 && t.rd Pg.lrd (hopStat .tu) = 3),
    ok (.kxHelloRx .tu ([5, 3] ++ List.replicate 26 0 ++ (keyed {}).keyId)) (keyed { kx := 1 }) (fun t => t.lu.hopCtl.length = 1 && t.keyOk 12),
    ok (.kxConfirmRx .tu []) { keyed { kx := 1 } with larder := { slots := [(12, { valid := true, kind := 2 })] } } (fun t => t.lu.kx = 3), ok (.kxTimeout .tu) (hop { kx := 1 }) (fun t => t.lu.kx = 3),
    ok (.kxTimeout .tu) (hop { kx := 2 }) (fun t => t.lu.kx = 2), ok (.hopMacRx .tu [7, 0, 0, 0, 5, 0, 0, 0]) (hop {}) (fun t => t.rd Pg.lrd LRD.LRD_CNT1_mac_fail = 0),
    ok (.hopMacRx .tu [7, 0, 0, 0, 5, 0, 0, 0]) (hop { macHeld := [(5, ({ ctype := 4 } : Cell).body, 0)] }) (fun t => t.lu.macHeld = [] && t.rd Pg.lrd LRD.LRD_CNT1_mac_fail = 1),
    ok (.hopMacTimeout .tu) (hop { macHeld := [(5, ({ ctype := 4 } : Cell).body, 0)] }) (fun t => t.lu.macHeld = [] && t.rd Pg.lrd LRD.LRD_CNT1_mac_fail = 1)].all id = true := by decide +kernel

/-! ### Chains (R91–R123) -/

/-- A homed hub at address 3 whose home has device ID 77. -/
def hub3 (l : List (Nat × Fld × Nat)) (ch : Chain := {}) : State :=
  { held ([(Pg.chn, CHN.CHN_STAT_home_state, 1), (Pg.chn, CHN.CHN_STAT_addr, 3), (Pg.chn, CHN.HOME_ID_LO_home_id_lo, 77)] ++ l) with chain := ch }

/-- A head that is home of chain C0. -/
def home0 (l : List (Nat × Fld × Nat)) (h : HeadChain := {}) (ch : Chain := {}) : State :=
  { headHeld ([(Pg.chn, CHN.CHN_STAT_home_state, 1), (Pg.chn, CHN.CHN_STAT_addr, 0)] ++ l) with chain := { ch with c0 := { h with home := true } } }

/-- A chain-control cell. -/
def cc (tunnel code seq : Nat) (args : List Byte) (shub : Nat := 0) (hops : Nat := 0) : Cell := { ctype := 0xA, tunnel := tunnel, dhub := if tunnel = 1 then 63 else 0, shub := shub, hops := hops, payload := chainPayload code seq 32 args }

/-- A directory entry. -/
def de : DirEnt := ⟨9, 0, 0, 0, 1, 0, true⟩

theorem test_HomeLossAndRehome : [ok (.heartbeatRx .tu (cc 1 0x13 0 (leBytes 4 9 ++ leBytes 8 77 ++ [5, 1, 0, 0, 0, 0, 0, 0] ++ leBytes 8 99))) (hub3 [(Pg.chn, CHN.CHN_STAT_hb_missed, 4)]) (fun t => t.rd Pg.chn CHN.CHN_STAT_hb_missed = 0 && t.chain.hbSeen && t.chain.homePrio = 5 && t.chain.standbyId = 99),
    ok (.heartbeatRx .tu (cc 1 0x13 0 (leBytes 4 9 ++ leBytes 8 78))) (hub3 []) (fun t => t.rd Pg.chn CHN.CHN_STAT_foreign = 1),
    ok .hbMiss (hub3 [(Pg.chn, CHN.CHN_STAT_hb_missed, 8), (Pg.trk .td, TRK.PORT_STAT_state, stUp), (Pg.trk .td, TRK.PORT_STAT_role, 1)] { hbSeen := true }) (fun t => !t.homed && t.addr = 3 && t.gran.waiting.map (·.code) = [1]),
    ok .hbMiss (hub3 [(Pg.chn, CHN.CHN_STAT_hb_missed, 7)] { hbSeen := true }) (fun t => t.homed), ok .hbFirstTimeout (hub3 []) (fun t => !t.homed), ok .hbFirstTimeout (hub3 [] { hbSeen := true }) (fun t => t.homed),
    ok .hbMiss { headHeld [] with chain := { c1 := { standby := true, hbSeen := true, missed := 8 } } } (fun t => t.chain.c1.home && !t.chain.c0.home && t.rd Pg.chn (CHN.CHAIN_STAT_state 1) = 1 && t.rd Pg.chn (HDR.raw CHN.ev_hb_miss.bit) = 1),
    ok .hbMiss { headHeld [] with chain := { c0 := { standby := true, hbSeen := true, missed := 8 }, c1 := { standby := true, hbSeen := true, missed := 8 } } } (fun t => t.chain.c0.home && t.chain.c1.home),
    ok .hbMiss { headHeld [] with chain := { c1 := { standby := true, hbSeen := true, missed := 7 } } } (fun t => !t.chain.c0.home && !t.chain.c1.home),
    ok .hbFirstTimeout { headHeld [] with chain := { firstWait := [1, 0], c0 := { standby := true }, c1 := { standby := true } } } (fun t => t.chain.c1.home && !t.chain.c0.home),
    ok (.heartbeatRx .tu (cc 1 0x13 0 (leBytes 4 9 ++ leBytes 8 77 ++ [5, 1, 0, 0, 0, 0, 0, 0] ++ leBytes 8 99))) { headHeld [] with chain := { c0 := { missed := 2, standby := true }, c1 := { missed := 3, standby := true, homeId := 77 } } }
      (fun t => t.chain.c1.missed = 0 && t.chain.c1.hbSeen && !t.chain.c0.hbSeen && t.chain.homePrio = 5 && t.rd Pg.chn CHN.CHN_STAT_hb_missed = 2),
    ok .hbFirstTimeout { headHeld [] with chain := { c0 := { standby := true } } } (fun t => t.chain.c0.home && t.addr = 0), ok (.homeLostRx .tu (cc 1 0x14 0 [])) (hub3 []) (fun t => !t.homed && t.addr = 3),
    ok (.rehomeRx .td (cc 1 0x15 6 (leBytes 8 55 ++ [4, 1]) 0 5)) (held []) (fun t => t.homed && t.addr = 5 && t.homeId = 55 && t.tuRole = .td),
    ok (.enumRx .tu (cc 1 0x10 6 (leBytes 8 55 ++ [4, 0]) 0 2)) (held []) (fun t => t.homed && t.addr = 2 && t.tuRole = .tu),
    ok (.enumRx .tu (cc 1 0x10 6 (leBytes 8 55 ++ [4, 0]) 0 2)) { held [] with lu := { kx := 1 } } (fun t => t.chain.replyDue = some 6),
    ok (.rehomeAckRx .td (cc 2 0x16 0 (leBytes 8 44) 4)) (home0 []) (fun t => (Tab.find 4 t.chain.c0.dir).map (·.id) = some 44 && t.rd Pg.chn (CHN.CHAIN_STAT_state 0) = 2),
    ok (.rehomeAckRx .td (cc 2 0x16 0 (leBytes 8 44 ++ [3]) 4)) (home0 []) (fun t => (Tab.find 5 t.chain.c0.dir).map (·.id) = some 44 && (Tab.find 4 t.chain.c0.dir).isNone),
    ok (.homeLostRx .td (cc 1 0x14 0 [])) { headHeld [] with chain := { c0 := { standby := true } } } (fun t => t.chain.c0.home && !t.chain.c0.standby),
    ok (.standbyHelloRx .td (cc 2 0x1A 0 (leBytes 8 44))) (home0 []) (fun t => t.chain.c0.standbyId = 44 && t.rd Pg.chn (CHN.CHAIN_STAT_standby 0) = 1)].all id = true := by decide +kernel

theorem test_Enumeration : [ok (.enumReplyRx .td (cc 2 0x11 0 (leBytes 8 44) 1)) (home0 [] { waiting := true }) (fun t => (Tab.find 1 t.chain.c0.dir).map (·.id) = some 44 && t.rd Pg.chn (HDR.raw 0) = 1),
    ok (.enumReplyRx .td (cc 2 0x11 0 (leBytes 8 44 ++ [0, 0, 0, 0, 0, 0, 1]) 1)) (home0 [] { waiting := true }) (fun t => t.chain.c0.waiting && t.rd Pg.chn (HDR.raw 0) = 0),
    ok (.enumResend 0) (home0 [] { waiting := true, resends := 2 }) (fun t => t.chain.c0.resends = 3 && t.chain.c0.waiting), ok (.enumResend 0) (home0 [] { waiting := true, resends := 3 }) (fun t => t.rd Pg.chn (HDR.raw 1) = 1 && !t.chain.c0.waiting),
    decide ((({ home0 [] with td := { isP1200 := true } } : State).enumNext 0).rd Pg.chn (HDR.raw CHN.ev_enum_fail.bit) = 1 ∧ (({ home0 [] with td := { isP1200 := true } } : State).enumNext 0).outbox = []),
    ok (.enumRx .tu (cc 1 0x10 6 (leBytes 8 77 ++ [4, 0]) 0 2)) { hub3 [(Pg.trk .td, TRK.PORT_STAT_state, stUp)] with td := { isP1200 := true, serial := 9 } } (fun t => t.td.assigned && t.outbox = [.training .td 7 [4]] && t.addr = 3),
    ok (.enumResend 0) (home0 []) (fun t => t.rd Pg.chn (HDR.raw 1) = 0),
    ok .tdUpSend { hub3 [(Pg.trk .td, TRK.PORT_STAT_state, stUp), (Pg.trk .tu, TRK.PORT_STAT_state, stUp), (Pg.trk .td, TRK.PORT_STAT_role, 1)] { tdUpDue := true } with td := { partner := some { modes := 1, lanes := 3, media := 1, head := false, seq := 0 } } }
      (fun t => !t.chain.tdUpDue && t.gran.waiting.map (fun b => b.buf.cell.payload.take 5) = [[0x12, 0, 0, 0, 1]]),
    ok (.tdUpRx .td (cc 2 0x12 0 [1] 2)) (home0 []) (fun t => t.chain.c0.waiting), ok (.tdUpRx .td (cc 2 0x12 0 [3] 2)) (home0 [] { dir := [(2, de)] }) (fun t => t.rd Pg.chn (CHN.CHAIN_STAT_standby 0) = 1),
    ok (.tdUpRx .td (cc 2 0x12 0 [4] 2)) (home0 []) (fun t => t.chain.c0.boundaryAt = 2), ok .reenumApply (hub3 [] { armed := [⟨1, 6, 0, 5⟩] }) (fun t => !t.homed && t.chain.armed = []),
    ok .reenumApply (home0 [] { dir := [(1, de), (2, de)] } { armed := [⟨1, 6, 2, 5⟩] }) (fun t => t.chain.c0.dir.map (·.1) = [1]), ok .reenumApply (hub3 []) (fun t => t.homed)].all id = true := by decide +kernel

/-- A time cell with a time from the home. -/
def timeCell (t : Nat) : Cell := { ctype := 0xC, tunnel := 3, dhub := 63, payload := leBytes 8 t ++ [0, 0, 0, 0, 2, 0, 0, 0] ++ leBytes 8 77 }

/-- A round trip of 200 ns: the home's time is 100 ns old as it arrives (R102). -/
def rtt200 : List (Nat × Fld × Nat) := [(Pg.lnk .tu, LNK.RTT_rtt_ns, 200)]

theorem test_ChainTime : [ok (.timeCellRx .tu (timeCell 4905)) (hub3 rtt200 { time := 5000, lockCnt := 15 }) (fun t => t.rd Pg.ctim CTIM.OFFSET_offset = 5 && t.chain.slew = 5000000000 && t.on Pg.ctim CTIM.CTIM_STAT_locked),
    ok (.timeCellRx .tu (timeCell 3900)) (hub3 rtt200 { time := 5000 }) (fun t => t.rd Pg.ctim CTIM.OFFSET_offset = 2 ^ 32 - 1000 && t.chain.slew = -1000000000000), ok (.timeCellRx .tu (timeCell 8900)) (hub3 rtt200 { time := 5000 }) (fun t => t.chain.pendStep = some 4000 && t.chain.slew = 0),
    ok (.timeCellRx .tu (timeCell 4905)) (hub3 [] { time := 5000 }) (fun t => t.rd Pg.ctim CTIM.OFFSET_offset = 0 && t.chain.slew = 0),
    ok (.timeCellRx .tu { timeCell 9000 with payload := [] }) (hub3 []) (fun t => t.rd Pg.chn CHN.CHN_STAT_foreign = 1), ok .ctimSetGo (home0 []) (fun t => t.chain.setDue), ok .ctimSetGo (hub3 []) (fun t => !t.chain.setDue),
    ok (.epochBoundary 1 2 0 true) (hub3 [] { time := 126000 }) (fun t => t.chain.time = 250000 && t.rd Pg.swc SWC.CAP_STAT_wr_wait = 2),
    ok .setEpochApply { hub3 [] { armed := [⟨1, 4, 3, 5⟩] } with sched := { nxt := some {} } } (fun t => t.rd Pg.ctim CTIM.CTIM_CFG_epoch_code = 3 && t.sched.nxt = none), ok .setEpochApply (hub3 []) (fun t => t.rd Pg.ctim CTIM.CTIM_CFG_epoch_code = 2),
    decide ((hub3 [] { time := 5000, pendStep := some (-1000) }).timeStep.chain.time = 4000), decide ((hub3 [(Pg.ctim, CTIM.CTIM_STAT_free, 0)] { time := 5000, slew := 1000 * 10 ^ 9 }).timeStep.chain.time = 5006 ∧ (hub3 [(Pg.ctim, CTIM.CTIM_STAT_free, 0)] { time := 5000, slew := 1000 * 10 ^ 9 }).timeStep.chain.frac = 250000000),
    decide ((hub3 [(Pg.ctim, CTIM.CTIM_STAT_free, 1)] { time := 5000, freq := 8, frac := 999000000 }).timeStep.chain.time = 5001)].all id = true := by decide +kernel

theorem test_HandoverAndGasp : [ok (.handoverRequest 0) (hub3 []) (fun t => t.rd Pg.chn CHN.HANDOVER_status = 0), ok (.handoverRequest 0) (headHeld []) (fun t => t.rd Pg.chn CHN.HANDOVER_status = 4),
    ok (.handoverRequest 0) { headHeld [] with chain := { c0 := { standby := true } } } (fun t => t.rd Pg.chn CHN.HANDOVER_status = 1 && t.chain.reqChain = 1), ok .arbitrationWindowEnd (home0 []) (fun t => t.chain.go = none),
    ok .arbitrationWindowEnd (home0 [] {} { reqChain := 1, time := 5 }) (fun t => t.chain.go.map (·.tgo) = some 625000),
    ok (.handoverReqRx .td (cc 2 0x17 0 (leBytes 8 44 ++ [9]))) (home0 [] {} { reqChain := 1 }) (fun t => t.rd Pg.chn CHN.HANDOVER_status = 3 && t.chain.reqChain = 0),
    ok (.handoverReqRx .td (cc 2 0x17 0 (leBytes 8 44 ++ [7]))) (home0 [] {} { reqChain := 1 }) (fun t => t.chain.reqChain = 1), ok (.handoverNakRx .td (cc 2 0x19 0 [])) (home0 [] {} { reqChain := 1 }) (fun t => t.chain.reqChain = 0),
    ok (.handoverGoRx .tu (cc 1 0x18 0 (leBytes 8 77 ++ [8, 0, 0, 0] ++ leBytes 8 1000))) (hub3 []) (fun t => t.chain.go.map (·.tgo) = some 1000), ok (.handoverGoRx .tu (cc 1 0x18 0 (leBytes 8 78))) (hub3 []) (fun t => t.chain.go = none && t.rd Pg.chn CHN.CHN_STAT_foreign = 1),
    ok .handoverAtTGo (hub3 [] { go := some ⟨0, 78, 8, 9⟩ }) (fun t => !t.homed), ok .handoverAtTGo (hub3 [] { go := some ⟨0, 77, 8, 9⟩ }) (fun t => t.homed && t.chain.go = none),
    ok (.handoverReqRx .tu (cc 2 0x17 9 (leBytes 8 77 ++ [9]))) (hub3 [(Pg.trk .tu, TRK.PORT_STAT_state, stUp)] { goDone := some ⟨0, 78, 8, 9⟩ }) (fun t => t.gran.waiting.map (fun w => w.buf.cell.payload.take 12) = [[0x19, 0, 9, 0] ++ leBytes 8 78]),
    ok .handoverAtTGo (home0 [] { dir := [(1, de)] } { go := some ⟨0, 5, 8, 9⟩ }) (fun t => !t.chain.c0.home && t.chain.c0.standby && t.chain.c0.dir = []),
    ok .handoverAtTGo (home0 [(Pg.chn, CHN.CHN_CFG_standby_en, 0)] {} { go := some ⟨0, 5, 8, 9⟩ }) (fun t => !t.chain.c0.home && !t.chain.c0.standby),
    ok (.handoverRequest 0) (home0 []) (fun t => t.rd Pg.chn CHN.HANDOVER_status = 4),
    ok .handoverAtTGo (home0 [] {} { go := some ⟨0, 0, 8, 9⟩, reqChain := 1 }) (fun t => t.rd Pg.chn CHN.HANDOVER_status = 2), ok .handoverAtTGo (hub3 []) (fun t => t.homed),
    ok .dyingGaspRepeat (hub3 [(Pg.trk .tu, TRK.PORT_STAT_state, stUp)] { gaspLeft := 2 }) (fun t => t.chain.gaspLeft = 1 && t.rd Pg.chn (HDR.raw 12) = 1), ok .dyingGaspRepeat (hub3 []) (fun t => t.rd Pg.chn (HDR.raw 12) = 0),
    ok (.dyingGaspRx .td (cc 2 0x1B 0 (leBytes 8 5 ++ [3, 0, 0, 0] ++ leBytes 8 900) 7)) (home0 []) (fun t => t.rd Pg.chn CHN.GASP_LOG1_gasp_addr = 7 && t.rd Pg.chn CHN.GASP_LOG1_gasp_cause = 3 && t.rd Pg.chn CHN.GASP_LOG2_gasp_time = 900 && t.chain.c0.gasps = [(7, 0)])].all id = true := by decide +kernel

/-- CMD with a command, an argument and a t_go. -/
def cmd (n arg t : Nat) : Cell := cc 1 0x20 4 (leBytes 1 n ++ [0] ++ leBytes 2 arg ++ leBytes 8 t)

theorem test_ChainCommands : [ok (.cmdPing 0x3F010000) (hub3 []) (fun t => t.rd Pg.chn CHN.CMD_STAT_st = 0), ok (.cmdHubReset 0x02050000) (home0 []) (fun t => t.rd Pg.chn CHN.CMD_STAT_st = 3 && t.rd Pg.chn CHN.CMD_STAT_cause = 0x11),
    ok (.cmdSetEpoch 0x3F040003) (home0 [(Pg.chn, CHN.CMD_TIME_LO_t_go_lo, 5000000)] { dir := [(1, de)] }) (fun t => t.rd Pg.chn CHN.CMD_STAT_st = 1 && t.chain.cmdWait = [1] && t.chain.armed.map (·.arg) = [3]),
    ok (.cmdSleepP3 0x01030000) (home0 [(Pg.chn, CHN.CMD_TIME_LO_t_go_lo, 5000000)] { dir := [(1, de), (2, de)] }) (fun t => t.rd Pg.chn CHN.CMD_STAT_cause = 0x10 && t.rd Pg.chn CHN.CMD_STAT_first_bad = 1),
    ok (.cmdSleepP2 0x3F020000) (home0 [(Pg.chn, CHN.CMD_TIME_LO_t_go_lo, 5000000)]) (fun t => t.rd Pg.chn CHN.CMD_STAT_st = 1 && t.chain.cmdCode = 2), ok (.cmdReenum 0x01060000) (home0 [(Pg.chn, CHN.CMD_TIME_LO_t_go_lo, 5000000)]) (fun t => t.chain.cmdWait = [1]),
    ok (.cmdRx .tu (cmd 5 0 900)) (hub3 []) (fun t => t.chain.armed.map (·.cmd) = [5]), ok (.cmdRx .tu (cmd 9 0 900)) (hub3 []) (fun t => t.chain.armed = []), ok (.cmdRx .tu (cmd 5 0 900)) (hub3 [] { time := 901 }) (fun t => t.chain.armed = []),
    ok (.cmdRx .tu (cmd 3 0 900)) (hub3 []) (fun t => t.rd Pg.pws PWS.PWS_STAT_refuse = 3 && t.rd Pg.pws PWS.SLEEP_CNT_refusals = 1), ok (.cancelRx .tu (cc 1 0x22 4 [])) (hub3 [] { armed := [⟨4, 5, 0, 9⟩] }) (fun t => t.chain.armed = []),
    ok (.cmdAckRx .td (cc 2 0x21 4 [0] 2)) (home0 [(Pg.chn, CHN.CMD_STAT_st, 1)] {} { cmdChain := 1, cmdSeq := 4, cmdWait := [2], cmdCode := 5 }) (fun t => t.rd Pg.chn CHN.CMD_STAT_st = 2 && t.rd Pg.chn CHN.CMD_STAT_acked = 1),
    ok (.cmdAckRx .td (cc 2 0x21 4 [2] 2)) (home0 [(Pg.chn, CHN.CMD_STAT_st, 1)] {} { cmdChain := 1, cmdSeq := 4, cmdWait := [2, 3], cmdCode := 5 }) (fun t => t.rd Pg.chn CHN.CMD_STAT_st = 3 && t.rd Pg.chn CHN.CMD_STAT_first_bad = 2),
    ok .cmdTimeout (home0 [(Pg.chn, CHN.CMD_STAT_st, 1)] {} { cmdChain := 1, cmdWait := [5, 3], cmdCode := 1 }) (fun t => t.rd Pg.chn CHN.CMD_STAT_first_bad = 3 && t.rd Pg.chn CHN.CMD_STAT_cause = 0x12), ok .cmdTimeout (home0 []) (fun t => t.rd Pg.chn CHN.CMD_STAT_st = 0)].all id = true := by decide +kernel

/-! ### Tunnels, reports and tables (R150–R178) -/

/-- TUN_SEL and TUN_DATA0–3. -/
def tunRegs (n w0 w2 w3 : Nat) : List (Nat × Fld × Nat) := [(Pg.tun0, TUN.TUN_SEL_tunnel, n), (Pg.tun0, TUN.TUN_DATA_data 0, w0), (Pg.tun0, TUN.TUN_DATA_data 2, w2), (Pg.tun0, TUN.TUN_DATA_data 3, w3)]

/-- R150: a T-class half from hub 1's bay to the head. -/
def tHalf : Nat := 2 ^ 31 + 2 * 2 ^ 29 + 1 * 2 ^ 22 + 1 * 2 ^ 18 + 8 * 2 ^ 8 + 5 * 4

theorem test_TunnelEntries : [ok .tunWrite (hub3 []) (fun t => t.rd Pg.tun0 TUN.TUN_STAT_result = 0xC), ok .tunRead (hub3 []) (fun t => t.rd Pg.tun0 TUN.TUN_STAT_result = 0xC),
    ok .tunDelete (home0 [(Pg.tun0, TUN.TUN_STAT_busy, 1)]) (fun t => t.rd Pg.tun0 TUN.TUN_STAT_result = 1), ok .tunWriteParams (home0 (tunRegs 15 0 0 0)) (fun t => t.rd Pg.tun0 TUN.TUN_STAT_result = 2 && t.rd Pg.alt ALT.ALT_CNT_refusals = 1),
    ok .tunRead { home0 (tunRegs 20 0 0 0) with sched := { cfg := [(20, { w0 := tHalf })] } } (fun t => t.rd Pg.tun0 (TUN.TUN_DATA_data 0) = tHalf),
    ok .tunWrite (home0 (tunRegs 20 tHalf 0 0) { dir := [(1, de)] }) (fun t => (t.cfgEnt 20).w0 = tHalf && t.sched.op.isSome), ok .tunDelete { home0 (tunRegs 20 0 0 0) with sched := { cfg := [(20, { w0 := tHalf })] } } (fun t => t.sched.cfg = []),
    ok .tunWrite { held (tunRegs 20 tHalf 0 0) with mode := .standalone } (fun t => t.half 20 0 = tHalf && t.bit1 TUN1.VALID0_valid0 20),
    ok (.tunnelEntryMsgRx .tu { tunnel := 6, ctype := 0xA, dhub := 3, payload := [1, 0, 7, 0, 20, 0, 0, 0] ++ leBytes 4 tHalf }) (hub3 []) (fun t => t.half 20 0 = tHalf && t.bit1 TUN1.VALID0_valid0 20 && t.rd Pg.tun0 (HDR.raw 3) = 1),
    ok (.tunnelEntryMsgRx .tu { tunnel := 6, ctype := 0xA, dhub := 3, payload := [1, 0, 7, 0, 20, 0, 0, 0] ++ leBytes 4 (tHalf + 3 * 4096) }) (hub3 [(Pg.trk .tu, TRK.PORT_STAT_state, stUp)]) (fun t => t.half 20 0 = 0 && (t.gran.waiting.map (fun x => x.buf.cell.payload.drop 4 |>.take 1)) = [[1]]),
    ok .tunWrite { held (tunRegs 20 (tHalf + 8 * 2 ^ 18) 0 0) with mode := .standalone } (fun t => t.half 20 0 = 0 && t.rd Pg.tun0 TUN.TUN_STAT_result = 3),
    ok .tunWrite { home0 ([(Pg.vhc 5, VHC.DIR_CFG_cfg 2, 2 ^ 31), (Pg.vhc 5, VHC.DIR_TUN_tun 2, 20)] ++ tunRegs 20 (tHalf + 2 ^ 29) 0 0) { dir := [(1, de)] } with sched := { cfg := [(20, { w0 := tHalf })] } } (fun t => (t.cfgEnt 20).w0 = tHalf && t.rd Pg.tun0 TUN.TUN_STAT_result = 7),
    ok (.tunnelEntryMsgRx .td { tunnel := 6, ctype := 0xA, dhub := 3, payload := [1, 0, 7, 0, 20, 0, 0, 0] ++ leBytes 4 tHalf }) (hub3 []) (fun t => t.half 20 0 = 0 && t.rd Pg.chn CHN.CHN_STAT_foreign = 1),
    ok (.tunnelEntryMsgRx .tu { tunnel := 6, ctype := 0xA, dhub := 3, payload := [9, 0, 7, 0, 20, 0, 0, 0] ++ leBytes 4 tHalf }) (hub3 []) (fun t => t.half 20 0 = 0 && t.gran.waiting = []),
    ok (.tunnelEntryMsgRx .tu { tunnel := 6, ctype := 0xA, dhub := 3, payload := [2, 0, 7, 0, 20, 0, 0, 0] }) { hub3 [] with sched := { tun := [(20, { w0 := tHalf })] } } (fun t => t.sched.tun = []),
    ok (.tunnelEntryAnswerRx .td { tunnel := 5, ctype := 0xA, shub := 1, payload := [0x81, 0, 7, 0, 0] }) { home0 [] {} with sched := { op := some { step := ⟨false, 0, 20, tHalf⟩, phase := 2, wait := [(1, 7)] } } } (fun t => t.sched.op = none && t.half 20 0 = tHalf),
    ok .tunnelEntryResend { home0 [] with sched := { op := some { step := ⟨false, 0, 20, tHalf⟩, phase := 2, wait := [(1, 7)] } } } (fun t => t.sched.op.map (·.resends) = some 1),
    ok .tunnelEntryResend { home0 [] with sched := { op := some { step := ⟨false, 0, 20, tHalf⟩, phase := 2, wait := [(5, 7)], resends := 3 } } } (fun t => t.rd Pg.tun0 TUN.TUN_FAIL_hub = 5 && t.sched.op = none),
    ok .tunnelDeleteWaitEnd { home0 [] with sched := { op := some { step := ⟨true, 0, 20, tHalf⟩, phase := 3, wait := [(64, 0)] } } } (fun t => t.sched.op = none)].all id = true := by decide +kernel

/-- R167: a table of one part with the given version, base, epoch and flags. -/
def tbl (ver base epoch flags : Nat) (recs : List Nat) : List Byte := leBytes 2 ver ++ leBytes 2 base ++ leBytes 4 epoch ++ [0x10] ++ leBytes 1 flags ++ leBytes 2 recs.length ++ [0, 0, 0, 0] ++ recs.flatMap (leBytes 4)

theorem test_ReportsAndTables : [ok (.demandReportRx .td 2 (leBytes 4 5 ++ leBytes 2 9 ++ [0, 0])) (home0 []) (fun t => (Tab.find 2 t.sched.reports).map (·.ver) = some 9),
    ok (.linkReportRx .td { tunnel := 5, ctype := 0xB, shub := 2, payload := [0x45, 5, 0x80, 0x3F] ++ leBytes 4 700 }) (home0 []) (fun t => (Tab.find 4 t.sched.links).map (fun x => (x.mode, x.rx, x.rtt)) = some (3, 3, 700)),
    ok (.allotterCompute 0) (hub3 []) (fun t => t.sched.tablesDue = []), ok (.allotterCompute 0) (home0 []) (fun t => t.sched.tablesDue = [0]),
    ok (.allotmentTableRx .tu ⟨0, (tbl 7 0xFFFF 4 1 [20 * 2 ^ 20 + 5])⟩) (hub3 []) (fun t => t.sched.nxt.map (fun b => (b.ver, b.per)) = some (7, [(40, 5)]) && t.rd Pg.sch SCH.BANK_NEXT_pending = 1 && t.rd Pg.sch SCH.SWAP_EPOCH_swap_epoch = 4),
    ok (.allotmentTableRx .tu ⟨0, (tbl 7 0xFFFF 0 1 [])⟩) (hub3 []) (fun t => t.sched.nxt = none && t.rd Pg.sch (HDR.raw SCH.ev_tbl_late.bit) = 1), ok (.allotmentTableRx .tu ⟨0, (tbl 7 6 4 0 [])⟩) (hub3 []) (fun t => t.rd Pg.sch (HDR.raw SCH.ev_tbl_base.bit) = 1),
    ok (.allotmentTableRx .td ⟨0, (tbl 7 0xFFFF 4 1 [])⟩) (hub3 []) (fun t => t.sched.nxt = none && t.rd Pg.chn CHN.CHN_STAT_foreign = 1),
    ok (.allotmentTableRx .tu ⟨9, (tbl 7 0xFFFF 4 1 [])⟩) (hub3 []) (fun t => t.sched.nxt = none && t.rd Pg.chn CHN.CHN_STAT_foreign = 1), ok (.allotmentTableRx .tu ⟨0, (tbl 7 0xFFFF 4 1 [])⟩) (home0 []) (fun t => t.sched.nxt = none && t.rd Pg.chn CHN.CHN_STAT_foreign = 0),
    ok (.altCfgWrite 0x97000000) (home0 []) (fun t => t.rd Pg.alt (HDR.raw ALT.ev_cfg_err.bit) = 1 && t.rd Pg.alt ALT.ALT_CFG_g_share = 8),
    ok (.altCfgWrite 0x41200001) (home0 []) (fun t => t.rd Pg.alt ALT.ALT_CFG_g_share = 4 && t.rd (Pg.lnk .tu) LNK.CRD_CFG_g_share = 4), ok (.hopFactorWrite 300) (home0 []) (fun t => t.hopF t.selHop = 256 && t.sched.hopPin = [t.selHop]),
    ok (.hopFactorWrite 100) (hub3 []) (fun t => t.sched.hopF = [])].all id = true := by decide +kernel

/-- R161, R165: a G tunnel over one hop of 2 lanes with half of its slots. -/
theorem test_GAllotmentFits : [ok (.allotterCompute 0) { home0 [(Pg.tun1, TUN1.VALID0_valid0 0, 2 ^ 20), (Pg.trk .td, TRK.PORT_STAT_mode, 3), (Pg.trk .td, TRK.PORT_STAT_tx_lanes, 3)] { dir := [(1, de)] } with
      sched := { cfg := [(20, { w0 := 2 ^ 31 + 2 ^ 29 + 1 * 4096 + 256, w2 := 2 ^ 16 })] } }
    (fun t => t.sched.allot.length = 1 && (Tab.find (hopKey 0 ⟨0, 0⟩) t.sched.hopUsed).isSome && (Tab.find (hopKey 0 ⟨0, 0⟩) t.sched.hopUsed).getD 0 ≤ t.gcap 0 ⟨0, 0⟩ 8)].all id = true := by decide +kernel

/-- R63: 116 + 116 + 24 bytes of a full cell and its header fields. -/
theorem test_CellsOnTheWire : [decide (({ patterned with payload := List.replicate 256 0x5A } : Cell).carrier.map (·.plen) = [116, 116, 44]),
    decide (({ patterned with payload := List.replicate 256 0x5A } : Cell).carrier.map (·.ptype) = [5, 6, 7]),
    decide (cellOf ({ patterned with payload := List.replicate 256 0x5A } : Cell).bytes = { patterned with payload := List.replicate 256 0x5A }),
    decide (cellOf ({ patterned with len := 250, payload := List.replicate 250 1, pad := [0, 0, 9, 0, 0, 0] } : Cell).bytes = { patterned with len := 250, payload := List.replicate 250 1, pad := [0, 0, 9, 0, 0, 0] }),
    decide (cellOfCarrier (({ patterned with len := 2, payload := [9, 8] } : Cell).carrier.flatMap (·.data)) = { patterned with len := 2, payload := [9, 8] }),
    decide (fcellOf (FCell.bytes ⟨4, 2, 5, 6, 7, 8, 0xABC, 0x123, 0x55, 3, [1, 2, 3]⟩) = ⟨4, 2, 5, 6, 7, 8, 0xABC, 0x123, 0x55, 3, [1, 2, 3]⟩)].all id = true := by decide +kernel
/-- R69: the check value of the rule. -/
theorem test_HopCrc : crcHop (ascii "123456789") = 0xD0DB ∧ numAt ({} : Cell).bytes 276 2 = crcHop ({} : Cell).body := by decide +kernel


/-! ### Transactions (R179–R208) -/

/-- A T request or completion in a cell. -/
def tcell (r : TReq) (lst : Bool := true) : Cell := { ctype := 4, cls := 2, dport := r.dport, shub := r.shub, sport := r.sport, tunnel := r.tunnel, vhc := r.vhc, gen := r.gen, tag := r.tag, lst := lst, wc := r.wc, psn := r.psn, payload := r.head ++ r.data }

/-- A part with the tunnel 21 from its core (hub 3) back to the head, for the requests of tunnel 20, and room in its accounts. -/
def answering (l : List (Nat × Fld × Nat)) : State :=
  { hub3 ([(Pg.trk .tu, TRK.PORT_STAT_state, stUp), (Pg.grn, GRN.LIMITS_ceiling 8, 100)] ++ l) with
    sched := { tun := [(21, { w0 := 2 ^ 31 + 2 * 2 ^ 29 + 3 * 2 ^ 22 + 7 * 2 ^ 18 + 8 * 2 ^ 8 + 5 * 4 })] } }

/-- What waits or is queued for the TU egress: the first bytes of the payloads. -/
def sentT (t : State) : List (List Byte) := (t.queue 4098).map (fun b => b.cell.payload.take 4 ++ b.cell.payload.drop 16)

/-- A register read of four bytes, and a request in an inbound window of the PX bridge. -/
def regRead : TReq := { op := 0, count := 4, addr := 0x170048, dport := 7, sport := 8, tunnel := 20, vhc := 5 }
def pxReq (op : Nat) : TReq := { op := op, count := 2, addr := 0x20, dport := 6, sport := 8, tunnel := 20, vhc := 5, data := if op = 1 then [1, 2] else [] }

/-- `answering`, with inbound window 0 of the PX bridge from 0. -/
def pxAnswering (l : List (Nat × Fld × Nat)) (x : Xbr := {}) : State :=
  { answering ([(Pg.pxb, PXB.PX_CFG_en, 1), (Pg.pxb, PXB.WIN_CFG_en 0, 1), (Pg.pxb, PXB.WIN_CFG_dir 0, 0), (Pg.pxb, PXB.WIN_CFG_size 0, 12)] ++ l) with
    xbr := x
    sched := { tun := [(21, { w0 := 2 ^ 31 + 2 * 2 ^ 29 + 3 * 2 ^ 22 + 6 * 2 ^ 18 + 8 * 2 ^ 8 + 5 * 4 })] } }

/-- R183, R189–R192: the slots and the queues of the slow targets. -/
theorem test_BridgedTransactions_slow : [ok (.tRequestRx .tu false ⟨0, tcell regRead⟩) { answering [] with xbr := { slots := (List.range 64).map (fun i => (i, { state := slReady })) } } (fun t => sentT t = [[0, 0, 0x80, 0x80]]),
    ok (.tRequestRx .tu true ⟨0, tcell regRead⟩) (answering [(Pg.evt, EVT.ACC_CNT_count, 9)]) (fun t => (t.dslot 0).state = slPending && (t.dslot 0).done && (t.dslot 0).data = [9, 0, 0, 0] && (t.queue 4098).map (fun b => bitsOf (numAt b.cell.payload 0 4) 23 21) = [4]),
    ok (.tRequestRx .tu false ⟨0, tcell (pxReq 0)⟩) (pxAnswering [] { pxHold := [(.tu, pxReq 1)] }) (fun t => t.xbr.pxHold.length = 2 && t.xbr.pxWait = []),
    ok (.tRequestRx .tu false ⟨0, tcell (pxReq 0)⟩) (pxAnswering []) (fun t => t.xbr.pxWait.map (·.req.addr) = [0x20] && t.xbr.pxPosted = []),
    ok (.tRequestRx .tu false ⟨0, tcell (pxReq 0)⟩) (pxAnswering [] { slots := (List.range 64).map (fun i => (i, { state := slReady })) }) (fun t => sentT t = [[0, 0, 0x80, 0x80]] && t.xbr.pxWait = []),
    ok (.tRequestRx .tu false ⟨0, tcell (pxReq 1)⟩) (pxAnswering []) (fun t => t.xbr.pxPosted.map (·.buf) = [[1, 2]] && t.xbr.pxWait = []),
    ok (.completionRx ⟨0, tcell { op := 8, st := 4, dport := 8, vhc := 5, tag := 3 }⟩) { headHeld [] with xbr := { outst := [{ init := 0, answered := true, req := { op := 0, vhc := 5, tag := 3 } }] } } (fun t => t.xbr.outst = []),
    ok (.windowReadLimit 5 (some 3)) { headHeld [] with xbr := { outst := [{ init := 0, retry := true, req := { op := 0, vhc := 5, tag := 3 } }] } } (fun t => t.outbox = [.hostCpl 5 2 []] && t.xbr.outst = []),
    ok (.windowReadLimit 5 none) { headHeld [] with xbr := { waitl := [{ init := 0, req := { op := 0, vhc := 5 } }] } } (fun t => t.outbox = [.hostCpl 5 2 []] && t.xbr.waitl = []),
    ok (.windowReadLimit 5 none) (headHeld []) (fun t => t.outbox = [])].all id = true := by decide +kernel

/-- The read queue is full, however deep a target's queue is. -/
theorem test_BridgedTransactions_full : ({ xbr := { pxWait := List.replicate (Config.targetDepth + 1) { req := pxReq 0, port := .tu, win := 0, xfers := [], buf := [] } } } : State).pxFull false = true := by
  have h : (pxReq 0).posted = false := by decide
  simp [State.pxFull, State.pxQueued, countWhere, h]

theorem test_BridgedTransactions : [ok (.tRequestRx .tu false ⟨0, tcell { op := 0, count := 4, addr := 0x170048, dport := 7, sport := 8, tunnel := 20, vhc := 5 }⟩) (answering [(Pg.evt, EVT.ACC_CNT_count, 9)]) (fun t => sentT t = [[4, 0, 0, 0x80, 9, 0, 0, 0]]),
    ok (.tRequestRx .tu false ⟨0, tcell { op := 0, count := 0, dport := 7, sport := 8, tunnel := 20, vhc := 5 }⟩) (answering []) (fun t => t.rd Pg.xbr XBR.XBR_CNT3_fmt_err = 1 && sentT t = [[0, 0, 0x20, 0x80]]),
    ok (.tRequestRx .tu false ⟨0, tcell { op := 0, count := 4, dport := 7, sport := 8, tunnel := 20, vhc := 5, psn := true }⟩) (answering []) (fun t => t.rd Pg.erl ERL.ERL_STAT_next_seq = 1 && sentT t = [[0, 0, 0x40, 0x80]]),
    ok (.tRequestRx .tu false ⟨2, tcell { op := 0, count := 4, dport := 2, sport := 8, tunnel := 20, vhc := 5 }⟩) (answering [(Pg.bay 1, HDR.PG_CTL_en, 0)]) (fun t => t.rd Pg.tun0 TUN.TUN_CNT_no_entry = 1),
    ok (.completionRx ⟨0, tcell { op := 8, dport := 8, vhc := 5, tag := 3, data := [7, 8] }⟩) { headHeld [] with xbr := { outst := [{ init := 0, req := { op := 0, count := 2, vhc := 5, tag := 3 } }] } } (fun t => t.outbox = [.hostCpl 5 0 [7, 8]] && t.xbr.outst = []),
    ok (.completionRx ⟨0, tcell { op := 8, st := 4, ticket := 9, dport := 8, vhc := 5, tag := 3 }⟩) { headHeld [] with xbr := { outst := [{ init := 0, req := { op := 0, vhc := 5, tag := 3 } }] } } (fun t => t.xbr.outst.map (fun o => (o.retry, o.ticket)) = [(true, 9)]),
    ok (.completionRx ⟨0, tcell { op := 8, dport := 8, vhc := 5, tag := 3, data := [7] } false⟩) { headHeld [] with xbr := { outst := [{ init := 0, req := { op := 0, vhc := 5, tag := 3 } }] } } (fun t => t.xbr.outst.map (·.got) = [[7]]),
    ok (.completionRx ⟨0, tcell { op := 8, dport := 8, vhc := 5, tag := 3 }⟩) (headHeld []) (fun t => t.rd Pg.xbr XBR.XBR_CNT1_unexp_cpl = 1),
    ok (.completionRx ⟨0, tcell { op := 8, dport := 8, vhc := 5, tag := 3 }⟩) { headHeld [] with xbr := { quar := [⟨0, 5, 3⟩] } } (fun t => t.rd Pg.xbr XBR.XBR_CNT0_late_cpl = 1 && t.xbr.quar = []),
    ok (.completionTimeout 0 5 3) { headHeld [] with xbr := { outst := [{ init := 0, req := { op := 0, vhc := 5, tag := 3 } }] } } (fun t => t.xbr.quar = [⟨0, 5, 3⟩] && t.outbox = [.hostCpl 5 2 []] && t.rd Pg.xbr XBR.XBR_CNT0_cpl_tmo = 1),
    ok (.completionTimeout 0 5 3) (headHeld []) (fun t => t.xbr.quar = []), ok (.quarantineExpiry 0 5 3) { headHeld [] with xbr := { quar := [⟨0, 5, 3⟩] } } (fun t => t.xbr.quar = []),
    ok (.headReissue 5 3) { headHeld [] with xbr := { outst := [{ init := 0, retry := true, ticket := 65, req := { op := 0, vhc := 5, tag := 3 } }] } } (fun t => t.xbr.outst.map (·.retry) = [false]),
    ok (.windowReadLimit 5 (some 3)) { headHeld [] with xbr := { outst := [{ init := 0, req := { op := 0, vhc := 5, tag := 3 } }] } } (fun t => t.outbox = [.hostCpl 5 2 []] && t.xbr.outst.map (·.answered) = [true]),
    ok (.errorEventRx .td { ctype := 0xB, tunnel := 8, vhc := 5, gen := 1, payload := [] }) (headHeld []) (fun t => t.rd Pg.vhg VHG.GEN_CNT_stale_err = 1),
    ok (.errorEventRx .td { ctype := 0xB, tunnel := 8, vhc := 5, payload := [0x40, 0, 0, 0, 1, 2] }) (headHeld [(Pg.vhc 5, VHC.VHC_STAT_state, 1), (Pg.vhc 5, VHC.EQ_CFG_en, 1), (Pg.vhc 5, VHC.EQ_LO_eq_lo, 2)])
      (fun t => t.outbox = [.hostWrite 6 64 ([1, 2] ++ List.replicate 30 0)] && t.rd (Pg.vhc 5) VHC.EQ_TAIL_tail = 1),
    ok (.quotaWrite 0x00200000) (headHeld [(Pg.xbr, XBR.QUOTA_SEL_vhc, 5)]) (fun t => t.quotaOf 5 = 32), ok (.quotaWrite 0x10010000) (headHeld [(Pg.vhc 6, VHC.VHC_STAT_state, 1)]) (fun t => t.rd Pg.xbr (HDR.raw XBR.ev_cfg_err.bit) = 1),
    ok .erlClr { held [] with xbr := { erl := [{ w := [1] }] } } (fun t => t.xbr.erl = []), ok (.hostMmioRequest 5 0 false 0 4 []) { headHeld [] with vhg := { perst := false } } (fun t => t.outbox = [.hostCpl 5 1 []]),
    ok (.hostMmioRequest 5 0 false 0 4 []) { headHeld [(Pg.vhc 5, VHC.VHC_STAT_state, 1), (Pg.vhc 5, VHC.DIR_CFG_cfg 0, 2 ^ 31 + 3 * 2 ^ 28), (Pg.vhc 5, VHC.DIR_TUN_tun 0, 2 ^ 28 + 20 * 65536)] with vhg := { perst := false } } (fun t => t.xbr.outst.map (fun o => (o.req.tunnel, o.req.count)) = [(20, 4)]),
    ok (.hostCompletionRx 0 0 [1]) { headHeld [] with vhg := { hostOut := [(0, .td, { op := 0, count := 1 })] } } (fun t => t.vhg.hostOut = [])].all id = true := by decide +kernel

/-- A PX operation of some transfers for slot 2. -/
def pxop (l : List PxXfer) (slot : Option Nat := some 2) : PxOp := { req := { op := 0, count := 4, vhc := 5, tag := 3 }, port := .tu, win := 0, xfers := l, buf := [0, 0, 0, 0], slot := slot }

/-- PX enabled, external masters too, with outbound window 0 at PX address 0x1000. -/
def pxOn (l : List (Nat × Fld × Nat)) : State :=
  held ([(Pg.pxb, PXB.PX_CFG_en, 1), (Pg.pxb, PXB.PX_CFG_ext_en, 1), (Pg.pxb, PXB.WIN_CFG_en 0, 1), (Pg.pxb, PXB.WIN_CFG_dir 0, 1), (Pg.pxb, PXB.WIN_CFG_size 0, 12), (Pg.pxb, PXB.WIN_PX_pxbase 0, 0x1000)] ++ l)

theorem test_PxBusAndSlots : [ok .pxint (pxOn []) (fun t => t.rd Pg.pxb (HDR.raw PXB.ev_pxint.bit) = 1), ok .pxint (held [(Pg.pxb, PXB.PX_CFG_en, 0)]) (fun t => t.rd Pg.pxb (HDR.raw PXB.ev_pxint.bit) = 0),
    ok .pxInboundCycle { pxOn [] with xbr := { pxWait := [pxop [⟨0x20, some 0, some 1⟩]] } } (fun t => t.pxOwner = 1 && t.xbr.pxOp.isSome && t.outbox.getLast? = some (.px "read" [0, 0x20, 2, 1, 6, 2, 64])),
    ok .pxInboundCycle { pxOn [] with xbr := { pxPosted := [{ pxop [⟨0x40, some 0, some 1⟩] with req := pxReq 1 }], pxWait := [pxop [⟨0x20, some 0, some 1⟩]] } } (fun t => t.pxOwner = 1 && t.xbr.pxPosted = [] && t.xbr.pxWait.length = 1),
    ok .pxInboundCycle { pxOn [] with xbr := { pxOp := some (pxop [⟨0x20, some 0, some 1⟩]), pxPosted := [{ pxop [⟨0x40, some 0, some 1⟩] with req := pxReq 1 }] } } (fun t => t.pxOwner = 1 && t.xbr.pxOp.map (·.req.op) = some 1 && t.xbr.pxWait.map (·.req.op) = [0]),
    ok (.pxCycleEnd 0x1234) { pxOn [(Pg.pxb, PXB.PX_STAT_owner, 1)] with xbr := { pxOp := some (pxop [⟨0x20, some 0, some 1⟩, ⟨0x22, some 2, some 3⟩]) } } (fun t => t.pxOwner = 0 && t.xbr.pxOp.map (·.buf) = some [0x12, 0x34, 0, 0]),
    ok (.pxCycleEnd 0x1234) { pxOn [(Pg.pxb, PXB.PX_STAT_owner, 1)] with xbr := { pxOp := some (pxop [⟨0x20, some 0, some 1⟩]) } } (fun t => t.xbr.pxOp = none && (t.dslot 2).done && (t.dslot 2).data = [0x12, 0x34, 0, 0]),
    ok .pxTimeout { pxOn [(Pg.pxb, PXB.PX_STAT_owner, 1)] with xbr := { pxOp := some (pxop [⟨0x20, some 0, some 1⟩]) } } (fun t => t.xbr.pxOp = none && (t.dslot 2).st = 2 && t.rd Pg.pxb PXB.PX_CNT1_px_tmo = 1), ok .pxTimeout (pxOn []) (fun t => t.rd Pg.pxb PXB.PX_CNT1_px_tmo = 0),
    ok (.slowTargetRetry 5 3) { pxOn [] with xbr := { pxWait := [pxop [⟨0x20, some 0, some 1⟩] none], slots := [(0, { state := slFree, seq := 1023 })] } } (fun t => (t.dslot 0).state = slPending && (t.dslot 0).seq = 1 && t.rd Pg.xbr XBR.XBR_CNT3_retries = 1),
    ok (.delayedOpComplete 4) { held [] with xbr := { slots := [(4, { state := slPending, done := true })] } } (fun t => (t.dslot 4).state = slReady), ok (.delayedOpComplete 4) { held [] with xbr := { slots := [(4, { state := slPending })] } } (fun t => (t.dslot 4).state = slPending),
    ok (.slotDiscardExpiry 4) { held [] with xbr := { slots := [(4, { state := slReady, seq := 6 })] } } (fun t => (t.dslot 4).state = slFree && (t.dslot 4).seq = 6 && t.rd Pg.xbr XBR.XBR_CNT2_discards = 1 && t.rd Pg.erl ERL.ERL_STAT_next_seq = 1),
    ok (.externalMasterCycle false 0x3000 3 0) (pxOn []) (fun t => t.pxOwner = 2 && t.xbr.pxExt.map (·.answer) = some (some 0xFFFF) && t.rd Pg.pxb PXB.PX_CNT2_window_miss = 1),
    ok (.externalMasterCycle true 0x1004 3 0xABCD) (pxOn [(Pg.pxb, PXB.WIN_CFG_tunnel 0, 30)]) (fun t => t.xbr.pxPost.map (fun x => (x.2.addr, x.2.data)) = [(4, [0xAB, 0xCD])]),
    ok (.externalMasterCycle true 0x1004 3 0xABCD) { pxOn [(Pg.pxb, PXB.WIN_CFG_tunnel 0, 30)] with xbr := { waitl := List.replicate 16 { init := 10, req := { op := 1 } } } } (fun t => t.xbr.pxPost = [] && t.xbr.pxExt.any (fun e => e.held.isSome && e.answer.isNone)),
    ok (.externalMasterCycle false 0x1004 3 0) (pxOn [(Pg.pxb, PXB.WIN_CFG_tunnel 0, 30)]) (fun t => (t.dslot 0).state = slPending && (t.dslot 0).owner = 1 && t.xbr.pxExt.map (·.slot) = some (some 0)),
    ok (.externalMasterCycle false 0x1004 3 0) (held []) (fun t => t.pxOwner = 0), ok .masterRetry (held []) (fun t => t.outbox = []),
    ok .masterRetry { pxOn [(Pg.pxb, PXB.PX_STAT_owner, 2)] with xbr := { pxExt := some { write := false, addr := 0x1004, be := 3, data := 0 } } } (fun t => t.pxOwner = 0 && t.outbox = [.px "retry" []] && t.rd Pg.pxb PXB.PX_CNT1_master_retries = 1)].all id = true := by decide +kernel
/-! ### Virtual hosts (R209–R233) -/

/-- A head whose VHC 5 is in a state. -/
def vhc5 (st : Nat) (x : VhcCtx := {}) (l : List (Nat × Fld × Nat) := []) : State :=
  { headHeld ([(Pg.vhc 5, VHC.VHC_STAT_state, st), (Pg.vhc 5, VHC.VHC_STAT_gen, 9)] ++ l) with vhg := { perst := false, numVfs := 8, vhcs := [(5, x)] } }

/-- A word of VHG_CMD with go for VHC 5. -/
def vw (op : Nat) (f : Nat := 0) (snap : Nat := 0) : Nat := 2 ^ 31 + op * 2 ^ 24 + 5 * 65536 + f * 256 + snap

def res (t : State) : Nat := t.rd Pg.vhg VHG.VHG_STAT_result

theorem test_VhgCommands : [ok (.vhcCreate (vw 1) 8) (vhc5 0 {} [(Pg.vhg, VHG.VHG_ARG_arg 0, 64)]) (fun t => t.vState 5 = 1 && t.vGen 5 = 10 && t.quotaOf 5 = 64 && res t = 0), ok (.vhcCreate (vw 1) 5) (vhc5 0) (fun t => res t = 4),
    ok (.vhcCreate (vw 1) 8) (vhc5 0 {} [(Pg.vhg, VHG.VHG_ARG_arg 0, 5000)]) (fun t => res t = 8 && t.vState 5 = 0), ok (.vhcCreate (vw 1) 8) (vhc5 1) (fun t => res t = 3),
    ok (.vhcDisable (vw 4)) (held []) (fun t => res t = 0 && t.rd Pg.vhg VHG.VHG_CMD_op = 0), ok (.vhcAddFunc (vw 2)) (held []) (fun t => t.rd Pg.vhg VHG.VHG_CMD_op = 0),
    ok (.vhcDisable (vw 4)) (vhc5 1 {} [(Pg.vhg, VHG.VHG_STAT_busy, 1)]) (fun t => res t = 1 && t.vState 5 = 1), ok (.vhgBadOp (vw 11)) (vhc5 1) (fun t => res t = 2), ok (.vhgBadOp (vw 3)) (vhc5 1) (fun t => t.rd Pg.vhg (HDR.raw 1) = 0),
    ok (.vhcAddFunc (vw 2 3)) (vhc5 1) (fun t => res t = 5), ok (.vhcRemoveFunc (vw 3 3)) (vhc5 1) (fun t => res t = 5), ok (.vhcRemoveFunc (vw 3)) (vhc5 0) (fun t => res t = 3), ok (.vhcAddFunc (vw 2)) (vhc5 5) (fun t => res t = 3),
    ok (.vhcDisable (vw 4)) (vhc5 1) (fun t => t.vState 5 = 2 && (t.vhcCtx 5).drain = 1 && (t.vhcCtx 5).genNext = 10), ok (.vhcDisable (vw 4)) (vhc5 3) (fun t => res t = 3),
    ok (.vhcEnable (vw 5)) (vhc5 3) (fun t => t.vState 5 = 1 && res t = 0 && t.rd Pg.vhg VHG.VHG_STAT_busy = 0), ok (.vhcEnable (vw 5)) (vhc5 1) (fun t => res t = 3),
    ok (.vhcFreeze (vw 6)) (vhc5 1) (fun t => t.vState 5 = 4 && (t.vhcCtx 5).drain = 2), ok (.vhcFreeze (vw 6 0 1)) (vhc5 1) (fun t => t.vState 5 = 5 && (t.vhcCtx 5).snapped), ok (.vhcFreeze (vw 6)) (vhc5 3) (fun t => res t = 3),
    ok (.vhcThaw (vw 7)) (vhc5 5 { pba := [3], unmasked := [3], snapped := true }) (fun t => t.vState 5 = 1 && t.outbox = [.msix 6 3] && !(t.vhcCtx 5).snapped), ok (.vhcThaw (vw 7)) (vhc5 1) (fun t => res t = 3),
    ok (.vhcDestroy (vw 10)) (vhc5 3) (fun t => t.vState 5 = 0), ok (.vhcRestore (vw 9) none) (vhc5 0) (fun t => res t = 0xE && t.vState 5 = 0), ok (.vhcRestore (vw 9) (some [])) (vhc5 0) (fun t => res t = 0xB && t.rd Pg.vhg (HDR.raw VHG.ev_img_err.bit) = 1)].all id = true := by decide +kernel

/-- ADD_FUNC of a USB function behind bay 2 of this head: the T pair is taken and written (R218). -/
theorem test_VhgCommands_add : [ok (.vhcAddFunc (vw 2 3)) (vhc5 1 {} [(Pg.vhg, VHG.VHG_ARG_arg 0, 1 * 2 ^ 28 + 1 * 2 ^ 17 + 2 * 2 ^ 8 + 1), (Pg.vhg, VHG.VHG_CFG_tun_base, 100), (Pg.vhg, VHG.VHG_CFG_tun_limit, 200)])
    (fun t => decide ((t.vhcCtx 5).job = 3) || dirV (t.dirCfg 5 3))].all id = true := by decide +kernel

/-- SAVE: room for the image, and no room (R228). -/
theorem test_VhgCommands_save : [ok (.vhcSave (vw 8)) (vhc5 5 {} [(Pg.vhg, VHG.VHG_ARG_arg 2, 100000)]) (fun t => (t.vhcCtx 5).job = 8), ok (.vhcSave (vw 8)) (vhc5 5) (fun t => res t = 0xA)].all id = true := by decide +kernel

theorem test_DrainsAndGenerations : [ok (.drainComplete 5) (vhc5 2 { drain := 1, drainCmd := true, genNext := 10 }) (fun t => t.vState 5 = 3 && t.vGen 5 = 10 && res t = 0 && (t.vhcCtx 5).drain = 0),
    ok (.drainTimeout 5) (vhc5 2 { drain := 1, drainCmd := true, genNext := 10 }) (fun t => t.vState 5 = 3), ok (.drainComplete 5) (vhc5 4 { drain := 2 }) (fun t => t.vState 5 = 5 && res t = 0), ok (.drainTimeout 5) (vhc5 4 { drain := 2 }) (fun t => t.vState 5 = 5 && res t = 15),
    ok (.drainTimeout 5) (vhc5 1) (fun t => t.vState 5 = 1), ok (.vfFlr 5) (vhc5 1) (fun t => t.vState 5 = 2 && (t.vhcCtx 5).drain = 4), ok (.vfFlr 5) (vhc5 3) (fun t => t.vState 5 = 3),
    ok (.eqCfgWrite 5 (2 ^ 31 + 6 * 65536 + 7)) (vhc5 1 {} [(Pg.vhc 5, VHC.EQ_TAIL_tail, 3)]) (fun t => t.rd (Pg.vhc 5) VHC.EQ_TAIL_tail = 0 && t.eqSize 5 = 64 && t.rd (Pg.vhc 5) VHC.EQ_CFG_vector = 7),
    ok (.saveComplete 5 false []) (vhc5 5 { job := 8 }) (fun t => res t = 0xE), ok (.saveComplete 5 true []) (vhc5 5) (fun t => t.outbox = []),
    ok (.restoreComplete 5) (vhc5 6 { job := 12 }) (fun t => t.vState 5 = 1 && res t = 0), ok (.restoreComplete 5) (vhc5 6 { job := 11 }) (fun t => t.vState 5 = 6), ok (.fenceRelease 5) (vhc5 1 { fences := [⟨0, 20, 3, 4⟩] }) (fun t => (t.vhcCtx 5).fences.length = 1),
    ok .vfEnableClear (vhc5 3) (fun t => t.vhg.numVfs = 0), ok .vfEnableClear (vhc5 1) (fun t => t.vState 5 = 2 && (t.vhcCtx 5).drain = 5 && (t.vhcCtx 5).genNext = 10 && t.vhg.numVfs = 0 && t.vState 6 = 0), ok .vfEnableClear (vhc5 5) (fun t => t.vState 5 = 2 && (t.vhcCtx 5).drain = 5),
    ok .vfEnableClear { vhc5 1 with mode := .hub } (fun t => t.vState 5 = 1 && t.vhg.numVfs = 0), ok (.genSetRx .td { ctype := 0xA, tunnel := 7, payload := [0x30, 0, 1, 0, 5, 77, 1, 0] } []) (hub3 []) (fun t => !t.genValid 5 && t.rd Pg.chn CHN.CHN_STAT_foreign = 1),
    ok (.freezeFnRx .td { ctype := 0xA, tunnel := 7, payload := [0x33, 0, 1, 0, 5, 1, 0, 0] }) (hub3 []) (fun t => t.fns.frozen = [] && t.rd Pg.chn CHN.CHN_STAT_foreign = 1), ok (.hostPerst true) (vhc5 3 { unmasked := [1] }) (fun t => t.vhg.perst && (t.vhcCtx 5).unmasked = []), ok (.hostPerst false) (vhc5 3) (fun t => !t.vhg.perst),
    ok (.genSetRx .tu { ctype := 0xA, tunnel := 7, payload := [0x30, 0, 1, 0, 5, 77, 1, 0] } []) (hub3 []) (fun t => t.genTbl 5 = 77 && t.genValid 5), ok (.genClearRx .tu { ctype := 0xA, tunnel := 7, payload := [0x31, 0, 1, 0, 0, 0, 0, 0] }) (hub3 [(Pg.swc, SWC.GEN_VALID0_valid_lo, 0xFF)]) (fun t => !t.genValid 5 && t.fns.parked.length = 64),
    ok (.genQueryRx .tu { ctype := 0xA, tunnel := 7, payload := [0x32, 0, 1, 0, 5, 0, 0, 0] }) (answering [(Pg.chn, CHN.CHN_STAT_addr, 3)]) (fun t => t.genTbl 5 = 0), ok (.freezeFnRx .tu { ctype := 0xA, tunnel := 7, payload := [0x33, 0, 1, 0, 5, 1, 0, 0] }) (hub3 []) (fun t => t.fns.frozen = [5]),
    ok (.genAnswerRx .td { ctype := 0xA, tunnel := 8, shub := 4, payload := [0xB3, 0, 7, 0, 5, 9, 1, 0] }) { vhc5 4 { drain := 3 } with vhg := { perst := false, vhcs := [(5, { drain := 3 })], msgs := [{ code := 0x33, vhc := 5, gen := 1, flags := 0, seq := 7, wait := [4], job := 2 }] } } (fun t => t.vState 5 = 5 && t.vhg.msgs = []),
    ok (.genAnswerRx .td { ctype := 0xA, tunnel := 8, shub := 4, payload := [0xB3, 0, 7, 0, 5, 9, 1, 0] }) (vhc5 1) (fun t => t.vhg.msgs = []),
    ok (.interruptEventRx .td { ctype := 0xA, tunnel := 8, vhc := 5, gen := 8, payload := [0x41] }) (vhc5 1) (fun t => t.rd Pg.vhg VHG.EVD_CNT_dropped = 1),
    ok (.interruptEventRx .td { ctype := 0xA, tunnel := 8, vhc := 5, gen := 9, shub := 2, sport := 1, payload := [0x41, 1, 1] }) (vhc5 1 { unmasked := [5] } [(Pg.vhc 5, VHC.DIR_CFG_cfg 0, 2 ^ 31 + 2 ^ 28 + 2 * 2 ^ 20 + 4 * 256 + 10)]) (fun t => t.outbox = [.msix 6 5]),
    ok (.genMessageResend 7) { vhc5 1 with vhg := { msgs := [{ code := 0x33, vhc := 5, gen := 1, flags := 0, seq := 7, wait := [4], job := 2 }] } } (fun t => t.vhg.msgs.map (·.resends) = [1]),
    ok (.genMessageResend 7) { vhc5 1 with vhg := { msgs := [{ code := 0x33, vhc := 5, gen := 1, flags := 0, seq := 7, wait := [4], resends := 3, job := 2 }] } } (fun t => t.vhg.msgs = [] && t.vhg.silent = [4] && t.rd Pg.vhg VHG.GEN_CNT_gen_nak = 1 && t.rd (Pg.vhc 5) VHC.DRAIN_hub = 4),
    ok (.genMessageResend 7) (vhc5 1) (fun t => t.vhg.silent = [])].all id = true := by decide +kernel

/-! ### Presents, tiles and display heads (R234–R286) -/

/-- A head whose VHC 5 is ACTIVE with a display function as entry 2, with its present context. -/
def prHead (x : PrCtx) (l : List (Nat × Fld × Nat) := []) : State :=
  { vhc5 1 {} ([(Pg.vhc 5, VHC.DIR_CFG_cfg 2, 2 ^ 31 + 4 * 2 ^ 28 + 3), (Pg.present 82, PR.PR_CFG_en, 1), (Pg.present 82, PR.PR_CFG_size, 4)] ++ l) with enc := { fns := [(82, x)] } }

/-- A ring entry of one tile that closes a set. -/
def entry1 : PrEnt := { addr := 4096, pitch := 64, ten := false, tiled := true, close := true, x0 := 0, y0 := 0, w := 1, h := 1, cookie := 7, clean := true }

def geo1 : HeadGeo := { width := 16, height := 16, bpp6 := false, ten := false }

def set1 : PrSet := { num := 3, cookie := 7, geo := geo1, fetch := [entry1], subs := [[⟨0, 0, 1⟩]], idx := 0, split := false, px := [] }

/-- A display head 1 of a part. -/
def dhead (x : DispHead) (l : List (Nat × Fld × Nat) := []) : State := { hub3 l with disp := [(1, x)] }

/-- Tile cells for it. -/
def tile (fst lst : Bool) (payload : List Byte) : Cell := { ctype := 2, tunnel := 20, vhc := 5, fst := fst, lst := lst, payload := payload }

/-- R246: a subset of one run of two tiles. -/
def header2 : List Byte := [9, 0, 0, 0, 2, 0, 1, 0] ++ List.replicate 8 0 ++ leBytes 4 (2 * 2 ^ 18)

/-- An allocation of 2 by 1 tiles for display head 1. -/
def alloc1 : List (Nat × Fld × Nat) := [(Pg.loft, LOFT.HEAD_CFG_alloc 1, 1), (Pg.loft, LOFT.HEAD_CFG_width_t 1, 2), (Pg.loft, LOFT.HEAD_CFG_height_t 1, 1)]

def filling : StBank := { st := 1, tunnel := 20, vhc := 5, set := 9, total := 2, pos := [0, 1] }

theorem test_PresentsAndTiles : [ok (.prTailWrite 5 1 3 []) (prHead { pipe := 0 }) (fun t => t.rd (Pg.vhc 5) VHC.UR_CNT_ur = 1), ok (.prCfgWrite 5 1 3) (prHead { pipe := 0 }) (fun t => t.rd (Pg.vhc 5) VHC.UR_CNT_ur = 1),
    ok (.prTailWrite 5 2 1 [List.replicate 32 0]) (prHead { pipe := 0 }) (fun t => t.outbox = [.hostRead 6 0 32 0] && t.rd (Pg.present 82) PR.PR_TAIL_tail = 1 && (t.prCtx 82).map (fun x => x.ring.length) = some 1),
    ok (.prTailWrite 5 2 1 []) (prHead { pipe := 0 } [(Pg.present 82, PR.PR_CFG_en, 0)]) (fun t => t.outbox = [] && t.rd (Pg.present 82) PR.PR_TAIL_tail = 1),
    ok (.prCfgWrite 5 2 (2 ^ 31 + 6 * 65536 + 9)) (prHead { pipe := 0, ring := [entry1] } [(Pg.present 82, PR.PR_HEAD_head, 4), (Pg.present 82, PR.PR_TAIL_tail, 4)]) (fun t => t.prSize 82 = 64 && t.rd (Pg.present 82) PR.PR_HEAD_head = 0 && (t.prCtx 82).map (fun x => x.ring.length) = some 0),
    ok (.prCfgWrite 5 2 0) (prHead { pipe := 0 } [(Pg.present 82, PR.PR_HEAD_head, 3), (Pg.present 82, PR.PR_TAIL_tail, 4)]) (fun t => t.on (Pg.present 82) PR.PR_CFG_en),
    ok (.encodeSubsetStart 0 geo1) (prHead { pipe := 0, ring := [entry1] }) (fun t => t.outbox.length = 16 && t.outbox.head? = some (.hostRead 6 4096 64 0) && ((t.prCtx 82).bind (·.cur)).map (·.subs) = some [[⟨0, 0, 1⟩]]),
    ok (.encodeSubsetStart 0 geo1) (prHead { pipe := 0, ring := [{ entry1 with w := 2 }] }) (fun t => t.rd (Pg.present 82) PR.PR_DONE_status = 2 && t.rd Pg.enc ENC.FAIL_CNT_bad_rect = 1),
    ok (.encodeSubsetStart 0 geo1) (prHead { pipe := 0 }) (fun t => t.outbox = []), ok (.encodeSubsetStart 0 geo1) (prHead { pipe := 0, cur := some { set1 with fetch := [] } } [(Pg.grn, GRN.TQ_MARK_tq_mark, 0)]) (fun t => (t.prCtx 82).map (fun x => x.sent.length) = some 0),
    ok (.encodeSubsetStart 0 geo1) (prHead { pipe := 0, cur := some { set1 with fetch := [] } } [(Pg.grn, GRN.TQ_MARK_tq_mark, 9)]) (fun t => (t.prCtx 82).map (fun x => x.sent.length) = some 1 && t.rd Pg.tun0 TUN.TUN_CNT_no_entry = 1),
    ok (.pixelFetchComplete 5 2 true (List.replicate 256 5)) (prHead { pipe := 0, cur := some set1 }) (fun t => t.rd (Pg.present 82) PR.PR_HEAD_head = 1 && ((t.prCtx 82).bind (·.cur)).map (·.fetch) = some []),
    ok (.pixelFetchComplete 5 2 false []) (prHead { pipe := 0, cur := some set1 }) (fun t => t.rd (Pg.present 82) PR.PR_DONE_status = 3 && t.rd (Pg.present 82) PR.PR_STAT_err = 2), ok (.pixelFetchComplete 5 3 false []) (prHead { pipe := 0 }) (fun t => t.rd Pg.enc ENC.FAIL_CNT_fetch_err = 0),
    ok (.presentDoneRx .td { ctype := 0xB, tunnel := 8, vhc := 5, gen := 9, sport := 4, payload := [0x42, 4, 0, 0, 3, 0, 0, 0, 8, 0, 0, 0] }) (prHead { pipe := 0, sent := [{ num := 3, cookie := 7, subs := 1 }] } [(Pg.vhc 5, VHC.DIR_CFG_cfg 2, 2 ^ 31 + 4 * 2 ^ 28 + 3 * 2 ^ 17 + 3)])
      (fun t => t.rd (Pg.present 82) PR.PR_DONE_set = 3 && t.rd (Pg.present 82) PR.PR_CNT_sets = 1 && (t.prCtx 82).map (·.sent) = some []),
    ok (.tileCellRx 1 true (tile true false header2)) (dhead {} alloc1) (fun t => (t.dh 1).bank0.pos = [0, 1] && (t.dh 1).bank0.set = 9), ok (.tileCellRx 1 true (tile true false header2)) (dhead {}) (fun t => t.rd (Pg.stg 1) STG.STG_SET_cause = 7 && t.rd (Pg.stg 1) STG.STG_CNT0_drops = 1),
    ok (.tileCellRx 1 true (tile false false (blackRecord 256 8 0 0))) (dhead { bank0 := filling } alloc1) (fun t => (t.dh 1).bank0.got = 1), ok (.tileCellRx 1 true (tile false false (blackRecord 256 8 1 0))) (dhead { bank0 := filling } alloc1) (fun t => t.rd (Pg.stg 1) STG.STG_SET_cause = 3 && (t.dh 1).bank0 = {}),
    ok (.tileCellRx 1 true (tile false true (blackRecord 256 8 0 0))) (dhead { bank0 := { filling with total := 1 } } (alloc1 ++ [(Pg.disp 1, DISP.DISP_STAT_running, 1)])) (fun t => (t.dh 1).bank0.st = 3 && (t.dh 1).fill = 1),
    ok (.tileCellRx 1 true (tile false false [])) (dhead {} alloc1) (fun t => t.rd (Pg.stg 1) STG.STG_CNT1_discards = 1), ok (.stagingTimeout 1) (dhead { bank0 := filling }) (fun t => t.rd (Pg.stg 1) STG.STG_SET_cause = 9), ok (.stagingTimeout 1) (dhead {}) (fun t => t.rd (Pg.stg 1) STG.STG_CNT0_drops = 0),
    ok (.tileRowCommit 1) (dhead {}) (fun t => t.rd (Pg.stg 1) STG.STG_CNT0_commits = 0), ok (.tileRowCommit 1) (dhead { bank0 := { st := 2, tiles := [(0, [1]), (512, [2])] } }) (fun t => (t.dh 1).slot0 = [(0, [1])] && (t.dh 1).bank0.st = 3),
    ok (.tileRowCommit 1) (dhead { bank0 := { st := 2, tiles := [(512, [2])] }, decRow := 1 } [(Pg.disp 1, DISP.DISP_STAT_running, 1)]) (fun t => (t.dh 1).slot0 = [] && (t.dh 1).bank0.st = 2),
    ok (.decodeTileRow 1 []) (dhead {}) (fun t => t.outbox = []), ok (.decodeTileRow 1 []) (dhead {} ((Pg.disp 1, DISP.DISP_STAT_running, 1) :: alloc1)) (fun t => (t.dh 1).decRow = 1 && t.outbox.length = 1)].all id = true := by decide +kernel

/-- R254, R255 on display head 1: 20 by 10 tiles at 256 bytes take one granule. -/
def loftW : Nat := 1 * 65536

theorem test_PresentsAndTiles_loft : [ok (.loftAllocate loftW) (dhead {} [(Pg.loft, LOFT.LOFT_ARG_width_t, 20), (Pg.loft, LOFT.LOFT_ARG_height_t, 10)]) (fun t => t.lAlloc 1 && t.rd Pg.loft LOFT.LOFT_FREE_free = 383 && t.granule 0 = 3 && t.rd Pg.loft LOFT.LOFT_STAT_result = 0),
    ok (.loftAllocate loftW) (dhead {} alloc1) (fun t => t.rd Pg.loft LOFT.LOFT_STAT_result = 3), ok (.loftAllocate loftW) (dhead {} [(Pg.loft, LOFT.LOFT_ARG_width_t, 0), (Pg.loft, LOFT.LOFT_ARG_height_t, 1)]) (fun t => t.rd Pg.loft LOFT.LOFT_STAT_result = 5),
    ok (.loftAllocate loftW) (dhead {} [(Pg.loft, LOFT.LOFT_ARG_width_t, 480), (Pg.loft, LOFT.LOFT_ARG_height_t, 270)]) (fun t => t.rd Pg.loft LOFT.LOFT_STAT_result = 4 && !t.lAlloc 1),
    ok (.loftFree loftW) (dhead { slot0 := [(0, [1])] } ((Pg.loft, LOFT.GMAP_owner 0, 3) :: alloc1)) (fun t => !t.lAlloc 1 && t.granule 0 = 0 && (t.dh 1).slot0 = []), ok (.loftFree loftW) (dhead {}) (fun t => t.rd Pg.loft LOFT.LOFT_STAT_result = 3)].all id = true := by decide +kernel

def mode1 : List (Nat × Fld × Nat) := [(Pg.disp 1, DISP.H_TIM0_h_active, 64), (Pg.disp 1, DISP.H_TIM0_h_total, 100), (Pg.disp 1, DISP.H_TIM1_h_front, 8), (Pg.disp 1, DISP.H_TIM1_h_sync, 8), (Pg.disp 1, DISP.V_TIM0_v_active, 64), (Pg.disp 1, DISP.V_TIM0_v_total, 70),
  (Pg.disp 1, DISP.V_TIM1_v_front, 1), (Pg.disp 1, DISP.V_TIM1_v_sync, 1), (Pg.disp 1, DISP.PCLK_div_int, 26), (Pg.loft, LOFT.HEAD_CFG_alloc 1, 1), (Pg.loft, LOFT.HEAD_CFG_width_t 1, 4), (Pg.loft, LOFT.HEAD_CFG_height_t 1, 4)]

def runs (l : List (Nat × Fld × Nat)) : List (Nat × Fld × Nat) := (Pg.disp 1, DISP.DISP_STAT_running, 1) :: l

/-- A good EDID block with no extension. -/
def edid1 : List Byte := [0xFF, 1] ++ List.replicate 126 0

def sink1 : Sink := { aux := true, lanes := 4, rates := 0x1E, adapter := 0, limit := 0, edid := [[edid1]] }

theorem test_DisplayHeads : [ok (.dispRun 1) (dhead {} mode1) (fun t => t.scanning 1 && (t.dh 1).acquire), ok (.dispRun 1) (dhead {}) (fun t => t.rd (Pg.disp 1) DISP.DISP_STAT_refuse = 1 && !t.scanning 1), ok (.dispRun 1) (dhead { stopDue := true } (runs mode1)) (fun t => !(t.dh 1).stopDue),
    ok (.dispRun 1) (dhead { stopDue := true } (runs [])) (fun t => (t.dh 1).stopDue && t.rd (Pg.disp 1) DISP.DISP_STAT_refuse = 1), ok (.hpdIrq 1 true) (dhead { sink := some { sink1 with aux := false } } [(Pg.disp 1, DISP.DISP_STAT_sink, 1), (Pg.disp 1, DISP.OUT_CFG_type, 3), (Pg.disp 1, DISP.DISP_STAT_lt_cause, 2)]) (fun t => t.rd (Pg.disp 1) DISP.DISP_STAT_lt_cause = 0),
    ok (.dispRun 1) (dhead {} ((Pg.bay 1, HDR.PG_CTL_en, 0) :: mode1)) (fun t => !t.scanning 1), ok (.dispStop 1) (dhead {} (runs [])) (fun t => (t.dh 1).stopDue && t.scanning 1), ok (.trimWrite 1 0xFFFF) (dhead {}) (fun t => (t.dh 1).trimDue = some (-1)),
    ok (.hpdPlug 1 sink1) (dhead {}) (fun t => t.on (Pg.disp 1) DISP.DISP_STAT_sink && t.rd (Pg.disp 1) DISP.DISP_STAT_link_up = 0), ok (.hpdIrq 1 true) (dhead { training := true } [(Pg.disp 1, DISP.DISP_STAT_sink, 1)]) (fun t => (t.dh 1).irqHeld = some true && t.rd (Pg.disp 1) DISP.DISP_CNT_hpd_irqs = 1),
    ok (.hpdIrq 1 true) (dhead {}) (fun t => t.outbox = []), ok (.dispRetrain 1 sink1) (dhead { cands := [(4, 2)] } [(Pg.disp 1, DISP.DISP_STAT_sink, 1), (Pg.disp 1, DISP.OUT_CFG_type, 3), (Pg.disp 1, DISP.DISP_STAT_link_up, 1)]) (fun t => (t.dh 1).cands = [] && t.rd (Pg.disp 1) DISP.DISP_STAT_link_up = 0),
    ok (.edidRead 1 [[edid1]]) (dhead {}) (fun t => t.rd (Pg.disp 1) DISP.EDID_STAT_valid = 1 && t.rd (Pg.disp 1) (DISP.EDID_edid 0) = 0x1FF), ok (.edidRead 1 [[[1]]]) (dhead {}) (fun t => t.rd (Pg.disp 1) DISP.EDID_STAT_valid = 0 && t.rd (Pg.disp 1) (HDR.raw DISP.ev_edid_err.bit) = 1),
    ok (.frameStart 1) (dhead { flipDue := true } (runs [])) (fun t => t.rd (Pg.disp 1) DISP.FRAME_frame = 1 && t.lFront 1 = 1 && !(t.dh 1).flipDue), ok (.frameStart 1) (dhead { stopDue := true } (runs [])) (fun t => !t.scanning 1), ok (.frameStart 1) (dhead {}) (fun t => t.rd (Pg.disp 1) DISP.FRAME_frame = 0),
    ok (.frameStart 1) (dhead { trimDue := some (-7) } (runs [(Pg.disp 1, DISP.LOCK_CFG_en, 0), (Pg.disp 1, DISP.LOCK_CFG_trim_max, 5)])) (fun t => t.rd (Pg.disp 1) DISP.TRIM_trim = 0xFFF9),
    ok (.hpdUnplug 1) (dhead { training := true } [(Pg.disp 1, DISP.DISP_STAT_sink, 1), (Pg.disp 1, DISP.DISP_STAT_link_up, 1)]) (fun t => t.rd (Pg.disp 1) DISP.DISP_STAT_link_up = 0 && !(t.dh 1).training), ok (.hpdUnplug 1) (dhead {}) (fun t => t.rd (Pg.disp 1) (HDR.raw DISP.ev_unplug.bit) = 0),
    ok (.linkTrainingDone 1 true false) (dhead { training := true, cands := [(4, 2)] }) (fun t => t.rd (Pg.disp 1) DISP.DISP_STAT_link_up = 1), ok (.linkTrainingDone 1 false true) (dhead { training := true, cands := [(4, 2)] }) (fun t => t.rd (Pg.disp 1) DISP.DISP_STAT_lt_cause = 2),
    ok (.linkTrainingDone 1 false true) (dhead { training := true, cands := [(4, 2), (2, 3)] }) (fun t => t.outbox = [.bay 1 "train" [2, 3]] && (t.dh 1).training), ok (.linkTrainingDone 1 true false) (dhead {}) (fun t => t.rd (Pg.disp 1) DISP.DISP_STAT_link_up = 0),
    ok (.windowSignature 1 2) (dhead {}) (fun t => t.rd (Pg.frz 1) (FRZ.WIN_SIG_sig 2) = 0), ok (.windowCfgWrite 1 2 0 (2 ^ 31 + 3)) (dhead { base := [(2, 7)] } [(Pg.frz 1, FRZ.WIN_STAT_viol 2, 1)]) (fun t => t.rd (Pg.frz 1) (FRZ.WIN_CFG_mode 2) = 2 && !t.on (Pg.frz 1) (FRZ.WIN_STAT_viol 2) && (t.dh 1).base = []),
    ok (.windowCfgWrite 1 2 1 0x00100004) (dhead {}) (fun t => t.rd (Pg.frz 1) (FRZ.WIN_X_x1 2) = 16 && t.rd (Pg.frz 1) (FRZ.WIN_X_x0 2) = 4), ok (.windowCfgWrite 1 2 2 0x00100004) (dhead {}) (fun t => t.rd (Pg.frz 1) (FRZ.WIN_Y_y1 2) = 16), ok (.windowCapture 1 2) (dhead {}) (fun t => (t.dh 1).capture = [2]),
    ok (.freezeClear 1 4) (dhead {} [(Pg.frz 1, FRZ.WIN_STAT_viol 2, 1), (Pg.frz 1, FRZ.WIN_CFG_latch 2, 1), (Pg.frz 1, FRZ.WIN_STAT_count 2, 5)]) (fun t => !t.on (Pg.frz 1) (FRZ.WIN_STAT_viol 2) && t.rd (Pg.frz 1) (FRZ.WIN_STAT_count 2) = 0),
    ok (.presentWatchdogExpiry 1) (dhead {} (runs [(Pg.frz 1, FRZ.WD_CFG_en, 1)])) (fun t => t.on (Pg.frz 1) FRZ.WD_STAT_viol && t.rd (Pg.frz 1) FRZ.FRZ_CNT_violations = 1), ok (.presentWatchdogExpiry 1) (dhead {} (runs [(Pg.frz 1, FRZ.WD_CFG_en, 1), (Pg.frz 1, FRZ.WD_STAT_viol, 1)])) (fun t => t.rd (Pg.frz 1) FRZ.FRZ_CNT_violations = 0)].all id = true := by decide +kernel

/-- R276, R277: one frame of a black window of 4 by 4 pixels against a reference that differs, N = 1. -/
theorem test_DisplayHeads_window : [ok (.windowSignature 1 2) (dhead { decRow := 1, read := [(0, blackRecord 256 8 0 0)] } (runs (mode1 ++ [(Pg.frz 1, FRZ.FRZ_CFG_en, 1), (Pg.frz 1, FRZ.WIN_CFG_mode 2, 2), (Pg.frz 1, FRZ.WIN_CFG_n 2, 1), (Pg.frz 1, FRZ.WIN_X_x1 2, 4), (Pg.frz 1, FRZ.WIN_Y_y1 2, 4)])))
    (fun t => t.on (Pg.frz 1) (FRZ.WIN_STAT_viol 2) && t.rd (Pg.frz 1) (FRZ.WIN_STAT_count 2) = 1 && t.rd (Pg.frz 1) FRZ.FRZ_STAT_viol = 4)].all id = true := by decide +kernel

/-! ### USB bays and the service port (R287–R307) -/

/-- Bay 1 of hub 3 with a USB function of VHC 5 in tunnel 30. -/
def usbHub (x : UsbFn := {}) (l : List (Nat × Fld × Nat) := []) : State :=
  { hub3 l with usb := [(1, x)], sched := { tun := [(30, { w0 := 2 ^ 31 + 2 * 2 ^ 29 + 3 * 2 ^ 22 + 2 * 2 ^ 18 + 8 * 2 ^ 8 + 5 * 4 })] } }

def uev : UsbEv := { addr := 4096, cycle := true, ioc := true, ptr := 64, left := 0, slot := 2, ep := 3, irq := 0 }

def epc (ttUs : Nat) : EpCfg := { dci := 3, iso := false, isIn := true, bytes := 0, pkts := 0, period := 1, phase := 0, ttUs := ttUs }

def slot2 (st : Nat) (busy : Bool) : UsbFn := { run := true, slots := [(2, ⟨2, true, [(1, { state := 1, cfg := epc 0 }), (3, { state := st, busy := busy, cfg := epc 0 })]⟩)] }

def stOf (t : State) : Nat := (((t.ufn 1).slot 2).ep 3).state

theorem test_UsbControllers : [ok (.configureEndpoint 1 30 2 2 false [epc 5] [] uev) (usbHub) (fun t => stOf t = 1),
    ok (.configureEndpoint 1 30 2 2 true [epc 901] [] uev) (usbHub) (fun t => t.rd (Pg.usb 1) (HDR.raw USB.ev_bw_refused.bit) = 1 && (t.ufn 1).slots.length = 0), ok (.configureEndpoint 1 31 2 2 true [epc 901] [] uev) (usbHub) (fun t => t.rd (Pg.usb 1) (HDR.raw USB.ev_bw_refused.bit) = 0),
    ok (.stopEndpoint 1 30 2 3 none uev uev) (usbHub (slot2 1 true)) (fun t => stOf t = 3), ok (.stopEndpoint 1 30 2 3 none uev uev) (usbHub (slot2 2 false)) (fun t => stOf t = 2), ok (.stopEndpoint 1 30 2 3 (some 6) uev uev) (usbHub (slot2 1 true)) (fun t => stOf t = 2 && t.rd (Pg.usb 1) USB.TT_CNT_tt_clr_p2 = 1),
    ok (.doorbellWrite 1 30 2 3 []) (usbHub (slot2 3 false)) (fun t => stOf t = 1), ok (.doorbellWrite 1 30 2 3 []) (usbHub (slot2 2 false)) (fun t => stOf t = 2), ok (.doorbellWrite 1 30 0 0 []) (usbHub (slot2 2 false)) (fun t => stOf t = 2), ok (.doorbellWrite 1 30 2 3 []) (usbHub { slot2 3 false with run := false }) (fun t => stOf t = 3),
    ok (.stallRx 1 30 2 3 uev) (usbHub (slot2 1 true)) (fun t => stOf t = 2), ok (.transferComplete 1 30 2 3 [] false uev) (usbHub (slot2 1 true)) (fun t => !(((t.ufn 1).slot 2).ep 3).busy), ok (.transferComplete 1 30 2 3 [] false uev) (usbHub (slot2 3 true)) (fun t => (((t.ufn 1).slot 2).ep 3).busy),
    ok (.memoryRequestFailure 1 30 .transfer 2 3 uev) (usbHub (slot2 1 true)) (fun t => stOf t = 2 && t.rd (Pg.usb 1) USB.DMA_CNT_dma_err = 1), ok (.memoryRequestFailure 1 30 .context 2 3 uev) (usbHub (slot2 1 true)) (fun t => stOf t = 1), ok (.memoryRequestFailure 1 30 .ring 2 3 uev) (usbHub (slot2 1 true)) (fun t => (t.ufn 1).hse && (t.ufn 1).halted),
    ok (.memoryRequestFailure 1 30 .eventWrite 2 3 uev) (usbHub (slot2 1 true)) (fun t => (t.ufn 1).hse && t.rd (Pg.usb 1) USB.DMA_CNT_dma_err = 1), ok (.resetDevice 1 30 2 [] uev) (usbHub (slot2 1 false)) (fun t => ((t.ufn 1).slot 2).eps.map (·.1) = [1]), ok (.resetDevice 1 30 7 [] uev) (usbHub (slot2 1 false)) (fun t => stOf t = 1),
    ok (.disableSlot 1 30 2 uev) (usbHub (slot2 1 false)) (fun t => (t.ufn 1).slots = []), ok (.disableSlot 1 30 7 uev) (usbHub (slot2 1 false)) (fun t => stOf t = 1), ok (.usbPortReset 1 30 1 []) (usbHub { u3 := [2] }) (fun t => (t.ufn 1).u3 = [] && t.outbox = [.bay 1 "usb port reset" [2]]),
    ok (.isoIntervalStart 1 30 [] [] []) (usbHub { run := true } [(Pg.usb 1, USB.ISO_IVL_interval, 2 ^ 32 - 1)]) (fun t => t.rd (Pg.usb 1) USB.ISO_IVL_interval = 0), ok (.isoAckRx 1 30 { payload := [4, 0, 0, 0, 9] }) (usbHub { acks := [(9, [{ uev with ioc := false }])] }) (fun t => (t.ufn 1).acks = []),
    ok (.isoAckTimeout 1 30 9) (usbHub { acks := [(9, [])] }) (fun t => (t.ufn 1).acks = [] && t.rd (Pg.usb 1) USB.ISO_CNT1_lost = 1), ok (.isoAckTimeout 1 30 8) (usbHub { acks := [(9, [])] }) (fun t => t.rd (Pg.usb 1) USB.ISO_CNT1_lost = 0),
    ok (.hostControllerReset 1) (usbHub { ccs := [2], run := true }) (fun t => t.ufn 1 = { ccs := [2], csc := [2] }), ok (.hostControllerReset 1) (usbHub { run := true } [(Pg.bay 1, HDR.PG_CTL_en, 0)]) (fun t => (t.ufn 1).run),
    ok (.isoOutDataRx 1 { payload := [3, 0, 1, 0, 9, 0, 0, 0] ++ List.replicate 16 0 ++ [2, 0, 0, 0, 7, 8] }) (usbHub { outEvs := [(9, [])] }) (fun t => (t.ufn 1).outs = [(9, [some [7, 8]])]), ok (.isoOutDataRx 1 { payload := [3, 0, 1, 0, 9, 0, 0, 0] }) usbHub (fun t => (t.ufn 1).outs = []),
    ok (.portscPpWrite 1 2 false) (usbHub {} [(Pg.usb 1, USB.USB_CFG_p3_en, 1)]) (fun t => !(t.ufn 1).pp3), ok (.portscPpWrite 1 2 false) (usbHub {} [(Pg.usb 1, USB.USB_CFG_p3_en, 0)]) (fun t => (t.ufn 1).pp3),
    ok (.usbDisconnect 1 30 1 []) (usbHub { ccs := [2] }) (fun t => (t.ufn 1).ccs = [] && (t.ufn 1).csc = [2]), ok (.usbDisconnect 1 30 1 []) usbHub (fun t => (t.ufn 1).csc = []), ok (.usbDeviceConnect 1 1) { usbHub with pw := { on := true } } (fun t => (t.ufn 1).ccs = [2] && (t.ufn 1).csc = [2]), ok (.usbDeviceConnect 1 1) usbHub (fun t => (t.ufn 1).ccs = []),
    ok (.usbDeviceConnect 1 1) (usbHub { ccs := [2] }) (fun t => (t.ufn 1).csc = []), ok (.hostResumeWrite 1 1) (usbHub { u3 := [2] }) (fun t => (t.ufn 1).resume = [2] && t.outbox = [.bay 1 "usb resume" [2]]),
    ok (.hostResumeWrite 1 1) (usbHub { wake := [2] }) (fun t => t.rd (Pg.usb 1) USB.HUB_EXT_rwake_seen = 2 && (t.ufn 1).wake = []), ok (.deviceRemoteWake 1 1) (usbHub { u3 := [2] }) (fun t => (t.ufn 1).wake = [2] && (t.ufn 1).plc = [2]), ok (.deviceRemoteWake 1 1) (usbHub { resume := [2] }) (fun t => t.rd (Pg.usb 1) USB.HUB_EXT_rwake_seen = 2),
    ok (.deviceRemoteWake 1 1) usbHub (fun t => (t.ufn 1).wake = []), ok (.isoStagingRx .td { tunnel := 20, payload := [1] } []) usbHub (fun t => t.outbox = []),
    ok (.isoStagingRx .td { tunnel := 41, vhc := 5, gen := 9, payload := [1, 0, 1, 0, 9, 0, 0, 0] ++ List.replicate 8 0 ++ leBytes 8 4096 ++ [2, 0, 0, 0, 7, 8] } []) (vhc5 1 {} [(Pg.vhc 5, VHC.DIR_CFG_cfg 2, 2 ^ 31 + 2 ^ 28 + 4 * 2 ^ 20), (Pg.vhc 5, VHC.DIR_AUX_aux 2, 40 * 65536 + 41)]) (fun t => t.outbox = [] && t.rd Pg.tun0 TUN.TUN_CNT_no_entry = 1),
    ok (.isoStagingRx .td { tunnel := 41, vhc := 5, gen := 9, payload := [1, 0, 1, 0, 9, 0, 0, 0] ++ List.replicate 8 0 ++ leBytes 8 4096 ++ [2, 0, 0, 0, 7, 8] } [])
      { vhc5 1 {} [(Pg.vhc 5, VHC.DIR_CFG_cfg 2, 2 ^ 31 + 2 ^ 28 + 4 * 2 ^ 20), (Pg.vhc 5, VHC.DIR_AUX_aux 2, 40 * 65536 + 41)] with sched := { tun := [(40, { w0 := 2 ^ 31 + 8 * 2 ^ 18 + 4 * 2 ^ 12 + 2 * 2 ^ 8 + 5 * 4 })] } } (fun t => t.outbox = [.hostWrite 6 4096 [7, 8]])].all id = true := by decide +kernel

/-- The service function, attached at high speed. -/
def svcUp (st : Nat) (l : List (Nat × Fld × Nat) := []) (x : SvcCtx := { up := true }) : State :=
  { held ([(Pg.svc, SVC.SVC_CFG_en, 1), (Pg.svc, SVC.SVC_STAT_state, st), (Pg.svc, SVC.SVC_STAT_speed, 2)] ++ l) with svc := x, pw := { on := true } }

theorem test_ServicePort : [ok .svcAttach { svcUp 0 [(Pg.svc, SVC.SVC_CFG_attach_src, 0)] {} with pw := {} } (fun t => !t.svc.up), ok .svcDetach { svcUp 3 [(Pg.svc, SVC.SVC_CFG_attach_src, 0)] with pw := {} } (fun t => !t.svc.up),
    ok .svcAttach (svcUp 0 [] {}) (fun t => t.svc.up = t.svcCond && (t.rd Pg.svc SVC.SVC_STAT_state = b2n t.svcCond)), ok .svcAttach (svcUp 0 [(Pg.svc, SVC.SVC_CFG_attach_src, 0)] {}) (fun t => t.svc.up && t.outbox = [.pin "SVC_PULLUP" 1]),
    ok .svcAttach (svcUp 0 [(Pg.svc, SVC.SVC_CFG_en, 0)] {}) (fun t => !t.svc.up), ok .svcDetach (svcUp 3 [(Pg.svc, SVC.SVC_CFG_en, 0)]) (fun t => !t.svc.up && t.rd Pg.svc SVC.SVC_STAT_state = 0), ok .svcDetach (svcUp 3 [(Pg.svc, SVC.SVC_CFG_attach_src, 0)]) (fun t => t.svc.up),
    ok (.svcBusReset false) (svcUp 3 [(Pg.svc, SVC.SVC_STAT_address, 9)] { up := true, ctl := some [] }) (fun t => t.rd Pg.svc SVC.SVC_STAT_address = 0 && t.rd Pg.svc SVC.SVC_STAT_speed = 1 && t.rd Pg.svc SVC.SVC_CNT_aborts = 1 && t.rd Pg.svc SVC.SVC_CNT_resets = 1),
    ok .svcSuspend (svcUp 3) (fun t => t.on Pg.svc SVC.SVC_STAT_suspended), ok .svcResume (svcUp 3 [(Pg.svc, SVC.SVC_STAT_suspended, 1)]) (fun t => !t.on Pg.svc SVC.SVC_STAT_suspended), ok .svcSuspend (svcUp 3 [] {}) (fun t => !t.on Pg.svc SVC.SVC_STAT_suspended),
    ok (.svcControlRequest [0, 5, 9, 0, 0, 0, 0, 0] true) (svcUp 1) (fun t => t.rd Pg.svc SVC.SVC_STAT_address = 9 && t.rd Pg.svc SVC.SVC_STAT_state = 2), ok (.svcControlRequest [0, 5, 9, 0, 0, 0, 0, 0] false) (svcUp 1) (fun t => t.rd Pg.svc SVC.SVC_STAT_address = 0 && t.svc.ctl.isSome),
    ok (.svcControlRequest [0, 9, 1, 0, 0, 0, 0, 0] true) (svcUp 2) (fun t => t.rd Pg.svc SVC.SVC_STAT_state = 3), ok (.svcControlRequest [0x80, 7, 0, 0, 0, 0, 0, 0] true) (svcUp 2) (fun t => t.rd Pg.svc SVC.SVC_CNT1_stalls = 1),
    ok (.svcControlRequest [0x80, 6, 0, 6, 0, 0, 64, 0] true) (svcUp 2) (fun t => t.outbox = [.note "svc data" [10, 6, 0, 2, 255, 0, 0, 64, 1, 0]]), ok (.svcBulkOut 4 .confirm) (svcUp 2) (fun t => t.outbox = []),
    ok (.svcBulkOut 4 .getInfo) (svcUp 3 [(Pg.eng 3, ENG.ENG_STAT_state 3, engRunning)]) (fun t => t.outbox.length = 1)].all id = true := by decide +kernel

/-! ### Ethernet, NIC queue sets and PCIe (R310–R331) -/

/-- Bay 1 of hub 3 with its MAC in mode 2 and an E tunnel of its NIC function to the head. -/
def ethHub (x : EthCtx := {}) (l : List (Nat × Fld × Nat) := []) : State :=
  { hub3 ([(Pg.eth 1, ETH.MAC_CFG_mode, 2), (Pg.eth 1, ETH.MAC_STAT_link, 1)] ++ l) with eth := [(1, x)], sched := { tun := [(31, { w0 := 2 ^ 31 + 3 * 2 ^ 29 + 3 * 2 ^ 22 + 2 * 2 ^ 18 + 8 * 2 ^ 8 + 5 * 4 })] } }

/-- R313: a broadcast frame of 60 bytes; R312: PAUSE with some quanta. -/
def bcast : List Byte := List.replicate 6 0xFF ++ List.replicate 54 0
def pauseFrame (q : Byte) : List Byte := List.replicate 12 0 ++ [0x88, 0x08, 0, 1, 0, q] ++ List.replicate 42 0

/-- A frame toward the wire: its header, then 4 bytes. -/
def txc : Cell := { payload := [4, 0] ++ List.replicate 14 0 ++ [1, 2, 3, 4] }

/-- A head whose VHC 5 is ACTIVE with a NIC function as entry 2. -/
def nicHead (x : NicCtx := {}) (l : List (Nat × Fld × Nat) := []) : State :=
  { vhc5 1 {} ([(Pg.vhc 5, VHC.DIR_CFG_cfg 2, 2 ^ 31 + 2 * 2 ^ 28 + 4 * 2 ^ 20 + 3), (Pg.vhc 5, VHC.DIR_AUX_aux 2, 40 * 65536 + 41), (Pg.nic 82, NIC.RX_CFG_buf 1, 1)] ++ l) with nic := [(82, x)] }

theorem test_EthernetAndNics : [ok (.ethRxFrame 1 bcast true 0) (ethHub) (fun t => t.rd (Pg.eth 1) ETH.RX_FRAMES_rx_frames = 1), ok (.ethRxFrame 1 bcast true 0) (ethHub {} [(Pg.eth 1, ETH.MAC_STAT_link, 0)]) (fun t => t.rd (Pg.eth 1) ETH.RX_FRAMES_rx_frames = 0),
    ok (.ethRxFrame 1 bcast false 0) ethHub (fun t => t.rd (Pg.eth 1) ETH.ETH_CNT0_rx_fcs = 1), ok (.ethRxFrame 1 (List.replicate 60 2) true 0) ethHub (fun t => t.rd (Pg.eth 1) ETH.ETH_CNT0_rx_filt = 1), ok (.ethRxFrame 1 (pauseFrame 9) true 0) (ethHub {} [(Pg.eth 1, ETH.MAC_CFG_pause_rx, 1)]) (fun t => (t.eth1 1).paused),
    ok (.pauseRepeat 1) ethHub (fun t => t.outbox = []), ok (.ethTxFrame 1 true txc) ethHub (fun t => t.outbox = [.frame 1 ([1, 2, 3, 4] ++ List.replicate 56 0) true] && t.rd (Pg.eth 1) ETH.TX_FRAMES_tx_frames = 1), ok (.ethTxFrame 1 true txc) (ethHub { paused := true }) (fun t => (t.eth1 1).hold.length = 1),
    ok (.ethTxFrame 1 true txc) (ethHub {} [(Pg.eth 1, ETH.MAC_STAT_link, 0)]) (fun t => t.rd (Pg.eth 1) ETH.ETH_CNT1_tx_nolink = 1), ok (.pauseTimerExpiry 1) (ethHub { paused := true, hold := [(true, txc)] }) (fun t => !(t.eth1 1).paused && t.outbox.length = 1), ok (.pauseTimerExpiry 1) ethHub (fun t => t.outbox = []),
    ok (.ethLinkUp 1 true 0) (ethHub {} [(Pg.eth 1, ETH.MAC_STAT_link, 0)]) (fun t => t.on (Pg.eth 1) ETH.MAC_STAT_link && t.rd (Pg.eth 1) ETH.MAC_STAT_speed = 2), ok (.ethLinkUp 1 true 0) ethHub (fun t => t.rd (Pg.eth 1) ETH.MAC_STAT_speed = 0),
    ok (.ethLinkDown 1 (some [7])) ethHub (fun t => t.rd (Pg.eth 1) ETH.ETH_CNT2_tx_abort = 1 && t.outbox = [.frame 1 [7] false]), ok (.ethLinkDown 1 none) ethHub (fun t => !t.on (Pg.eth 1) ETH.MAC_STAT_link), ok (.ethLinkDown 1 none) (ethHub {} [(Pg.eth 1, ETH.MAC_STAT_link, 0)]) (fun t => t.rd (Pg.eth 1) (HDR.raw ETH.ev_link_down.bit) = 0),
    ok (.mdioCmd 1 (2 ^ 31 + 2 * 2 ^ 28 + 3 * 2 ^ 21 + 4 * 2 ^ 16 + 5)) ethHub (fun t => t.outbox = [.bay 1 "mdio" [0, 2, 3, 4, 5]]), ok (.mdioCmd 1 (2 ^ 31)) (ethHub {} [(Pg.eth 1, ETH.MDIO_STAT_busy, 1)]) (fun t => t.outbox = []),
    ok (.mdioDone 1 0x1234) (ethHub {} [(Pg.eth 1, ETH.MDIO_STAT_busy, 1), (Pg.eth 1, ETH.MDIO_CMD_op, 2)]) (fun t => t.rd (Pg.eth 1) ETH.MDIO_STAT_data = 0x1234 && !t.on (Pg.eth 1) ETH.MDIO_STAT_busy), ok (.mdioDone 1 0x1234) ethHub (fun t => t.rd (Pg.eth 1) ETH.MDIO_STAT_data = 0),
    ok (.nicTxTailWrite 5 1 0 1 []) (nicHead) (fun t => t.rd (Pg.vhc 5) VHC.UR_CNT_ur = 1), ok (.nicRingCfgWrite 5 1 true 0 0 1) (nicHead) (fun t => t.rd (Pg.vhc 5) VHC.UR_CNT_ur = 1), ok (.nicTxTailWrite 5 2 0 1 []) nicHead (fun t => t.rd (Pg.nic 82) (NIC.TX_TAIL_tail 0) = 1 && t.outbox = []),
    ok (.nicTxTailWrite 5 2 0 1 [(List.replicate 16 0, none)]) (nicHead {} [(Pg.nic 82, NIC.TX_CFG_en 0, 1)]) (fun t => t.outbox = [.hostRead 6 0 16 0] && (Tab.find 0 (t.nicCtx 82).tx).map List.length = some 1),
    ok (.nicRingCfgWrite 5 2 true 1 0 0x1230) nicHead (fun t => t.rxBase 82 1 = 0x1230), ok (.nicRingCfgWrite 5 2 true 1 2 (2 ^ 31 + 5 * 65536 + 2 * 256)) (nicHead {} [(Pg.nic 82, NIC.RX_HEAD_head 1, 4)]) (fun t => t.rxSize 82 1 = 32 && t.rxBuf 82 1 = 2048 && t.rd (Pg.nic 82) (NIC.RX_HEAD_head 1) = 0),
    ok (.nicRingCfgWrite 5 2 true 1 0 0x1230) (nicHead {} [(Pg.nic 82, NIC.RX_CFG_en 1, 1)]) (fun t => t.rxBase 82 1 = 0), ok (.nicRingCfgWrite 5 2 false 1 2 (2 ^ 31)) (nicHead { tx := [(1, [])] }) (fun t => (t.nicCtx 82).tx = []),
    ok (.rxIrqTimer 5 2 1) (nicHead { quiet := [(5, 2)] }) (fun t => (t.nicCtx 82).quiet = [] && (t.vhcCtx 5).pba = [0]), ok (.rxIrqTimer 5 2 1) nicHead (fun t => (t.vhcCtx 5).pba = []),
    ok (.timestampTimeout 5 2 1 3) (nicHead { wait := [⟨1, 3, 1, [⟨0, 4, 3, 0, some []⟩]⟩] }) (fun t => (t.nicCtx 82).wait = [] && t.outbox.length = 1), ok (.timestampTimeout 5 2 1 3) nicHead (fun t => t.outbox = []),
    ok (.timestampEventRx .td { ctype := 0xB, tunnel := 8, vhc := 5, gen := 9, shub := 4, sport := 1, payload := [0x43, 2, 1, 0, 3, 0, 1, 0] ++ leBytes 8 99 }) (nicHead { wait := [⟨1, 3, 1, [⟨0, 4, 3, 0, some []⟩]⟩] }) (fun t => t.outbox = [.hostWrite 6 48 (leBytes 8 99 ++ [4, 0, 3, 0, 0, 0, 0, 0xC0])]),
    ok (.timestampEventRx .td { ctype := 0xB, tunnel := 8, vhc := 5, gen := 8, payload := [0x43] }) nicHead (fun t => t.rd Pg.vhg VHG.EVD_CNT_dropped = 1),
    ok (.nicFrameRx .td true { tunnel := 41, gen := 9, payload := [2, 0, 0, 1] ++ List.replicate 12 0 ++ [7, 8] } [4096]) (nicHead {} [(Pg.nic 82, NIC.RX_CFG_en 1, 1), (Pg.nic 82, NIC.RX_TAIL_tail 1, 4)])
      (fun t => t.rd (Pg.nic 82) (NIC.RX_HEAD_head 1) = 1 && t.outbox = [.hostRead 6 0 16 0, .hostWrite 6 4096 [7, 8], .hostWrite 6 0 (List.replicate 8 0 ++ [2, 0, 0, 0, 1, 0, 0, 0x80])]),
    ok (.nicFrameRx .td true { tunnel := 41, gen := 9, payload := [2, 0, 0, 1] } []) nicHead (fun t => t.rd (Pg.nic 82) (NIC.RX_CNT_drops 1) = 1), ok (.nicFrameRx .td false { tunnel := 41, gen := 9, payload := [2, 0, 0, 1] } []) nicHead (fun t => t.rd (Pg.nic 82) (NIC.RX_CNT_drops 1) = 1),
    ok (.nicFrameRx .td true { tunnel := 41, gen := 8, payload := [2, 0, 0, 1] } []) nicHead (fun t => t.rd (Pg.nic 82) (NIC.RX_CNT_drops 1) = 0)].all id = true := by decide +kernel

/-- Bay 1 of hub 3 with its root port, its passthrough function of VHC 5 in tunnel 32. -/
def pcieHub (x : PcieCtx := {}) (l : List (Nat × Fld × Nat) := []) (f : Fns := {}) : State :=
  { hub3 l with pcie := [(1, x)], fns := f, sched := { tun := [(32, { w0 := 2 ^ 31 + 2 * 2 ^ 29 + 3 * 2 ^ 22 + 2 * 2 ^ 18 + 8 * 2 ^ 8 + 5 * 4 })] } }

def devOut (crs cfg : Bool) : DevOut := { id := 4, port := .tu, req := { op := 0, count := 4, tunnel := 32, vhc := 5 }, cfg := cfg, crs := crs }

def pup : List (Nat × Fld × Nat) := [(Pg.pcie 1, PCIE.PCIE_STAT_link_up, 1)]

theorem test_PciePortsAndBays : [ok (.bayDisable 1) { pcieHub { clock := true } pup with disp := [(1, { slot0 := [(0, [1])] })] } (fun t => !t.bayOn 1 && t.pcx 1 = {} && (t.dh 1).slot0 = [(0, [1])] && t.rd (Pg.pcie 1) PCIE.PCIE_STAT_link_up = 0),
    ok (.bayDisable 1) (pcieHub { clock := true } [(Pg.bay 1, HDR.PG_CTL_en, 0)]) (fun t => (t.pcx 1).clock), ok (.bayEnable 1) (pcieHub {} [(Pg.bay 1, HDR.PG_CTL_en, 0)]) (fun t => t.bayOn 1), ok (.bayEnable 1) (pcieHub { perst := false }) (fun t => !(t.pcx 1).perst),
    ok (.perstRelease 1) (pcieHub { clock := true, wait := true }) (fun t => !(t.pcx 1).perst && t.outbox = [.bay 1 "perst" [0]]), ok (.perstRelease 1) (pcieHub { wait := true } [(Pg.pcie 1, PCIE.PCIE_CTL_perst, 1)]) (fun t => (t.pcx 1).perst && !(t.pcx 1).wait), ok (.perstRelease 1) pcieHub (fun t => (t.pcx 1).perst),
    ok (.pciePerstWrite 1 true) (pcieHub { clock := true, perst := false }) (fun t => (t.pcx 1).perst), ok (.pciePerstWrite 1 false) (pcieHub { clock := true } [(Pg.pcie 1, PCIE.PCIE_CTL_perst, 1)]) (fun t => !(t.pcx 1).perst),
    ok (.pcieRetrainTimer 1) (pcieHub { retrain := true }) (fun t => t.outbox = [.bay 1 "pcie train" []]), ok (.pcieRetrainTimer 1) pcieHub (fun t => t.outbox = []), ok (.pcieRetrain 1) (pcieHub { clock := true, perst := false }) (fun t => t.outbox.length = 1), ok (.pcieRetrain 1) pcieHub (fun t => t.outbox = []),
    ok (.pcieHotReset 1) (pcieHub {} pup) (fun t => t.outbox = [.bay 1 "pcie hot reset" []]), ok (.pcieHotReset 1) pcieHub (fun t => t.outbox = []),
    (pcieHub { clock := true, perst := false }).pcieThere 1, (packBars 0x40000000 [(4096, 0), (0x400000, 0)] = [(4096, 0, 0x40000000), (0x400000, 0, 0)]),
    ok (.pcieLinkUp 1 3 1 []) pcieHub (fun t => t.rd (Pg.pcie 1) PCIE.PCIE_STAT_link_up = 0), (pcieHub { outs := [devOut false false] } pup).on (Pg.pcie 1) PCIE.PCIE_STAT_link_up, ok (.pcieLinkDown 1) pcieHub (fun t => t.rd (Pg.pcie 1) PCIE.PCIE_CNT2_downs = 0),
    ok (.deviceCompletionRx 1 4 3 []) (pcieHub { outs := [devOut false true] }) (fun t => (t.pcx 1).outs.map (·.crs) = [true]), ok (.deviceCompletionRx 1 4 0 [1]) (pcieHub { outs := [devOut false true] }) (fun t => (t.pcx 1).outs = []), ok (.deviceCompletionRx 1 5 0 [1]) (pcieHub { outs := [devOut false true] }) (fun t => (t.pcx 1).outs.length = 1),
    ok (.configCrsRetry 1 4 false) (pcieHub { outs := [devOut true true] }) (fun t => (t.pcx 1).outs.map (·.crs) = [false] && t.outbox.length = 1), ok (.configCrsRetry 1 4 true) (pcieHub { outs := [devOut true true] }) (fun t => (t.pcx 1).outs = []),
    ok (.deviceCompletionTimeout 1 4) (pcieHub { outs := [devOut false false] }) (fun t => t.rd (Pg.pcie 1) PCIE.PCIE_CNT0_cto = 1 && (t.pcx 1).outs = [] && t.rd Pg.erl ERL.ERL_STAT_next_seq = 1),
    ok (.deviceMemoryRequest 1 32 (.read 64 8 5)) (pcieHub {} pup { parked := [5] }) (fun t => t.rd (Pg.pcie 1) PCIE.PCIE_CNT0_park_drop = 1 && t.outbox = [.bay 1 "device completion" [64, 5, 1]]), ok (.deviceMemoryRequest 1 32 (.write 64 [1])) (pcieHub {} pup { frozen := [5] }) (fun t => (t.pcx 1).held.length = 1),
    ok (.deviceMemoryRequest 1 32 (.read 64 8 5)) (pcieHub {} pup) (fun t => (t.xbr.outst ++ t.xbr.waitl).map (fun o => (o.slot, o.req.count)) = [(5, 8)]), ok (.deviceMemoryRequest 1 32 .intx) (pcieHub {} pup { frozen := [5] }) (fun t => (t.pcx 1).held.length = 1),
    ok (.deviceMemoryRequest 1 32 .errFatal) (pcieHub {} pup) (fun t => t.rd (Pg.pcie 1) PCIE.PCIE_CNT1_err_fatal = 1)].all id = true := by decide +kernel

/-! ### The companion die (R361–R376) -/

/-- The companion die has power; the supervised link is up; two points of the cooldown curve. -/
def comp (l : List (Nat × Fld × Nat)) : State := { held ([(Pg.hvd, HVD.HVD_STAT_link, 1), (Pg.pwp, PWP.CDN_e 1, 100), (Pg.pwp, PWP.CDN_t 1, 200)] ++ l) with pw := { on := true } }

/-- The eFuse in a state, with auto = 0. -/
def ef (k : Nat) : State := comp [(Pg.pwp, PWP.EF_STAT_state, k), (Pg.pwp, PWP.EF_CFG_auto, 0)]

theorem test_EfuseStarts : [ok .efuseWaitExpiry (ef efWait) (fun t => t.ef = efPre && t.outbox = [.pin "EF_PCG" 1]), ok .prechargeDone (ef efPre) (fun t => t.ef = efRamp),
    ok .gateEnhanced (ef efRamp) (fun t => t.ef = efPgWait), ok .pgDeglitchDone (ef efPgWait) (fun t => t.ef = efOn && t.rd Pg.pwp PWP.EF_STAT_pg = 1 && t.rd Pg.pwp (HDR.raw 4) = 1),
    ok .prechargeTimeout (ef efPre) (fun t => t.ef = efLatched && t.rd Pg.pwp PWP.EF_STAT_cause = 1 && t.rd Pg.pwp PWP.EF_COOL_t_cool = 100),
    ok .prechargeTimeout (comp [(Pg.pwp, PWP.EF_STAT_state, efPre), (Pg.pwp, PWP.EF_CFG_retry_max, 15)]) (fun t => t.ef = efCool)].all id = true := by decide +kernel

theorem test_EfuseFaults : [ok .limitStart (ef efOn) (fun t => t.ef = efLimit && t.rd Pg.pwp PWP.EF_STAT_flt = 1 && t.pw.from_ = efOn), ok .limitStart (ef efPgWait) (fun t => t.pw.from_ = efRamp),
    ok .limitEnd { ef efLimit with pw := { on := true, from_ := efOn } } (fun t => t.ef = efOn),
    ok (.faultTimerExpiry 100) (ef efLimit) (fun t => t.ef = efLatched && t.rd Pg.pwp PWP.EF_STAT_cause = 2 && t.rd Pg.pwp PWP.EF_COOL_t_cool = 200),
    ok (.fastTrip 0) (ef efRamp) (fun t => t.rd Pg.pwp PWP.EF_STAT_cause = 3 && t.rd Pg.pwp PWP.EF_COOL_t_cool = 100),
    ok .pgWindowExit (comp [(Pg.pwp, PWP.EF_STAT_state, efOn), (Pg.pwp, PWP.EF_STAT_pg, 1)]) (fun t => t.ef = efPgWait && t.rd Pg.pwp (HDR.raw 5) = 1),
    ok .cooldownEnd (ef efCool) (fun t => t.ef = efWait && t.rd Pg.pwp PWP.EF_STAT_retries = 1), ok .efClr (ef efLatched) (fun t => t.ef = efWait), ok .efClr (ef efCool) (fun t => t.ef = efCool),
    ok (.efOffWrite true) (ef efOn) (fun t => t.ef = efOff && t.rd Pg.pwp PWP.EF_CTL_off = 1),
    ok (.efOffWrite true) { ef efOn with pw := { on := true }, regs := [] } (fun t => t.rd Pg.hvd HVD.LINK_CNT_wr_drop = 1),
    ok .efuseOv (ef efOn) (fun t => t.ef = efOff && t.rd Pg.pwp PWP.EF_STAT_cause = 4), ok .efuseOvRecover (ef efOff) (fun t => t.ef = efWait)].all id = true := by decide +kernel

theorem test_FeedsWarn : [ok (.feedForward 0) (comp []) (fun t => t.feedFlag 0 2), ok (.feedReverse 0) (comp [(Pg.pwp, PWP.FEED_FLAGS_a_flags, 0xC)]) (fun t => !t.feedFlag 0 2 && t.feedFlag 0 1),
    ok (.feedLow 0 false) (comp [(Pg.pwp, PWP.FEED_CFG_used 0, 1)]) (fun t => t.feedFlag 0 0 && t.rd Pg.pwp PWP.FEED_FLAGS_warn_n = 0 && t.chain.gaspLeft = 3 && t.chain.gaspCause = 0x81),
    ok (.feedLow 1 false) (comp [(Pg.pwp, PWP.FEED_CFG_used 1, 0)]) (fun t => t.feedFlag 1 0 && t.rd Pg.pwp PWP.FEED_FLAGS_warn_n = 1),
    ok (.feedRecover 0) (comp [(Pg.pwp, PWP.FEED_FLAGS_a_flags, 1)]) (fun t => !t.feedFlag 0 0)].all id = true := by decide +kernel

theorem test_CompanionPowerAndLink : [ok .companionPowerOn (held []) (fun t => t.pw.on && t.ef = efWait), ok .companionPowerOff (ef efOn) (fun t => !t.pw.on && !t.hvLink),
    ok .companionLinkLost (ef efOn) (fun t => t.rd Pg.hvd HVD.HVD_STAT_held = 1 && t.ef = efOn && t.rd Pg.hvd HVD.LINK_CNT_losses = 1),
    ok .companionLinkLost { ef efOn with life := .inReset } (fun t => t.rd Pg.hvd HVD.HVD_STAT_held = 1), ok .companionLinkLost { ef efOn with life := .p2 } (fun t => t.rd Pg.hvd HVD.HVD_STAT_held = 0),
    ok .companionLinkRestored { ef efOn with regs := [], pw := { on := true, mirror := some [] } } (fun t => t.rd Pg.hvd HVD.HVD_STAT_link = 1 && t.pw.mirror = none)].all id = true := by decide +kernel

/-! ### Type-C and PD (R332–R360) -/

/-- Hub 3 with the companion die powered, its link up, and the port of bay 1 in a state. -/
def tcHub (st : Nat) (x : TcCtx := {}) (l : List (Nat × Fld × Nat) := []) : State :=
  { hub3 ([(Pg.hvd, HVD.HVD_STAT_link, 1), (Pg.tc 1, TC.TC_STAT_st, st)] ++ l) with pw := { on := true }, tcs := [(1, x)] }

/-- The same with a partner attached. -/
def tcUp (st : Nat) (x : TcCtx := {}) (l : List (Nat × Fld × Nat) := []) : State := tcHub st x ([(Pg.tc 1, TC.TC_STAT_attached, 1)] ++ l)

/-- R352: a table image whose only section gives every bay the threshold 100. -/
def wetTable : EngCtx := { tbl := List.replicate 6 0 ++ [1, 0] ++ List.replicate 24 0 ++ [0x24, 15, 4, 0, 1, 0, 0, 0, 0x30, 0, 0, 0, 0, 0, 0, 0] ++ [25, 0, 100, 0] }

/-- R394: a rule that every bay's port meets at a hook, with its action and argument, and a table image of rules alone. -/
def polRule (hook act : Byte) (arg : Byte) : List Byte := [hook, 15, 0, 0, 0, 0, 0, 0, 255, 255, act, 0, arg, 0, 0, 0]
def polTable (l : List (List Byte)) : EngCtx := { tbl := List.replicate 6 0 ++ [1, 0] ++ List.replicate 24 0 ++ [1, 15, 16, 0, BitVec.ofNat 8 l.length, 0, 0, 0, 0x30, 0, 0, 0, 0, 0, 0, 0] ++ l.flatten }

/-- R394, R352: the same threshold, and a dry_wait rule that sets 20 s, 4 measurements and sink_wet 1. -/
def dryTable : EngCtx := { tbl := List.replicate 6 0 ++ [2, 0] ++ List.replicate 24 0 ++ [0x24, 15, 4, 0, 1, 0, 0, 0, 0x40, 0, 0, 0, 0, 0, 0, 0] ++ [1, 15, 16, 0, 1, 0, 0, 0, 0x44, 0, 0, 0, 0, 0, 0, 0] ++ [25, 0, 100, 0]
  ++ [8, 15, 0, 0, 0, 0, 0, 0, 255, 255, 7, 0, 20, 4, 1, 0] }

theorem test_TypeCAttach : [ok (.ccDetach 1) (tcUp 5 {} [(Pg.tc 1, TC.TC_STAT_prole, 1)]) (fun t => t.tcAttached 1), ok (.ccToggle 1) (tcHub 0 {} [(Pg.tc 1, TC.TC_CFG_cc_mode, 1)]) (fun t => (t.tc 1).rd && t.rd (Pg.tc 1) TC.TC_STAT_rp_adv = 0), ok (.ccToggle 1) (tcHub 0 {} [(Pg.tc 1, TC.TC_CFG_cc_mode, 2)]) (fun t => !(t.tc 1).rd),
    ok (.ccToggle 1) (hub3 [(Pg.tc 1, TC.TC_CFG_cc_mode, 1)]) (fun t => !(t.tc 1).rd), ok (.ccTerminationChange 1 2 true) (tcHub 0) (fun t => t.tcSt 1 = 1 && (t.tc 1).seen = 2 && (t.tc 1).ra), ok (.ccTerminationChange 1 0 false) (tcHub 1 { seen := 2 }) (fun t => t.tcSt 1 = 0 && (t.tc 1).seen = 0),
    ok (.ccAttach 1) (tcHub 1) (fun t => t.tcSt 1 = 1), ok (.ccAttach 1) (tcHub 1 { seen := 2 } [(Pg.tc 1, TC.TC_CFG_cc_mode, 0)]) (fun t => t.tcAttached 1 && t.rd (Pg.tc 1) TC.TC_STAT_orient = 1 && t.vb 1 = vbOn && t.rd (Pg.tc 1) TC.TC_STAT_partner = 1 && t.rd (Pg.tc 1) (HDR.raw TC.ev_attach.bit) = 1),
    ok (.ccAttach 1) (tcHub 1 { seen := 1 } [(Pg.tc 1, TC.TC_CFG_cc_mode, 2)]) (fun t => t.tcSink 1 && t.vb 1 = vbOff && t.rd (Pg.tc 1) TC.TC_STAT_partner = 2),
    ok (.ccDetach 1) (tcUp 5 {} [(Pg.vbs 1, VBS.VBS_STAT_state, 1), (Pg.tc 1, TC.CONTRACT_v, 450)]) (fun t => !t.tcAttached 1 && t.vb 1 = vbDisch && t.rd (Pg.tc 1) TC.CONTRACT_v = 0 && t.rd (Pg.tc 1) TC.TC_CAUSE_cause = 1), ok (.ccDetach 1) (tcUp 4) (fun t => t.rd (Pg.tc 1) TC.TC_CAUSE_cause = 2),
    ok (.sinkDisconnect 1) (tcUp 5 {} [(Pg.tc 1, TC.TC_STAT_prole, 1)]) (fun t => !t.tcAttached 1), ok (.sinkDisconnect 1) (tcUp 5) (fun t => t.tcAttached 1), ok (.vbusOnTimeout 1) (tcUp 3) (fun t => t.tcSt 1 = 7 && t.rd (Pg.tc 1) TC.TC_CAUSE_cause = 5 && !t.tcAttached 1),
    ok (.vbusOnTimeout 1) (tcUp 5) (fun t => t.tcSt 1 = 5), ok (.tcErrRecovery 1) (tcUp 5 {} [(Pg.vbs 1, VBS.VBS_STAT_state, 2)]) (fun t => t.tcSt 1 = 7 && !t.vbConducts 1), ok (.swapPsRdyTimeout 1) (tcUp 9 { swap := 3 }) (fun t => t.tcSt 1 = 7), ok (.swapPsRdyTimeout 1) (tcUp 9 { swap := 2 }) (fun t => t.tcSt 1 = 9),
    ok (.errorRecoveryEnd 1) (tcHub 7) (fun t => t.tcSt 1 = 0), ok (.errorRecoveryEnd 1) (tcHub 7 {} [(Pg.tc 1, TC.TC_STAT_moist, 2)]) (fun t => t.tcSt 1 = 8), ok (.errorRecoveryEnd 1) (tcHub 6) (fun t => t.tcSt 1 = 6)].all id = true := by decide +kernel

theorem test_TypeCRecovery : [ok (.moistureMeasure 1 false 99 500 25 false) { tcHub 0 { wetN := 1 } with eng := dryTable } (fun t => t.tcWet 1 && t.rd (Pg.tc 1) TC.TC_MCFG_dry_wait_s = 20 && t.rd (Pg.tc 1) TC.TC_MCFG_dry_cnt = 4 && t.rd (Pg.tc 1) TC.TC_MCFG_sink_wet = 1),
    ok (.moistureMeasure 1 false 99 500 25 true) { tcHub 0 { wetN := 1 } [(Pg.tc 1, TC.TC_MCFG_dry_wait_s, 33)] with eng := dryTable } (fun t => t.tcWet 1 && t.rd (Pg.tc 1) TC.TC_MCFG_dry_wait_s = 10 && t.rd (Pg.tc 1) TC.TC_CNT2_hook_tmo = 1),
    ok (.pdHardResetRx 1) (tcUp 5 { hardN := 1 } [(Pg.tc 1, TC.CONTRACT_v, 450)]) (fun t => t.tcSt 1 = 6 && t.rd (Pg.tc 1) TC.TC_CAUSE_cause = 3 && (t.tc 1).hardN = 2 && t.rd (Pg.tc 1) TC.CONTRACT_v = 0 && t.outbox = []),
    ok (.tcHardReset 1) (tcUp 5 {} [(Pg.tc 1, TC.TC_STAT_prole, 1)]) (fun t => t.tcSt 1 = 3 && t.rd (Pg.tc 1) TC.TC_CAUSE_cause = 4 && t.rd (Pg.tc 1) TC.TC_CNT0_hard_resets = 1), ok (.tcHardReset 1) (tcHub 0) (fun t => t.rd (Pg.tc 1) TC.TC_CNT0_hard_resets = 0),
    ok (.ppsTimeout 1) (tcUp 5 {} [(Pg.tc 1, TC.TC_STAT_pps, 1)]) (fun t => t.rd (Pg.tc 1) TC.TC_CAUSE_cause = 7), ok (.ppsTimeout 1) (tcUp 5) (fun t => t.tcSt 1 = 5), ok (.eprKeepaliveTimeout 1) (tcUp 5 {} [(Pg.tc 1, TC.TC_STAT_epr, 1)]) (fun t => t.rd (Pg.tc 1) TC.TC_CAUSE_cause = 8),
    ok (.eprKeepaliveRx 1) (tcUp 5) (fun t => t.outbox = []), ok (.eprKeepaliveRx 1) (tcUp 5 {} [(Pg.tc 1, TC.TC_STAT_epr, 1)]) (fun t => t.outbox = [.pd 1 "EPR_KeepAlive_Ack" []]), ok (.senderResponseTimeout 1) (tcUp 3 { wait := true }) (fun t => t.rd (Pg.tc 1) TC.TC_CAUSE_cause = 10),
    ok (.senderResponseTimeout 1) (tcUp 3) (fun t => t.tcSt 1 = 3), ok (.srcRecoverExpiry 1) (tcUp 5) (fun t => t.tcSt 1 = 5), ok (.srcRecoverExpiry 1) (tcUp 6 { hardN := 1, ra := true } [(Pg.tc 1, TC.TC_CFG_vconn_en, 1)]) (fun t => t.tcSt 1 = 3 && t.vb 1 = vbOn && t.on (Pg.tc 1) TC.TC_STAT_vconn_on),
    ok (.srcRecoverExpiry 1) (tcUp 6 { hardN := 2 }) (fun t => t.tcSt 1 = 2), ok (.vconnOvercurrent 1) (tcUp 5 {} [(Pg.tc 1, TC.TC_STAT_vconn_on, 1), (Pg.tc 1, TC.TC_CABLE_a5, 1)]) (fun t => !t.on (Pg.tc 1) TC.TC_STAT_vconn_on && !t.on (Pg.tc 1) TC.TC_CABLE_a5),
    ok (.vconnOvercurrent 1) (tcUp 5) (fun t => t.outbox = []), ok (.moistureMeasure 1 true 5 5 25 false) { tcHub 0 with eng := wetTable } (fun t => t.rd (Pg.tc 1) TC.TC_STAT_moist = 0), ok (.moistureMeasure 1 false 99 500 25 false) { tcHub 0 with eng := wetTable } (fun t => t.rd (Pg.tc 1) TC.TC_STAT_moist = 1 && (t.tc 1).wetN = 1),
    ok (.moistureMeasure 1 false 100 500 25 false) { tcHub 0 { wetN := 1 } with eng := wetTable } (fun t => t.rd (Pg.tc 1) TC.TC_STAT_moist = 0 && (t.tc 1).wetN = 0), ok (.moistureMeasure 1 false 99 500 25 false) { tcHub 0 { wetN := 1 } with eng := wetTable } (fun t => t.tcWet 1 && t.tcSt 1 = 8 && t.rd (Pg.tc 1) TC.TC_CAUSE_cause = 6),
    ok (.dryWaitMeasure 1 125 125 25) { tcHub 8 { dryN := 3 } [(Pg.tc 1, TC.TC_STAT_moist, 2)] with eng := wetTable } (fun t => t.tcWet 1 && (t.tc 1).dryN = 0), ok (.dryWaitMeasure 1 126 200 25) { tcHub 8 { dryN := 3 } [(Pg.tc 1, TC.TC_STAT_moist, 2), (Pg.tc 1, TC.TC_MCFG_dry_cnt, 4)] with eng := wetTable } (fun t => !t.tcWet 1 && t.tcSt 1 = 0),
    ok (.dryWaitMeasure 1 126 200 25) (tcHub 0 { dryN := 2 }) (fun t => (t.tc 1).dryN = 2), ok (.tcExitAlt 1) (tcUp 5 {} [(Pg.tc 1, TC.TC_ALT_entered, 1), (Pg.tc 1, TC.TC_ALT_mux, 2)]) (fun t => !t.on (Pg.tc 1) TC.TC_ALT_entered && t.rd (Pg.tc 1) TC.TC_ALT_mux = 0), ok (.tcExitAlt 1) (tcUp 5) (fun t => t.outbox = [])].all id = true := by decide +kernel

/-- An object of 9 V and 2 A, offered second. -/
def offer2 : List Pdo := [⟨0, 250, 250, 300⟩, ⟨0, 450, 450, 200⟩]

/-- R395: a table image whose only entry permits a fixed 5 V object up to 3 A in every bay. -/
def allowTable : EngCtx := { tbl := List.replicate 6 0 ++ [1, 0] ++ List.replicate 24 0 ++ [2, 15, 8, 0, 1, 0, 0, 0, 0x30, 0, 0, 0, 0, 0, 0, 0] ++ [15, 0, 100, 0, 100, 0, 44, 1] }

theorem test_PdContracts : [ok (.pdRequestRx 1 true 2 450 200 false) { tcUp 3 { offered := offer2 } with eng := allowTable } (fun t => t.tcSt 1 = 3 && t.outbox = [.pd 1 "Reject" []]), ok (.hookTimeout 1) { tcUp 3 { hook := 2, hookArg := [2, 450, 200], offered := offer2 } with eng := allowTable } (fun t => t.outbox = [.pd 1 "Reject" []]),
    ok (.pdSourceCapsRx 1 true offer2 false) { tcUp 3 {} [(Pg.tc 1, TC.TC_STAT_prole, 1), (Pg.tc 1, TC.TC_PWR_vmax, 200), (Pg.tc 1, TC.TC_PWR_imax, 60)] with eng := polTable [[3, 15, 0, 0, 150, 0, 0, 0, 255, 255, 4, 0, 0, 0, 0, 0]] } (fun t => (t.tc 1).asked.map (·.1) = some 1),
    ok (.sourceCapsSend 1 true false) (tcUp 3 {} [(Pg.tc 1, TC.TC_PWR_pdp_w, 15)]) (fun t => (t.tc 1).wait && (t.tc 1).offered.head?.map (·.v) = some 250 && t.outbox.length = 1), ok (.sourceCapsSend 1 true false) (tcUp 5) (fun t => t.outbox = []),
    ok (.sourceCapsSend 1 false false) (tcUp 3 { capsN := 49 }) (fun t => t.tcSt 1 = 2 && t.rd (Pg.tc 1) TC.TC_CNT1_tx_fail = 1), ok (.sourceCapsSend 1 false false) (tcUp 3 { capsN := 48 }) (fun t => t.tcSt 1 = 3), ok (.sourceCapsSend 1 true true) (tcUp 3) (fun t => (t.tc 1).hook = 1 && t.outbox = []),
    ok (.sourceCapsSend 1 true false) { tcUp 3 {} [(Pg.tc 1, TC.TC_PWR_pdp_w, 27), (Pg.tc 1, TC.TC_PWR_imax, 60), (Pg.tc 1, TC.TC_PWR_vmax, 200)] with eng := polTable [polRule 1 5 100] } (fun t => (t.tc 1).offered = [⟨0, 250, 250, 100⟩, ⟨0, 450, 450, 100⟩, ⟨1, 165, 550, 100⟩]),
    ok (.sourceCapsSend 1 true false) { tcUp 3 {} [(Pg.tc 1, TC.TC_PWR_pdp_w, 27), (Pg.tc 1, TC.TC_PWR_imax, 60), (Pg.tc 1, TC.TC_PWR_vmax, 200)] with eng := allowTable } (fun t => (t.tc 1).offered = [⟨0, 250, 250, 300⟩]),
    ok (.pdRequestRx 1 true 2 450 200 false) (tcUp 3 { offered := offer2, wait := true } [(Pg.vbs 1, VBS.VBS_STAT_state, 1)]) (fun t => t.tcSt 1 = 4 && (t.tc 1).target = some (2, 0, 450, 200) && t.rd (Pg.vbs 1) VBS.VBS_WIN_lo = 212 && t.vb 1 = vbMove && t.outbox = [.pd 1 "Accept" []]),
    ok (.pdRequestRx 1 true 2 450 201 false) (tcUp 3 { offered := offer2 }) (fun t => t.tcSt 1 = 3 && t.outbox = [.pd 1 "Reject" []]), ok (.pdRequestRx 1 false 2 450 200 false) { tcUp 5 { offered := offer2 } [(Pg.tc 1, TC.CONTRACT_v, 250)] with eng := polTable [polRule 2 2 0] } (fun t => t.tcSt 1 = 5 && t.outbox = [.pd 1 "Wait" []]),
    ok (.pdRequestRx 1 false 1 250 10 false) { tcUp 3 { offered := offer2 } with eng := polTable [polRule 2 1 0] } (fun t => t.outbox = [.pd 1 "Reject" []]), ok (.pdRequestRx 1 true 2 450 200 true) (tcUp 3 { offered := offer2 }) (fun t => (t.tc 1).hook = 2), ok (.pdRequestRx 1 true 2 450 200 false) (tcUp 4) (fun t => t.outbox = []),
    ok (.srcTransitionExpiry 1) (tcUp 4 { target := some (2, 0, 450, 200) }) (fun t => t.rd (Pg.vbs 1) VBS.VBS_SET_vset = 450 && (t.tc 1).moved), ok (.srcTransitionExpiry 1) (tcUp 5) (fun t => t.outbox = []),
    ok (.psRdySend 1) (tcUp 4 { target := some (2, 0, 450, 200) }) (fun t => t.tcSt 1 = 4), ok (.psRdySend 1) (tcUp 4 { target := some (2, 0, 450, 200), moved := true }) (fun t => t.tcSt 1 = 5 && t.rd (Pg.tc 1) TC.CONTRACT_v = 450 && t.rd (Pg.tc 1) TC.CON_INFO_pos = 2 && t.rd (Pg.tc 1) TC.TC_CNT0_contracts = 1),
    ok (.psRdySend 1) (tcUp 9 { swap := 5 }) (fun t => t.tcSt 1 = 3 && t.outbox = [.pd 1 "PS_RDY" []]), ok (.pdEprModeRx 1 true) (tcUp 4) (fun t => t.outbox = []), ok (.pdEprModeRx 1 false) (tcUp 5 {} [(Pg.tc 1, TC.TC_STAT_epr, 1)]) (fun t => t.tcSt 1 = 3 && !t.on (Pg.tc 1) TC.TC_STAT_epr),
    ok (.pdEprModeRx 1 true) (tcUp 5 {} [(Pg.tc 1, TC.TC_CFG_epr_en, 1), (Pg.tc 1, TC.TC_PWR_pdp_w, 140), (Pg.tc 1, TC.TC_PWR_vmax, 280), (Pg.tc 1, TC.TC_PWR_imax, 100), (Pg.tc 1, TC.TC_CABLE_v50, 1), (Pg.tc 1, TC.TC_CABLE_a5, 1)])
      (fun t => t.on (Pg.tc 1) TC.TC_STAT_epr && (t.tc 1).offered[7]?.map (·.v) = some 1400),
    ok (.pdEprModeRx 1 true) (tcUp 5 {} [(Pg.tc 1, TC.TC_CFG_epr_en, 0)]) (fun t => t.tcSt 1 = 5 && t.outbox = [.pd 1 "EPR_Mode Enter Failed" []]),
    ok (.pdSourceCapsRx 1 true offer2 false) (tcUp 3 {} [(Pg.tc 1, TC.TC_STAT_prole, 1), (Pg.tc 1, TC.TC_PWR_vmax, 200), (Pg.tc 1, TC.TC_PWR_imax, 60)]) (fun t => (t.tc 1).asked = some (2, 0, 450, 200) && t.outbox = [.pd 1 "Request" [2, 450, 200]]),
    ok (.pdSourceCapsRx 1 true offer2 true) (tcUp 3 {} [(Pg.tc 1, TC.TC_STAT_prole, 1)]) (fun t => (t.tc 1).hook = 3),
    ok (.pdSourceCapsRx 1 true offer2 true) (tcUp 3) (fun t => (t.tc 1).hook = 0)].all id = true := by decide +kernel

theorem test_PdSwapsAndOwnSequences : [ok (.tcRenegotiate 1) (tcUp 2 { hardN := 2 }) (fun t => t.tcSt 1 = 2), ok (.sourceCapsSend 1 true false) (tcUp 3 {} [(Pg.eng 1, ENG.ENG_STAT_state 0, 4)]) (fun t => t.outbox = []), ok (.hookTimeout 1) (tcUp 5 { hook := 4 } [(Pg.eng 1, ENG.ENG_STAT_state 0, 4)]) (fun t => t.outbox = [] && (t.tc 1).hook = 0 && t.rd (Pg.tc 1) TC.TC_CNT2_hook_tmo = 1),
    ok (.pdPrSwapRx 1 false) { tcUp 3 with eng := polTable [polRule 4 3 0] } (fun t => t.outbox = []), ok (.pdPrSwapRx 1 false) { tcUp 5 {} [(Pg.vbs 1, VBS.VBS_STAT_state, 1)] with eng := polTable [polRule 4 3 0] } (fun t => t.tcSt 1 = 9 && (t.tc 1).swap = 2 && t.vb 1 = vbDisch), ok (.pdPrSwapRx 1 false) { tcUp 5 {} [(Pg.tc 1, TC.TC_STAT_moist, 2)] with eng := polTable [polRule 4 3 0] } (fun t => t.outbox = [.pd 1 "Reject" []]),
    ok (.pdPrSwapRx 1 false) { tcUp 5 { swap := 1 } [(Pg.tc 1, TC.TC_STAT_pd_rev, 1)] with eng := polTable [polRule 4 3 0] } (fun t => t.outbox = [.pd 1 "Wait" []] && t.rd (Pg.tc 1) TC.TC_CNT2_collisions = 1), ok (.pdPrSwapRx 1 false) { tcUp 5 { swap := 1 } [(Pg.tc 1, TC.TC_STAT_pd_rev, 1), (Pg.tc 1, TC.TC_STAT_prole, 1)] with eng := polTable [polRule 4 3 0] } (fun t => t.tcSt 1 = 9 && (t.tc 1).swap = 4),
    ok (.pdPrSwapRx 1 true) (tcUp 5) (fun t => (t.tc 1).hook = 4), ok (.tcPrSwap 1 false) { tcUp 5 {} [(Pg.tc 1, TC.TC_STAT_pd_rev, 2)] with eng := polTable [polRule 4 8 0] } (fun t => (t.tc 1).deferred = 2 && t.rd (Pg.tc 1) TC.TC_STAT_rp_adv = 1), ok (.tcPrSwap 1 false) { tcUp 5 {} [(Pg.tc 1, TC.TC_STAT_pd_rev, 1)] with eng := polTable [polRule 4 8 0] } (fun t => t.outbox = [.pd 1 "PR_Swap" []]),
    ok (.tcPrSwap 1 false) (tcUp 5) (fun t => t.outbox = []), ok (.pdVconnSwapRx 1 false) (tcUp 5) (fun t => t.on (Pg.tc 1) TC.TC_STAT_vconn_on && t.outbox.length = 3), ok (.pdVconnSwapRx 1 false) (tcUp 5 {} [(Pg.tc 1, TC.TC_STAT_vconn_on, 1)]) (fun t => (t.tc 1).swap = 7 && t.tcSt 1 = 9),
    ok (.pdVconnSwapRx 1 false) { tcUp 5 with eng := polTable [polRule 5 1 0] } (fun t => t.outbox = [.pd 1 "Reject" []]), ok (.pdVconnSwapRx 1 true) (tcUp 5) (fun t => (t.tc 1).hook = 5), ok (.pdDrSwapRx 1) (tcUp 5 { deferred := 2 }) (fun t => t.outbox = [.pd 1 "Reject" []] && t.rd (Pg.tc 1) TC.TC_CNT2_collisions = 1), ok (.pdDrSwapRx 1) (tcHub 0) (fun t => t.outbox = []),
    ok (.tcVconnSwap 1) (tcUp 3) (fun t => t.outbox = []), ok (.tcVconnSwap 1) (tcUp 5 {} [(Pg.tc 1, TC.TC_STAT_pd_rev, 2)]) (fun t => (t.tc 1).deferred = 3), ok (.tcVconnSwap 1) (tcUp 5) (fun t => (t.tc 1).swap = 6), ok (.tcRenegotiate 1) (tcUp 5) (fun t => t.tcSt 1 = 3),
    ok (.tcRenegotiate 1) (tcUp 2 {} [(Pg.tc 1, TC.TC_STAT_pd_rev, 2)]) (fun t => (t.tc 1).deferred = 1), ok (.tcRenegotiate 1) (tcUp 5 {} [(Pg.tc 1, TC.TC_STAT_prole, 1)]) (fun t => t.tcSt 1 = 5), ok (.sinktxWaitEnd 1) (tcUp 5 { deferred := 1 }) (fun t => t.tcSt 1 = 3), ok (.sinktxWaitEnd 1) (tcUp 5 { deferred := 2 }) (fun t => (t.tc 1).swap = 1),
    ok (.sinktxWaitEnd 1) (tcUp 5) (fun t => t.outbox = []), ok (.pdResponseRx 1 .accept) (tcUp 5 { swap := 1 }) (fun t => t.tcSt 1 = 9 && (t.tc 1).swap = 2), ok (.pdResponseRx 1 .wait) (tcUp 5 { swap := 1 }) (fun t => t.tcSt 1 = 5 && (t.tc 1).swap = 0), ok (.pdResponseRx 1 .accept) (tcUp 5 { swap := 6 }) (fun t => t.on (Pg.tc 1) TC.TC_STAT_vconn_on),
    ok (.pdResponseRx 1 .reject) (tcUp 5 { swap := 6 }) (fun t => (t.tc 1).swap = 0), ok (.pdResponseRx 1 .reject) (tcUp 5 { asked := some (1, 0, 250, 50) }) (fun t => (t.tc 1).asked = none), ok (.pdPsRdyRx 1) (tcUp 9 { swap := 3 }) (fun t => t.tcSt 1 = 3 && (t.tc 1).swap = 0),
    ok (.pdPsRdyRx 1) (tcUp 9 { swap := 4 } [(Pg.tc 1, TC.TC_STAT_prole, 1)]) (fun t => !t.tcSink 1 && (t.tc 1).swap = 5 && t.vb 1 = vbOn), ok (.pdPsRdyRx 1) (tcUp 9 { swap := 7 } [(Pg.tc 1, TC.TC_STAT_vconn_on, 1)]) (fun t => !t.on (Pg.tc 1) TC.TC_STAT_vconn_on && t.tcSt 1 = 5),
    ok (.pdPsRdyRx 1) (tcUp 3 { asked := some (2, 0, 450, 200) } [(Pg.tc 1, TC.TC_STAT_prole, 1)]) (fun t => t.tcSt 1 = 5 && t.rd (Pg.tc 1) TC.CONTRACT_v = 450 && t.vb 1 = vbOn), ok (.pdPsRdyRx 1) (tcUp 3) (fun t => t.outbox = [])].all id = true := by decide +kernel

theorem test_PdVdmsAndHooks : [ok (.pdVdmRx 1 (.modes true true) false) { tcUp 5 { alt := 3 } with eng := polTable [polRule 6 6 4] } (fun t => (t.tc 1).alt = 4 && (t.tc 1).pinD), ok (.pdVdmRx 1 (.modes true true) true) (tcUp 5 { alt := 3 }) (fun t => (t.tc 1).hook = 6 && t.outbox = []),
    ok (.pdVdmRx 1 (.cable true true 2 1) false) (tcUp 3 { cableAsk := true }) (fun t => t.on (Pg.tc 1) TC.TC_CABLE_a5 && !(t.tc 1).cableAsk), ok (.pdVdmRx 1 (.cable true true 2 1) false) (tcUp 3) (fun t => !t.on (Pg.tc 1) TC.TC_CABLE_a5), ok (.pdVdmRx 1 .other false) (tcHub 0) (fun t => t.outbox = []),
    ok (.pdVdmRx 1 (.identity true) false) (tcUp 5 { alt := 1 }) (fun t => (t.tc 1).alt = 2 && t.outbox = [.pd 1 "Discover SVIDs" [0xFF01]]), ok (.pdVdmRx 1 (.identity false) false) (tcUp 5 { alt := 1 }) (fun t => (t.tc 1).alt = 0), ok (.pdVdmRx 1 (.svids true) false) (tcUp 5 { alt := 2 }) (fun t => (t.tc 1).alt = 3),
    ok (.pdVdmRx 1 (.svids false) false) (tcUp 5 { alt := 2 }) (fun t => (t.tc 1).alt = 0), ok (.pdVdmRx 1 (.modes true true) false) (tcUp 5 { alt := 3 }) (fun t => (t.tc 1).alt = 4 && !(t.tc 1).pinD), ok (.pdVdmRx 1 (.modes false true) false) (tcUp 5 { alt := 3 }) (fun t => (t.tc 1).alt = 4 && (t.tc 1).pinD),
    ok (.pdVdmRx 1 (.modes true true) false) { tcUp 5 { alt := 3 } with eng := polTable [polRule 6 1 0] } (fun t => (t.tc 1).alt = 0), ok (.pdVdmRx 1 (.configure true) false) (tcUp 5 { alt := 6, pinD := true }) (fun t => t.rd (Pg.tc 1) TC.TC_ALT_mux = 3 && t.on (Pg.tc 1) TC.TC_ALT_entered),
    ok (.pdVdmRx 1 (.configure true) false) (tcUp 5 { alt := 6 }) (fun t => t.rd (Pg.tc 1) TC.TC_ALT_mux = 2), ok (.pdVdmRx 1 .exitMode false) (tcUp 5 {} [(Pg.tc 1, TC.TC_ALT_entered, 1), (Pg.tc 1, TC.TC_ALT_mux, 2)]) (fun t => t.rd (Pg.tc 1) TC.TC_ALT_mux = 0 && !t.on (Pg.tc 1) TC.TC_ALT_entered),
    ok (.hookTimeout 1) (tcUp 5) (fun t => t.rd (Pg.tc 1) TC.TC_CNT2_hook_tmo = 0), ok (.hookTimeout 1) (tcUp 3 { hook := 1, hookArg := [1], hookCaps := offer2 }) (fun t => (t.tc 1).offered = offer2 && (t.tc 1).wait && t.rd (Pg.tc 1) TC.TC_CNT2_hook_tmo = 1),
    ok (.hookTimeout 1) (tcUp 3 { hook := 2, hookArg := [2, 450, 200], offered := offer2 }) (fun t => t.tcSt 1 = 4 && (t.tc 1).target = some (2, 0, 450, 200)), ok (.tcPrSwap 1 true) (tcUp 5) (fun t => (t.tc 1).hook = 7), ok (.hookTimeout 1) (tcUp 3 { hook := 3, hookCaps := offer2 } [(Pg.tc 1, TC.TC_STAT_prole, 1), (Pg.tc 1, TC.TC_PWR_vmax, 200), (Pg.tc 1, TC.TC_PWR_imax, 60)]) (fun t => (t.tc 1).asked = some (2, 0, 450, 200)),
    ok (.hookTimeout 1) (tcUp 5 { hook := 4 }) (fun t => t.outbox = [.pd 1 "Reject" []]), ok (.hookTimeout 1) (tcUp 5 { hook := 5 }) (fun t => t.on (Pg.tc 1) TC.TC_STAT_vconn_on),
    ok (.hookTimeout 1) (tcUp 5 { hook := 7 }) (fun t => (t.tc 1).hook = 0 && t.outbox = [])].all id = true := by decide +kernel

/-! ### Bay switches, thermal events, timers, page events -/

/-- Bay 1's switch on at 5 V: the trim's bound is 436. -/
def vbOnHub (l : List (Nat × Fld × Nat) := []) : State := tcUp 5 {} ([(Pg.vbs 1, VBS.VBS_STAT_state, 1), (Pg.vbs 1, VBS.VBS_SET_vset, 250), (Pg.hvd, HVD.HVD_STAT_link, 1)] ++ l)

/-- A page-event cell. -/
def pageCellOf (page pend : Nat) : Cell := { ctype := 0xB, tunnel := 8, shub := 4, payload := [0x44, 0] ++ leBytes 2 page ++ leBytes 4 pend ++ leBytes 4 99 ++ leBytes 4 7 }

theorem test_SwitchesAndThermal : [ok (.baySwitchTrip 1 0) (tcUp 5) (fun t => t.vb 1 = vbOff), ok (.baySwitchTrip 1 3) (vbOnHub [(Pg.vbs 1, VBS.VBS_STAT_state, 2)]) (fun t => t.vb 1 = vbMove), ok (.baySwitchTrip 1 2) (vbOnHub [(Pg.vbs 1, VBS.VBS_STAT_state, 2)]) (fun t => t.vb 1 = vbTrip && t.rd (Pg.vbs 1) VBS.VBS_STAT_cause = 3),
    ok (.baySwitchTrip 1 0) vbOnHub (fun t => t.vb 1 = vbTrip && t.tcSt 1 = 6 && t.rd (Pg.tc 1) TC.TC_CAUSE_cause = 5 && t.rd (Pg.vbs 1) VBS.VBS_CNT_trips = 1), ok (.dischargeDone 1) vbOnHub (fun t => t.vb 1 = vbOn), ok (.dischargeFail 1) vbOnHub (fun t => t.rd (Pg.vbs 1) (HDR.raw VBS.ev_disch_fail.bit) = 0),
    ok (.dischargeDone 1) (tcUp 9 { swap := 2 } [(Pg.vbs 1, VBS.VBS_STAT_state, 3)]) (fun t => t.vb 1 = vbOff && t.tcSink 1 && (t.tc 1).swap = 3), ok (.dischargeFail 1) (tcUp 9 {} [(Pg.vbs 1, VBS.VBS_STAT_state, 4)]) (fun t => t.vb 1 = vbTrip && t.rd (Pg.vbs 1) (HDR.raw VBS.ev_disch_fail.bit) = 1),
    ok (.vbusTrimStep 1 true) (tcUp 5) (fun t => t.rd (Pg.vbs 1) VBS.VBS_TRIM_trim = 0), ok (.vbusTrimStep 1 false) vbOnHub (fun t => t.rd (Pg.vbs 1) VBS.VBS_TRIM_trim = 65535), ok (.vbusTrimStep 1 true) (vbOnHub [(Pg.vbs 1, VBS.VBS_TRIM_trim, 435)]) (fun t => t.rd (Pg.vbs 1) VBS.VBS_TRIM_trim = 436 && !t.on (Pg.vbs 1) VBS.VBS_STAT_trim_pin),
    ok (.vbusTrimStep 1 true) (vbOnHub [(Pg.vbs 1, VBS.VBS_TRIM_trim, 436)]) (fun t => t.rd (Pg.vbs 1) VBS.VBS_TRIM_trim = 436 && t.on (Pg.vbs 1) VBS.VBS_STAT_trim_pin), ok (.vbsTrimWrite 1 5) (vbOnHub [(Pg.bay 1, HDR.PG_CTL_en, 0)]) (fun t => t.rd (Pg.vbs 1) VBS.VBS_TRIM_trim = 0),
    ok (.vbsTrimWrite 1 5) { hub3 [] with pw := { on := true } } (fun t => t.rd Pg.hvd HVD.LINK_CNT_wr_drop = 1), ok (.vbsTrimWrite 1 436) vbOnHub (fun t => t.rd (Pg.vbs 1) VBS.VBS_TRIM_trim = 436 && !t.on (Pg.vbs 1) VBS.VBS_STAT_trim_pin),
    ok (.vbsTrimWrite 1 (65536 - 437)) vbOnHub (fun t => t.rd (Pg.vbs 1) VBS.VBS_TRIM_trim = 65536 - 436 && t.on (Pg.vbs 1) VBS.VBS_STAT_trim_pin), ok .companionThermalShutdown (hub3 []) (fun t => !t.pw.hot), ok .companionThermalRecover (vbOnHub) (fun t => !t.pw.hot && t.ef = efOff),
    ok .companionThermalShutdown vbOnHub (fun t => t.pw.hot && !t.vbConducts 1 && t.rd Pg.pwp PWP.EF_STAT_cause = 5 && t.tcSt 1 = 7), ok .companionThermalRecover { vbOnHub with pw := { on := true, hot := true } } (fun t => !t.pw.hot && t.ef = efCool),
    ok (.thermalWarning false 105) (hub3 [(Pg.glb, GLB.THERM_warn, 105)]) (fun t => t.rd Pg.glb GLB.THERM_temp = 105 && t.rd Pg.glb (HDR.raw GLB.ev_thermal_warn.bit) = 1), ok (.thermalWarning true 90) (vbOnHub [(Pg.hvd, HVD.HVD_CFG_t_warn, 91)]) (fun t => t.rd Pg.hvd HVD.HVD_STAT_temp = 90 && t.rd Pg.hvd (HDR.raw HVD.ev_thermal_warn.bit) = 0)].all id = true := by decide +kernel

theorem test_TimersAndPageEvents : [ok (.eventHoldExpiry 9) { hub3 [] with evt := { hold := [8] } } (fun t => t.evt.hold = [8]), ok (.eventHoldExpiry 8) { hub3 [] with evt := { hold := [8], due := [8] } } (fun t => t.evt.hold = [] && t.evt.due = [] && t.outbox = []),
    ok (.pageEventCellRx .td (pageCellOf (Pg.chn) 1)) (headHeld []) (fun t => t.vhg.pfq = [[0, 4, Pg.chn, 1, 99]]), ok (.pageEventCellRx .td { pageCellOf (Pg.chn) 1 with payload := [0x45] }) (headHeld []) (fun t => t.vhg.pfq = []),
    ok (.pageEventCellRx .td (pageCellOf (Pg.eth 1) 4)) (vhc5 Machine.vFrozen {} [(Pg.vhc 5, VHC.DIR_CFG_cfg 2, 2 ^ 31 + 2 * 2 ^ 28 + 4 * 2 ^ 20 + 2 ^ 17)]) (fun t => t.vhg.pfq = [] && (t.vhcCtx 5).held = [[0x1000, 0, 4 * 2 ^ 24 + Pg.eth 1, 4, 99, 7, 0, 0]]),
    ok (.pageEventCellRx .td (pageCellOf (Pg.trk .td) (2 ^ TRK.ev_link_down.bit))) (home0 [] { dir := [(4, de), (5, de)] }) (fun t => t.chain.c0.dir.map (fun e => e.2.valid) = [true, false]),
    decide ((vhc5 Machine.vActive {} [(Pg.vhc 5, VHC.DIR_CFG_cfg 2, 2 ^ 31 + 2 * 2 ^ 28 + 4 * 2 ^ 20 + 2 ^ 17)]).ownerOf 0 4 2 1 = some (5, 2)), ok (.timerEnable 2 0) (hub3 [(Pg.tmr, TMR.TMR_CFG_en 2, 1)]) (fun t => t.tmr = [] && !t.on Pg.tmr (TMR.TMR_CFG_en 2)),
    ok (.timerEnable 2 (2 ^ 31 + 5)) { hub3 [(Pg.tmr, TMR.TMR_CFG_en 2, 1)] with tmr := [(2, 77)] } (fun t => t.tmr = [(2, 77)]), ok (.timerEnable 2 (2 ^ 31 + 5)) { hub3 [] with now := 100 } (fun t => t.tmr = [(2, 5100)]),
    ok (.timerEnable 2 (2 ^ 31 + 2 ^ 29 + 5)) (hub3 [(Pg.tmr, TMR.TMR_START_LO_start_lo 2, 900)] { time := 900 }) (fun t => t.tmr = [(2, 900)]), ok (.timerEnable 2 (2 ^ 31 + 2 ^ 30 + 2 ^ 29 + 5)) (hub3 [(Pg.tmr, TMR.TMR_START_LO_start_lo 2, 900)] { time := 5901 }) (fun t => t.tmr = [(2, 10900)]),
    ok (.timerEnable 2 (2 ^ 31 + 2 ^ 29 + 5)) (hub3 [(Pg.tmr, TMR.TMR_START_LO_start_lo 2, 900)] { time := 901 }) (fun t => t.tmr = [] && t.on Pg.tmr (TMR.TMR_CFG_en 2)), ok (.timerExpiry 2) (hub3 []) (fun t => t.rd Pg.tmr (TMR.TMR_EXP_expiries 2) = 0),
    ok (.timerExpiry 2) { hub3 [(Pg.tmr, TMR.TMR_CFG_periodic 2, 1), (Pg.tmr, TMR.TMR_CFG_period_us 2, 5)] with tmr := [(2, 77)] } (fun t => t.tmr = [(2, 5077)] && t.rd Pg.tmr (TMR.TMR_EXP_expiries 2) = 1), ok (.timerExpiry 2) { hub3 [(Pg.tmr, TMR.TMR_CFG_en 2, 1)] with tmr := [(2, 77)] } (fun t => t.tmr = [] && !t.on Pg.tmr (TMR.TMR_CFG_en 2))].all id = true := by decide +kernel

/-! ### Engines, mailboxes, updates (R382–R401) -/

/-- A table image of one section with one entry (R391, R392). -/
def oneEntry (type : Nat) (l : List Byte) : List Byte := List.replicate 6 0 ++ [1, 0] ++ List.replicate 24 0 ++ leBytes 1 type ++ [15] ++ leBytes 2 l.length ++ [1, 0, 0, 0, 0x30, 0, 0, 0, 0, 0, 0, 0] ++ l

/-- Hub 3 whose engine `e` is in a state, its mailbox in state `mb` with owner 1. -/
def engHub (e st mb : Nat) (x : EngCtx := {}) (l : List (Nat × Fld × Nat) := []) : State :=
  { hub3 ([(Pg.eng (e / 4), ENG.ENG_STAT_state (e % 4), st), (Pg.eng (e / 4), ENG.MB_STAT_st (e % 4), mb), (Pg.eng (e / 4), ENG.MB_OWN_owner (e % 4), 1)] ++ l) with eng := x }

/-- The mailbox of an engine has answered an operation with a status. -/
def answered (t : State) (e op status : Nat) : Bool := t.mbSt e = 2 && t.rd (Pg.eng (e / 4)) (ENG.MB_STAT_status (e % 4)) = status && t.rd (Pg.eng (e / 4)) (ENG.MB_DATA_data (128 * (e % 4))) = op + 256 * 7 + 65536 * status

/-- R392: a timing of H 0x500 of 0x600 in total, with ID 5. -/
def timing5 : List Byte := [0, 6, 0, 5] ++ List.replicate 12 0 ++ [1, 0, 0, 9] ++ List.replicate 4 0 ++ [5, 0, 0, 0]

/-- A window with en, tunnel 0x123, pxbase 0x77, and ID 5. -/
def window5 : List Byte := [0x23, 1, 0, 0x80, 0x77, 0, 0, 0] ++ leBytes 4 0x9000 ++ leBytes 4 3 ++ [5, 0, 0, 0]

/-- A freeze setup whose window 2 has mode 1. -/
def freeze5 : List Byte := List.replicate 16 0 ++ [0x34, 2, 0, 0] ++ List.replicate 32 0 ++ [0, 0, 0, 0x40] ++ List.replicate 92 0 ++ [5, 0, 0, 0]

theorem test_Mailboxes : [ok (.mailboxClaim 1 9) (hub3 []) (fun t => t.rd (Pg.eng 2) (ENG.MB_OWN_owner 1) = 2), ok (.mailboxClaim 1 9) (engHub 9 2 0) (fun t => t.rd (Pg.eng 2) (ENG.MB_OWN_owner 1) = 1), ok (.mailboxRelease 9) (engHub 9 2 1) (fun t => t.mbSt 9 = 1),
    ok (.mailboxRelease 9) (engHub 9 2 2) (fun t => t.mbSt 9 = 0 && t.rd (Pg.eng 2) (ENG.MB_OWN_owner 1) = 0), ok (.mailboxOwnTimeout 9) (engHub 9 2 2) (fun t => t.rd (Pg.eng 2) (ENG.ENG_CNT_own_tmo 1) = 1), ok (.mailboxOwnTimeout 9) (hub3 []) (fun t => t.rd (Pg.eng 2) (ENG.ENG_CNT_own_tmo 1) = 0),
    ok (.getInfo 1 9 7) (engHub 9 2 0) (fun t => t.mbSt 9 = 0), ok (.getInfo 0 9 7) (engHub 9 3 0) (fun t => t.mbSt 9 = 1 && t.rd (Pg.eng 2) (ENG.MB_DATA_data 128) = 0x701), ok (.getInfo 0 9 7) (engHub 9 2 0 { noProf := true }) (fun t => answered t 9 1 6), ok (.loadTiming 0 8 7 5) (engHub 8 2 0) (fun t => answered t 8 0x10 1),
    ok (.loadFreeze 0 15 7 5) (engHub 15 2 0) (fun t => answered t 15 0x12 1), ok (.loadWindow 0 9 7 0 5 false) (engHub 9 2 0) (fun t => answered t 9 0x11 1), ok (.loadTiming 0 10 7 5) (engHub 10 2 0 {} [(Pg.disp 1, DISP.DISP_CTL_run, 1)]) (fun t => answered t 10 0x10 8), ok (.loadTiming 0 10 7 5) (engHub 10 2 0) (fun t => answered t 10 0x10 7),
    ok (.loadTiming 0 10 7 5) (engHub 10 2 0 { tbl := oneEntry 0x10 timing5 }) (fun t => answered t 10 0x10 0 && t.rd (Pg.disp 1) DISP.H_TIM0_h_active = 0x500 && t.rd (Pg.disp 1) DISP.H_TIM0_h_total = 0x600 && t.rd (Pg.disp 1) DISP.PCLK_div_int = 9 && t.rd (Pg.disp 1) DISP.PCLK_div_frac = 1),
    ok (.loadFreeze 0 10 7 5) (engHub 10 2 0) (fun t => answered t 10 0x12 7), ok (.loadFreeze 0 10 7 5) (engHub 10 2 0 { tbl := oneEntry 0x12 freeze5 }) (fun t => answered t 10 0x12 0 && t.rd (Pg.frz 1) FRZ.WD_CFG_wd_ms = 0x234 && t.rd (Pg.frz 1) (FRZ.WIN_CFG_mode 2) = 1),
    ok (.loadWindow 0 14 7 8 5 false) (engHub 14 2 0) (fun t => answered t 14 0x11 2), ok (.loadWindow 0 14 7 7 5 false) (engHub 14 2 0) (fun t => answered t 14 0x11 7),
    ok (.loadWindow 0 14 7 7 5 false) (engHub 14 2 0 { tbl := oneEntry 0x11 window5 }) (fun t => answered t 14 0x11 0 && t.rd Pg.pxb (PXB.WIN_CFG_en 7) = 1 && t.rd Pg.pxb (PXB.WIN_CFG_tunnel 7) = 0x123 && t.rd Pg.pxb (PXB.WIN_PX_pxbase 7) = 0x77 && t.rd Pg.pxb (PXB.WIN_THI_tbase_hi 7) = 3),
    ok (.loadWindow 0 14 7 7 5 true) (engHub 14 2 0 { tbl := oneEntry 0x11 window5 } [(Pg.pxb, PXB.PX_STAT_owner, 2)]) (fun t => answered t 14 0x11 8), ok (.loadWindow 0 14 7 7 5 false) (engHub 14 2 0 { tbl := oneEntry 0x11 window5 } [(Pg.pxb, PXB.PX_STAT_owner, 2)]) (fun t => answered t 14 0x11 0 && t.xbr.pxLate.map (·.1) = [0xD0, 0xD4, 0xD8, 0xDC]),
    ok (.engineWatchdogExpiry 9) (engHub 9 3 0) (fun t => t.engState 9 = 3), ok (.engineWatchdogExpiry 9) (engHub 9 2 0) (fun t => t.engState 9 = 4 && t.rd (Pg.eng 2) (ENG.ENG_CNT_wdg_exp 1) = 1), ok (.engineRestart 15) (engHub 15 2 0) (fun t => t.engState 15 = 2), ok (.engineRestart 14) (engHub 14 3 0) (fun t => t.engState 14 = 4),
    ok (.engineRestartComplete 9 true) (engHub 9 2 0) (fun t => t.rd (Pg.eng 2) (ENG.ENG_CNT_restarts 1) = 0), ok (.engineRestartComplete 9 false) (engHub 9 4 0) (fun t => t.engState 9 = 3 && t.rd (Pg.eng 3) (HDR.raw 13) = 1), ok (.engineRestartComplete 9 true) (engHub 9 4 1) (fun t => t.engState 9 = 2 && t.mbSt 9 = 2 && t.rd (Pg.eng 2) (ENG.MB_STAT_status 1) = 3)].all id = true := by decide +kernel

/-- E15 with its mailbox claimed by source 1, a session and engine data. -/
def updHub (u : Update := {}) (x : EngCtx := {}) (l : List (Nat × Fld × Nat) := []) : State := { engHub 15 2 0 x l with update := u }

/-- A session of source 1 on the table slot. -/
def session1 : Update := { kind := 2, owner := 1, size := 64 }

/-- A boot record that names slots 0 and 1. -/
def boot7 : BootRec := ⟨7, 0, 1, 0, 0, true, 2⟩

theorem test_Updates : [ok (.updBegin 0 15 7 2 64) (updHub session1) (fun t => answered t 15 0x20 4), ok (.updBegin 0 15 7 3 64) updHub (fun t => answered t 15 0x20 2), ok (.updBegin 0 15 7 2 0x80001) updHub (fun t => answered t 15 0x20 2 && t.update = {}), ok (.updBegin 0 15 7 1 0) updHub (fun t => answered t 15 0x20 2),
    ok (.updBegin 0 15 7 2 0x80000) (updHub {} { boot := boot7 }) (fun t => answered t 15 0x20 0 && t.update = { kind := 2, owner := 1, size := 0x80000 } && t.outbox = [.flash "erase" 0x610000 []]), ok (.updBegin 0 15 7 1 0x300000) updHub (fun t => t.outbox = [.flash "erase" 0x310000 []]),
    ok (.updData 0 15 7 0 [1]) updHub (fun t => answered t 15 0x21 8), ok (.updVerify 0 15 7) updHub (fun t => answered t 15 0x22 8), ok (.updCommit 0 15 7) updHub (fun t => answered t 15 0x23 8), ok (.updAbort 0 15 7) updHub (fun t => answered t 15 0x24 8),
    ok (.updData 0 15 7 0 [1]) (updHub { session1 with owner := 2 }) (fun t => answered t 15 0x21 4), ok (.updCommit 0 15 7) (updHub { session1 with owner := 2, passed := true }) (fun t => answered t 15 0x23 4 && t.update.kind = 2), ok (.confirm 0 15 7) (updHub { session1 with owner := 0 }) (fun t => answered t 15 0x25 4),
    ok (.updData 0 15 7 8 [1]) (updHub session1) (fun t => answered t 15 0x21 2), ok (.updData 0 15 7 48 (List.replicate 17 1)) (updHub session1) (fun t => answered t 15 0x21 2), ok (.updData 0 15 7 48 (List.replicate 16 1)) (updHub session1) (fun t => answered t 15 0x21 0 && t.update.chunks.length = 1 && t.outbox = [.flash "write" (0x690000 + 48) (List.replicate 16 1)]),
    ok (.updVerify 0 15 7) (updHub session1) (fun t => answered t 15 0x22 5 && !t.update.passed), ok (.updCommit 0 15 7) (updHub session1) (fun t => answered t 15 0x23 8 && t.update = session1),
    ok (.updCommit 0 15 7) (updHub { session1 with passed := true } { boot := boot7 }) (fun t => answered t 15 0x23 0 && t.update = {} && t.eng.boot = ⟨8, 0, 0, 0, 1, true, 0⟩ && t.rd (Pg.eng 3) (HDR.raw 12) = 1), ok (.updAbort 0 15 7) (updHub session1) (fun t => answered t 15 0x24 0 && t.update = {}),
    ok (.confirm 0 15 7) (updHub {} { boot := boot7 }) (fun t => answered t 15 0x25 0 && t.eng.boot = ⟨8, 0, 1, 0, 0, false, 0⟩), ok (.profilePin 0 15 7 3) (updHub {} {} [(Pg.fus, FUS.PROFILE_profile, 3)]) (fun t => answered t 15 0x30 4), ok (.profilePin 0 15 7 3) (updHub {} { pin := some 4 }) (fun t => answered t 15 0x30 4),
    ok (.profilePin 0 15 7 4) (updHub {} { pin := some 4 }) (fun t => answered t 15 0x30 0), ok (.profilePin 0 15 7 4) updHub (fun t => answered t 15 0x30 6 && t.eng.pin = none), ok (.profilePin 0 15 7 4) (updHub {} { fw := List.replicate 0x14 0 ++ [1, 0] ++ List.replicate 10 0 ++ [4, 0] }) (fun t => answered t 15 0x30 0 && t.eng.pin = some 4 && t.outbox = [.flash "pin" 4 []]),
    ok .updateIdleTimeout (updHub session1) (fun t => t.update = {}), ok (.curveLoad true) { comp [(Pg.eng 1, ENG.ENG_STAT_state 3, 2), (Pg.pwp, PWP.EF_STAT_state, 3)] with eng := { tbl := oneEntry 0x21 [9, 0, 8, 0] } } (fun t => t.eng.curves = [true] && t.rd Pg.pwp (PWP.CDN_e 1) = 100),
    ok (.profilePin 0 15 7 4) (updHub {} { pin := some 4 } [(Pg.fus, FUS.PROFILE_profile, 3)]) (fun t => answered t 15 0x30 0), ok (.curveLoad true) (comp [(Pg.eng 1, ENG.ENG_STAT_state 3, 2)]) (fun t => t.rd Pg.pwp (PWP.CDN_e 1) = 100), ok (.curveLoad true) { comp [(Pg.eng 1, ENG.ENG_STAT_state 3, 2)] with eng := { tbl := oneEntry 0x21 [9, 0, 8, 0] } } (fun t => t.rd Pg.pwp (PWP.CDN_e 7) = 9 && t.rd Pg.pwp (PWP.CDN_t 0) = 8),
    ok (.curveLoad false) { comp [(Pg.eng 1, ENG.ENG_STAT_state 3, 2)] with eng := { tbl := oneEntry 0x20 [9, 0, 8, 0] } } (fun t => t.rd Pg.pwp (PWP.FBK_vds 3) = 9 && t.rd Pg.pwp (PWP.FBK_frac 0) = 8)].all id = true := by decide +kernel

/-! ### The Larder (R404–R417) -/

/-- E8 of hub 3 with its mailbox claimed by source 1. -/
def lrdHub (slots : Tab KeySlot := []) (l : List (Nat × Fld × Nat) := []) : State := { engHub 8 2 0 {} l with larder := { slots := [(0, { valid := true, kind := 1, use := 1 })] ++ slots } }

/-- A key of 32 bytes, and the slot that holds it under no mask. -/
def key5 : List Byte := List.replicate 32 5
def slotOf (use : Nat) (valid : Bool := true) : KeySlot := { valid := valid, kind := 3, use := use, stored := key5, mask := List.replicate 32 0 }

/-- R412: an update message with magic, device, action, slot and counter. -/
def upd (dev action slot cnt : Nat) (len : Nat := 84) : List Byte := (leBytes 4 0x4B55504C ++ leBytes 1 action ++ leBytes 1 slot ++ [0, 0] ++ leBytes 8 dev ++ leBytes 4 cnt ++ List.replicate 64 0).take len

theorem test_LarderKeys : [ok (.keyWrite 2 8 7 20 1 false key5) { lrdHub with regs := (engHub 8 2 0 {} [(Pg.eng 2, ENG.MB_OWN_owner 0, 3)]).regs } (fun t => answered t 8 0x40 1), ok (.keyWrite 0 8 7 20 1 false key5) (lrdHub [] [(Pg.lrd, LRD.LRD_STAT_gate, 0)]) (fun t => answered t 8 0x40 4),
    ok (.keyWrite 0 8 7 12 1 false key5) (lrdHub [] [(Pg.lrd, LRD.LRD_STAT_gate, 1)]) (fun t => answered t 8 0x40 2), ok (.keyWrite 0 8 7 20 1 false [5]) (lrdHub [] [(Pg.lrd, LRD.LRD_STAT_gate, 1)]) (fun t => answered t 8 0x40 2),
    ok (.keyWrite 0 8 7 20 1 true key5) (lrdHub [] [(Pg.lrd, LRD.LRD_STAT_gate, 1), (Pg.fus, FUS.ROWS_used, 255)]) (fun t => answered t 8 0x40 8 && (t.slot 20).valid = false),
    ok (.keyDerive 0 8 7 15 20 0 (List.replicate 4 65) []) (lrdHub [(20, slotOf 1)]) (fun t => answered t 8 0x41 2), ok (.keyDerive 0 8 7 16 20 0 [65] []) (lrdHub [(20, slotOf 1)]) (fun t => answered t 8 0x41 2), ok (.keyDerive 0 8 7 16 20 0 (List.replicate 4 65) []) lrdHub (fun t => answered t 8 0x41 7),
    ok (.keyDerive 0 8 7 16 20 0 (List.replicate 4 65) []) (lrdHub [(20, slotOf 2)]) (fun t => answered t 8 0x41 2), ok (.keyDerive 0 8 7 20 20 0 (List.replicate 4 65) []) (lrdHub [(20, slotOf 1)]) (fun t => answered t 8 0x41 2),
    decide ((lrdHub [(20, slotOf 1)]).keyOk 20 = true ∧ (lrdHub [(20, slotOf 1)]).keyDepth 20 = 1 ∧ 16 ∉ (lrdHub [(20, slotOf 1)]).keyChain 10 20), ok (.keyInvalidate 0 8 7 12) lrdHub (fun t => answered t 8 0x42 2),
    ok (.keyInvalidate 0 8 7 20) (lrdHub [(20, slotOf 1), (21, { slotOf 1 with kind := 4, parent := 20 })]) (fun t => answered t 8 0x42 0 && !t.keyOk 20 && (t.slot 20).stored = [] && (t.slot 21).stored = [] && t.rd Pg.lrd LRD.LRD_CNT1_swept = 2),
    ok (.keyMac 0 8 7 15 [1]) lrdHub (fun t => answered t 8 0x43 2), ok (.keyMac 0 8 7 16 (List.replicate 449 0)) (lrdHub [(16, slotOf 2)]) (fun t => answered t 8 0x43 2), ok (.keyMac 0 8 7 16 [1]) lrdHub (fun t => answered t 8 0x43 7), ok (.keyMac 0 8 7 16 [1]) (lrdHub [(16, slotOf 1)]) (fun t => answered t 8 0x43 2)].all id = true := by decide +kernel

/-- An update message that carries the MAC of a key. -/
def signedUpd (action slot cnt : Nat) : List Byte := (upd 0 action slot cnt).take 52 ++ hmac key5 ((upd 0 action slot cnt).take 52)

/-- HMAC-SHA-256 of the byte 1 under 32 bytes of 5, computed outside the model. -/
theorem test_LarderMac : [ok (.keyMac 0 8 7 16 [1]) (lrdHub [(16, slotOf 2)]) (fun t => answered t 8 0x43 0 && t.rd (Pg.eng 2) (ENG.MB_DATA_data 2) = 1528531725),
    ok (.keyUpdate 0 8 7 (signedUpd 1 20 0)) (lrdHub [(2, slotOf 0)]) (fun t => answered t 8 0x44 2 && t.rd Pg.lrd LRD.UPD_FAIL_cause = 4), decide ((lrdHub [(9, slotOf 0)]).keyOk 9 = true ∧ (lrdHub [(9, slotOf 0)]).eng.tbl = [] ∧ (lrdHub []).updArgOk 3 20 = false)].all id = true := by decide +kernel

theorem test_LarderUpdates : [ok (.keyUpdate 0 8 7 (upd 0 1 20 5 83)) lrdHub (fun t => answered t 8 0x44 2 && t.rd Pg.lrd LRD.UPD_FAIL_cause = 1), ok (.keyUpdate 0 8 7 (upd 99 1 20 5)) lrdHub (fun t => answered t 8 0x44 2 && t.rd Pg.lrd LRD.UPD_FAIL_cause = 2 && t.rd Pg.lrd LRD.LRD_CNT0_upd_fail = 1),
    ok (.keyUpdate 0 8 7 (upd 0 1 20 5)) lrdHub (fun t => answered t 8 0x44 5 && t.rd Pg.lrd LRD.UPD_FAIL_cause = 3), decide ((lrdHub []).updArgOk 3 20 = false ∧ (lrdHub []).updArgOk 1 20 = true ∧ (lrdHub []).updArgOk 6 65 = false),
    ok (.gateClose 0 8 7) (lrdHub [] [(Pg.lrd, LRD.LRD_STAT_gate, 1)]) (fun t => answered t 8 0x45 0 && !t.gateOpen && t.rd Pg.lrd (HDR.raw LRD.ev_gate_closed.bit) = 1), ok (.attest 0 8 7 [1]) lrdHub (fun t => answered t 8 0x46 2), ok (.attest 0 8 7 (List.replicate 16 0)) lrdHub (fun t => answered t 8 0x46 7),
    ok .lrdGateClose (lrdHub [] [(Pg.lrd, LRD.LRD_STAT_gate, 0)]) (fun t => t.rd Pg.lrd (HDR.raw LRD.ev_gate_closed.bit) = 0), ok .lrdGateClose (lrdHub [] [(Pg.lrd, LRD.LRD_STAT_gate, 1)]) (fun t => !t.gateOpen),
    (List.range 64).all (fun n => ((lrdHub [(20, slotOf 1)]).slot n).mask.length ≤ 32)].all id = true := by decide +kernel

/-! ### Sleep and wake (R425–R439) -/

/-- Hub 3 after boot, with a sleep asked for or not. -/
def sleepHub (l : List (Nat × Fld × Nat) := []) (ch : Chain := {}) (pm : PmCtx := {}) : State := { hub3 ([(Pg.glb, GLB.GLB_STAT_boot_done, 1)] ++ l) ch with pm := pm }

/-- A hub asleep in P2 with a watch program of one rule, its period 4. -/
def p2Hub (rule : List Byte) (l : List (Nat × Fld × Nat) := []) (hits : Tab Nat := []) : State :=
  { held ([(Pg.chn, CHN.CHN_STAT_addr, 3)] ++ l) with life := .p2, pm := { slept := 1000, prog := leBytes 4 100 ++ [1] ++ List.replicate 11 0 ++ rule, period := 4, hits := hits } }

/-- R435: feed A below 10; it marks or wakes after two matches, every 4 periods. -/
def feedRule (action : Byte) : List Byte := [3, 0, 0, action, 10, 0, 2, 2]
def watch (a : Nat) : Watch := ⟨[], [], [a, 0, 0], 25, []⟩
def noWake : Wake := ⟨0, false, false, false, false, false⟩

theorem test_SleepEntry : [ok (.trimEnter (.ethPair 1)) (sleepHub [(Pg.pws, PWS.TRIM_CFG_en, 0)]) (fun t => t.pm.trims = []), ok (.trimEnter (.ethPair 1)) (sleepHub [(Pg.eth 1, ETH.MAC_CFG_mode, 0)]) (fun t => t.pm.trims = [.ethPair 1] && t.rd Pg.pws PWS.PWS_STAT_state = 1),
    ok (.trimEnter (.ethPair 1)) (sleepHub [(Pg.eth 1, ETH.MAC_CFG_mode, 0)] {} { trims := [.ethPair 2] }) (fun t => t.pm.trims.length = 2 && t.rd Pg.pws PWS.PWS_STAT_state = 0), ok (.trimExit (.ethPair 1)) (sleepHub [(Pg.pws, PWS.PWS_STAT_state, 1)] {} { trims := [.ethPair 1] }) (fun t => t.pm.trims = [] && t.rd Pg.pws PWS.PWS_STAT_state = 0),
    ok (.trimExit (.ethPair 1)) (sleepHub [] {} { trims := [.ethPair 2] }) (fun t => t.pm.trims = [.ethPair 2]), ok (.trimExit (.ethPair 1)) (sleepHub [(Pg.pws, PWS.PWS_STAT_state, 1)] {} { trims := [.ethPair 2, .ethPair 1] }) (fun t => t.pm.trims = [.ethPair 2] && t.rd Pg.pws PWS.PWS_STAT_state = 1),
    ok (.pwsSleepRequest 3) (sleepHub) (fun t => t.rd Pg.pws PWS.PWS_STAT_refuse = 5 && t.rd Pg.pws PWS.SLEEP_CNT_refusals = 1), ok (.pwsSleepRequest 3) { sleepHub with mode := .head } (fun t => t.rd Pg.pws PWS.PWS_STAT_refuse = 4 && t.pm.want = 0), ok (.pwsSleepRequest 3) { sleepHub with mode := .standalone } (fun t => t.pm.want = 3),
    ok (.sleepEntry []) sleepHub (fun t => t.life = .running), ok (.sleepEntry []) { sleepHub [] {} { want := 2 } with update := { kind := 1 } } (fun t => t.life = .running && t.rd Pg.pws PWS.PWS_STAT_refuse = 2 && t.pm.want = 0),
    ok (.sleepEntry []) (sleepHub [] { time := 99 } { want := 3 }) (fun t => t.life = .p3 && t.addr = 3 && t.chain.time = 99 && t.pm.slept = 99 && t.rd Pg.pws PWS.SLEEP_CNT_sleeps = 1 && t.on Pg.glb GLB.GLB_STAT_pads_held && t.pst .tu = stSleep),
    ok (.sleepEntry []) { sleepHub [] { armed := [⟨1, 2, 0, 5⟩] } with update := { kind := 1 } } (fun t => t.life = .running && t.chain.armed = [] && t.rd Pg.pws PWS.PWS_STAT_refuse = 2), ok (.sleepEntry []) (sleepHub [] { armed := [⟨1, 2, 0, 5⟩] }) (fun t => t.life = .p2),
    ok .padRelease (sleepHub [(Pg.glb, GLB.GLB_STAT_pads_held, 1)]) (fun t => !t.on Pg.glb GLB.GLB_STAT_pads_held), ok .padRelease sleepHub (fun t => t.outbox = [])].all id = true := by decide +kernel

theorem test_Wake : [ok (.watchSample (watch 9)) sleepHub (fun t => t.pm.period = 0), ok (.watchSample (watch 10)) (p2Hub (feedRule 1) [] [(0, 1)]) (fun t => t.pm.hits = [] && t.pm.period = 5), ok (.watchSample (watch 9)) (p2Hub (feedRule 1)) (fun t => t.pm.hits = [(0, 1)]),
    ok (.watchSample (watch 9)) { p2Hub (feedRule 1) with pm := { (p2Hub (feedRule 1)).pm with period := 3 } } (fun t => t.pm.hits = [] && t.pm.period = 4), ok (.watchSample (watch 9)) (p2Hub (feedRule 1) [] [(0, 1)]) (fun t => t.pm.hits = [] && t.rd Pg.pws PWS.WATCH_MARK_marks = 1 && !t.woken),
    ok (.watchSample (watch 9)) (p2Hub (feedRule 0) [] [(0, 1)]) (fun t => t.on Pg.pws PWS.WAKE_CAUSE_watch && t.rd Pg.pws PWS.WAKE_CAUSE_rule = 0 && t.woken), ok (.wakeFromP2 noWake [] [] 32768 7) (p2Hub (feedRule 0)) (fun t => t.life = .p2),
    ok (.wakeFromP2 { noWake with feed := true } [] [] 32768 7) (p2Hub (feedRule 0)) (fun t => t.life = .running && t.chain.time = 1000001000 && t.rd Pg.pws PWS.WAKE_TIME_us = 7 && t.rd Pg.pws PWS.PWS_STAT_last_sleep = 2 && t.rd Pg.pws PWS.WAKE_CAUSE_src = 4 && t.pm = {} && t.addr = 3),
    ok (.wakeFromP3 noWake [] 0 false false noFlash 32768 7) { p2Hub (feedRule 0) with life := .p3 } (fun t => t.life = .p3), ok (.wakeFromP3 { noWake with td := true } [] 0 false false noFlash 32768 7) { p2Hub (feedRule 0) with life := .p3 } (fun t => t.life = .running && t.on Pg.pws PWS.WAKE_CAUSE_valid && t.on Pg.glb GLB.GLB_STAT_boot_err)].all id = true := by decide +kernel

/-! ### Clock and voltage loops (R440–R445) -/

theorem test_AvsLoop : [ok (.osc32Trim (-3)) (hub3 []) (fun t => t.rd Pg.clk CLK.CLK_STAT_osc32_err = 65533), ok (.osc32Trim 3) (hub3 [(Pg.pws, PWS.PWS_STAT_state, 1)]) (fun t => t.rd Pg.clk CLK.CLK_STAT_osc32_err = 0),
    ok (.avsInterval 15 true) (hub3 []) (fun t => t.vdd = 905 && t.rd Pg.avs AVS.AVS_STAT_slack = 15 && t.rd Pg.avs (HDR.raw AVS.ev_slack_low.bit) = 1 && t.rd Pg.avs AVS.AVS_CNT_ups = 1), ok (.avsInterval 16 true) (hub3 []) (fun t => t.vdd = 900), ok (.avsInterval 20 true) (hub3 []) (fun t => t.vdd = 900),
    ok (.avsInterval 21 true) (hub3 []) (fun t => t.vdd = 895 && t.rd Pg.avs AVS.AVS_CNT_downs = 1), ok (.avsInterval (-1) true) (hub3 [(Pg.avs, AVS.AVS_CFG_hold, 1)]) (fun t => t.vdd = 900 && t.rd Pg.avs AVS.AVS_STAT_slack = 255), ok (.avsInterval 15 true) (hub3 [(Pg.avs, AVS.AVS_SET_v_mv, 958)]) (fun t => t.vdd = 960 && t.on Pg.avs AVS.AVS_STAT_pin),
    ok (.avsInterval 15 false) (hub3 []) (fun t => t.vdd = 900 && !t.on Pg.avs AVS.AVS_BUS_ok && t.rd Pg.avs (HDR.raw AVS.ev_bus_err.bit) = 1), ok (.avsSetWrite 961 true) (hub3 []) (fun t => t.vdd = 960 && t.on Pg.avs AVS.AVS_STAT_pin), ok (.avsSetWrite 850 false) (hub3 []) (fun t => t.vdd = 900 && t.rd Pg.avs (HDR.raw AVS.ev_bus_err.bit) = 1),
    ok (.avsEnvWrite (849 * 65536 + 850) true) (hub3 []) (fun t => t.vMax = 960 && t.rd Pg.avs (HDR.raw AVS.ev_cfg_err.bit) = 1), ok (.avsEnvWrite (890 * 65536 + 100) true) (hub3 []) (fun t => t.vMax = 890 && t.vMin = 840 && t.vdd = 890), ok (.avsEnvWrite (900 * 65536 + 900) true) (hub3 []) (fun t => t.vdd = 900)].all id = true := by decide +kernel

theorem test_FrqLoop : [ok (.frqSetWrite 0 true) (hub3 []) (fun t => t.coreStep = 0 && t.outbox = []), ok (.frqSetWrite 3 true) (hub3 []) (fun t => t.coreStep = 2 && t.rd Pg.clk CLK.CLK_CNT_downs = 1), ok (.frqSetWrite 1 true) (hub3 [(Pg.clk, CLK.CLK_STAT_step, 2)]) (fun t => t.coreStep = 1 && t.rd Pg.clk CLK.CLK_CNT_ups = 1),
    ok (.frqSetWrite 1 true) { hub3 [(Pg.clk, CLK.CLK_STAT_step, 2)] with pm := { busBad := true } } (fun t => t.coreStep = 2 && t.on Pg.clk CLK.FRQ_STAT_pin), ok (.frqSetWrite 0 true) (hub3 [(Pg.clk, CLK.FRQ_ENV_hi_step, 1)]) (fun t => t.coreStep = 1 && t.on Pg.clk CLK.FRQ_STAT_pin && t.rd Pg.clk (HDR.raw CLK.ev_frq_pinned.bit) = 1),
    ok (.frqEnvWrite 0x200 true) (hub3 []) (fun t => t.hiStep = 0 && t.rd Pg.clk (HDR.raw CLK.ev_cfg_err.bit) = 1), ok (.frqEnvWrite 0x202 true) (hub3 []) (fun t => t.coreStep = 2 && t.hiStep = 2), ok (.frqEnvWrite 0x002 true) (hub3 [(Pg.clk, CLK.CLK_STAT_step, 1)]) (fun t => t.coreStep = 1),
    ok .timingGuard (hub3 []) (fun t => t.coreStep = 1 && t.rd Pg.clk CLK.CLK_CNT_guards = 1), ok .timingGuard (hub3 [(Pg.clk, CLK.CLK_STAT_step, 2)]) (fun t => t.coreStep = 2 && t.rd Pg.clk (HDR.raw CLK.ev_guard.bit) = 1)].all id = true := by decide +kernel

end Sys2Proof.Tests
end

section
/-!
PROOFS. Accesses that break R7: what the access log of EVT takes (R456, R471), and what a misaligned or partial access leaves alone.
-/
namespace Sys2Proof.Machine

open Sys2Proof

/-! ### What reporting an event touches -/

/-- An error capture changes registers only. -/
theorem State.capture_eq_regs (s : State) (p : Nat) (e : Ev) (c : Sev) (x : Ctx) : ∃ r, s.capture p e c x = { s with regs := r } := by
  unfold State.capture
  by_cases hv : s.on p HDR.ER_CAP0_valid = true
  · cases c <;> exact ⟨_, by simp only [hv, if_true]; rfl⟩
  · cases c <;> exact ⟨_, by simp only [hv]; rfl⟩

/-- Raising an event changes registers and the marks for page events only. -/
theorem State.raise_eq_regs_evt (s : State) (p : Nat) (e : Ev) (x : Ctx) : ∃ r m, s.raise p e x = { s with regs := r, evt := m } := by
  obtain ⟨bit, sev⟩ := e
  cases sev with
  | none => exact ⟨_, _, rfl⟩
  | some c =>
    obtain ⟨r, hr⟩ := (s.setRaw p bit).capture_eq_regs p ⟨bit, some c⟩ c x
    exact ⟨r, _, hr⟩

/-! ### ACC_ERR takes the first access that is logged -/

/-- ACC_ERR takes an access. -/
def State.accTake (s : State) (write : Bool) (src addr be : Nat) : State :=
  ((((s.wr Pg.evt EVT.ACC_ERR_valid 1).wr Pg.evt EVT.ACC_ERR_write (b2n write)).wr Pg.evt EVT.ACC_ERR_src src).wr Pg.evt EVT.ACC_ERR_byte_en be).wr
    Pg.evt EVT.ACC_ERR_offset addr

/-- What `State.accErr` does to ACC_ERR before it counts: an empty ACC_ERR takes the access, a full one keeps what it holds. -/
def State.accLatch (s : State) (write : Bool) (src addr be : Nat) : State :=
  if s.on Pg.evt EVT.ACC_ERR_valid then s else s.accTake write src addr be

section
variable (s : State) (write : Bool) (src addr be : Nat)

theorem State.accErr_eq : s.accErr write src addr be =
    ((s.accLatch write src addr be).bump Pg.evt EVT.ACC_CNT_count 1).raise Pg.evt EVT.ev_acc_err ⟨0, addr % 2 ^ 32, 0⟩ := rfl

theorem State.accLatch_eq_regs : ∃ r, s.accLatch write src addr be = { s with regs := r } := by
  unfold State.accLatch
  split
  · exact ⟨_, rfl⟩
  · exact ⟨_, rfl⟩

theorem State.accErr_eq_regs_evt : ∃ r m, s.accErr write src addr be = { s with regs := r, evt := m } := by
  obtain ⟨r₀, h₀⟩ := s.accLatch_eq_regs write src addr be
  obtain ⟨r, m, h⟩ := ((s.accLatch write src addr be).bump Pg.evt EVT.ACC_CNT_count 1).raise_eq_regs_evt Pg.evt EVT.ev_acc_err ⟨0, addr % 2 ^ 32, 0⟩
  exact ⟨r, m, by rw [State.accErr_eq, h, h₀]; rfl⟩

/-- Only the word of ACC_ERR is written. -/
theorem State.rd_accLatch_ne (q : Nat) (g : Fld) (hg : g.off < 4096 ∧ g.lsb < 32) (h : q ≠ Pg.evt ∨ g.off ≠ 0x44) :
    (s.accLatch write src addr be).rd q g = s.rd q g := by
  have inWord (t : State) (f : Fld) (v : Nat) (hf : f.off = 0x44 ∧ f.lsb < 32) : (t.wr Pg.evt f v).rd q g = t.rd q g := by
    refine t.rd_wr_ne _ _ _ _ _ ?_
    unfold fkey
    omega
  unfold State.accLatch
  split
  · rfl
  · unfold State.accTake
    iterate 5 rw [inWord _ _ _ (by decide)]

theorem State.accLatch_of_empty (h : s.rd Pg.evt EVT.ACC_ERR_valid = 0) : s.accLatch write src addr be = s.accTake write src addr be := by
  simp [State.accLatch, State.on, h]

/-! ### What the log of an access leaves in the registers -/

/-- Counting an access writes ACC_CNT only. -/
theorem State.rd_bumpAccCnt_ne (q : Nat) (g : Fld) (hg : g.off < 4096 ∧ g.lsb < 32) (h : q ≠ Pg.evt ∨ g.off ≠ 0x48) :
    (s.bump Pg.evt EVT.ACC_CNT_count 1).rd q g = s.rd q g := by
  refine s.rd_bump_ne _ _ _ _ _ ?_
  show _ ≠ (Pg.evt * 4096 + 0x48) * 32 + 0
  unfold fkey
  omega

/-- The block registers of EVT are those of the latch, with ACC_CNT counted. -/
theorem State.rd_accErr_block (q : Nat) (g : Fld) (hg : g.off < 4096 ∧ g.lsb < 32) (h : q ≠ Pg.evt ∨ 0x40 ≤ g.off) :
    (s.accErr write src addr be).rd q g = ((s.accLatch write src addr be).bump Pg.evt EVT.ACC_CNT_count 1).rd q g := by
  rw [State.accErr_eq, State.rd_raise_block _ _ _ _ _ _ h hg (by decide)]

/-- Nothing is written but the header of EVT, ACC_ERR and ACC_CNT. -/
theorem State.rd_accErr_frame (q : Nat) (g : Fld) (hg : g.off < 4096 ∧ g.lsb < 32) (h : ¬ (q = Pg.evt ∧ (g.off < 0x40 ∨ g.off = 0x44 ∨ g.off = 0x48))) :
    (s.accErr write src addr be).rd q g = s.rd q g := by
  rw [s.rd_accErr_block write src addr be q g hg (by omega), State.rd_bumpAccCnt_ne _ q g hg (by omega), s.rd_accLatch_ne write src addr be q g hg (by omega)]

theorem State.rd_accErr_count : (s.accErr write src addr be).rd Pg.evt EVT.ACC_CNT_count = min (s.rd Pg.evt EVT.ACC_CNT_count + 1) 0xFFFF := by
  rw [s.rd_accErr_block write src addr be _ _ (by decide) (.inr (by decide)), State.rd_bump_same, s.rd_accLatch_ne write src addr be _ _ (by decide) (.inr (by decide))]
  rfl

theorem State.rd_accErr_raw : (s.accErr write src addr be).rd Pg.evt (HDR.raw EVT.ev_acc_err.bit) = 1 :=
  State.rd_raise_same _ _ EVT.ev_acc_err _ (by decide)

/-- The word of ACC_ERR is the latch's. -/
theorem State.rd_accErr_word (g : Fld) (hg : g.off = 0x44 ∧ g.lsb < 32) :
    (s.accErr write src addr be).rd Pg.evt g = (s.accLatch write src addr be).rd Pg.evt g := by
  rw [s.rd_accErr_block write src addr be _ g (by omega) (.inr (by omega)), State.rd_bumpAccCnt_ne _ _ g (by omega) (.inr (by omega))]

/-- R471: an empty ACC_ERR takes the direction, the source, the byte enables and the offset, each cut to its field. -/
theorem State.rd_accErr_of_empty (h : s.rd Pg.evt EVT.ACC_ERR_valid = 0) :
    (s.accErr write src addr be).rd Pg.evt EVT.ACC_ERR_valid = 1 ∧ (s.accErr write src addr be).rd Pg.evt EVT.ACC_ERR_write = b2n write % 2 ∧
    (s.accErr write src addr be).rd Pg.evt EVT.ACC_ERR_src = src % 4 ∧ (s.accErr write src addr be).rd Pg.evt EVT.ACC_ERR_byte_en = be % 16 ∧
    (s.accErr write src addr be).rd Pg.evt EVT.ACC_ERR_offset = addr % 2 ^ 21 := by
  simp (disch := decide) only [State.rd_accErr_word, s.accLatch_of_empty _ _ _ _ h, State.accTake, State.rd_wr_place, State.rd_wr_same]
  exact ⟨rfl, rfl, rfl, rfl, rfl⟩

end

/-! ### Accesses that break R7, on a path -/

theorem goodAccess_eq_false {addr be : Nat} (h : addr % 4 ≠ 0 ∨ be % 16 ≠ 15) : goodAccess addr be = false := by
  simp only [goodAccess, Bool.and_eq_false_iff, decide_eq_false_iff_not]
  exact h

theorem pathSrc_lt (path : Path) : pathSrc path < 4 := by cases path <;> simp [pathSrc]

/-- What an access that breaks R7 leaves, whatever its direction: the log and the error on its path. -/
def State.accRefused (s : State) (write : Bool) (path : Path) (addr be : Nat) : State :=
  (s.accErr write (pathSrc path) (pathOff path addr) (be % 16)).emit (.busError path addr)

section
variable (s : State) (path : Path) (addr be : Nat)

theorem State.busWrite_misaligned (w : Nat) (hup : s.pathUp path = true) (hbad : addr % 4 ≠ 0 ∨ be % 16 ≠ 15) :
    s.busWrite path addr be w = s.accRefused true path addr be := by
  simp [State.busWrite, State.accRefused, hup, goodAccess_eq_false hbad]

theorem State.busRead_misaligned (hup : s.pathUp path = true) (hbad : addr % 4 ≠ 0 ∨ be % 16 ≠ 15) :
    s.busRead path addr be = s.accRefused false path addr be := by
  simp [State.busRead, State.accRefused, hup, goodAccess_eq_false hbad]

theorem exec_registerWrite (w : Nat) : exec (.registerWrite path addr be w) s = s.run (fun t => t.busWrite path addr be w) := rfl

theorem exec_rcFieldRead : exec (.rcFieldRead path addr be) s = s.run (fun t => t.busRead path addr be) := rfl

theorem exec_registerWrite_misaligned (w : Nat) (hlife : s.life = .running) (hup : s.pathUp path = true) (hbad : addr % 4 ≠ 0 ∨ be % 16 ≠ 15) :
    exec (.registerWrite path addr be w) s = .next (s.after (s.accRefused true path addr be)) := by
  rw [exec_registerWrite, s.run_running _ hlife, s.busWrite_misaligned path addr be w hup hbad]

theorem exec_rcFieldRead_misaligned (hlife : s.life = .running) (hup : s.pathUp path = true) (hbad : addr % 4 ≠ 0 ∨ be % 16 ≠ 15) :
    exec (.rcFieldRead path addr be) s = .next (s.after (s.accRefused false path addr be)) := by
  rw [exec_rcFieldRead, s.run_running _ hlife, s.busRead_misaligned path addr be hup hbad]

variable (write : Bool)

/-- Its registers are those of the log. -/
@[simp] theorem State.rd_accRefused (q : Nat) (g : Fld) :
    (s.accRefused write path addr be).rd q g = (s.accErr write (pathSrc path) (pathOff path addr) (be % 16)).rd q g := State.rd_emit _ _ _ _

/-- R7: nothing is written but the log in EVT; beside registers and the marks for page events only the error on the path is new. -/
theorem State.accRefused_wroteNothing :
    (∀ q g, g.off < 4096 → g.lsb < 32 → ¬ (q = Pg.evt ∧ (g.off < 0x40 ∨ g.off = 0x44 ∨ g.off = 0x48)) → (s.accRefused write path addr be).rd q g = s.rd q g) ∧
    { s.accRefused write path addr be with regs := s.regs, evt := s.evt, outbox := s.outbox } = s ∧
    (s.accRefused write path addr be).outbox = s.outbox ++ [.busError path addr] := by
  refine ⟨fun q g hoff hlsb h => ?_, ?_⟩
  · rw [State.rd_accRefused, s.rd_accErr_frame _ _ _ _ q g ⟨hoff, hlsb⟩ h]
  · obtain ⟨r, m, h⟩ := s.accErr_eq_regs_evt write (pathSrc path) (pathOff path addr) (be % 16)
    rw [State.accRefused, h]
    exact ⟨rfl, rfl⟩

/-- R456: the access is counted and raises acc_err, and an empty ACC_ERR takes it with its path's source code and its offset in the register space. -/
theorem State.accRefused_logged :
    (s.accRefused write path addr be).rd Pg.evt EVT.ACC_CNT_count = min (s.rd Pg.evt EVT.ACC_CNT_count + 1) 0xFFFF ∧
    (s.accRefused write path addr be).rd Pg.evt (HDR.raw EVT.ev_acc_err.bit) = 1 ∧
    (s.rd Pg.evt EVT.ACC_ERR_valid = 0 →
      (s.accRefused write path addr be).rd Pg.evt EVT.ACC_ERR_valid = 1 ∧ (s.accRefused write path addr be).rd Pg.evt EVT.ACC_ERR_write = b2n write ∧
      (s.accRefused write path addr be).rd Pg.evt EVT.ACC_ERR_src = pathSrc path ∧ (s.accRefused write path addr be).rd Pg.evt EVT.ACC_ERR_byte_en = be % 16 ∧
      (s.accRefused write path addr be).rd Pg.evt EVT.ACC_ERR_offset = pathOff path addr % 2 ^ 21) := by
  simp only [State.rd_accRefused, State.rd_accErr_count, State.rd_accErr_raw, true_and]
  intro h
  obtain ⟨hvalid, hwrite, hsrc, hbe, hoff⟩ := s.rd_accErr_of_empty write (pathSrc path) (pathOff path addr) (be % 16) h
  have hdir : b2n write % 2 = b2n write := by cases write <;> rfl
  exact ⟨hvalid, hwrite.trans hdir, hsrc.trans (Nat.mod_eq_of_lt (pathSrc_lt path)), hbe.trans (Nat.mod_mod _ _), hoff⟩

end

/-- Settles O8: an access that breaks R7 leaves `State.accRefused`, whatever its direction. -/
theorem misalignedAccess : Obligations.MisalignedAccess := by
  intro s path addr be w hlife hup hbad
  exact ⟨⟨_, exec_registerWrite_misaligned s path addr be w hlife hup hbad, s.accRefused_wroteNothing path addr be true, s.accRefused_logged path addr be true⟩,
    ⟨_, exec_rcFieldRead_misaligned s path addr be hlife hup hbad, s.accRefused_wroteNothing path addr be false, s.accRefused_logged path addr be false⟩⟩

end Sys2Proof.Machine
end

section
/-!
PROOFS. The hop CRC (R69): its step from byte to byte as eight single bits, its range, and where it stands on the wire (R62).
-/
namespace Sys2Proof

/-! ### Little-endian bytes in a list (R8) -/

@[simp] theorem length_leBytes (n v : Nat) : (leBytes n v).length = n := by
  induction n generalizing v with
  | zero => rfl
  | succ n ih => rw [leBytes, List.length_cons, ih]

theorem ofLe_leBytes (n v : Nat) : ofLe (leBytes n v) = v % 256 ^ n := by
  induction n generalizing v with
  | zero => simp [leBytes, ofLe, Nat.mod_one]
  | succ n ih => rw [leBytes, ofLe, ih, BitVec.toNat_ofNat, Nat.pow_succ' (m := 256), Nat.mod_mul]

/-- A number written behind `a` is read back at the offset where `a` ends. -/
theorem numAt_append_leBytes (a t : List Byte) (n v : Nat) : numAt (a ++ (leBytes n v ++ t)) a.length n = v % 256 ^ n := by
  rw [numAt, List.drop_left, List.take_left' (length_leBytes n v), ofLe_leBytes]

end Sys2Proof

namespace Sys2Proof.Machine

open Sys2Proof

/-! ### A byte enters a left-shifting CRC register as eight bits -/

/-- One bit enters a left-shifting CRC register of width `w`: the polynomial is added where the bit differs from the top bit that leaves. -/
def crcBit (w poly : Nat) (bit : Bool) (r : Nat) : Nat :=
  if r.testBit (w - 1) != bit then (2 * r % 2 ^ w) ^^^ poly else 2 * r % 2 ^ w

theorem crcBit_lt (w poly r : Nat) (bit : Bool) (hpoly : poly < 2 ^ w) : crcBit w poly bit r < 2 ^ w := by
  have hshift : 2 * r % 2 ^ w < 2 ^ w := Nat.mod_lt _ (Nat.two_pow_pos w)
  unfold crcBit
  split
  · exact Nat.xor_lt_two_pow hshift hpoly
  · exact hshift

/-- The step of `crcShl` on a register to which a word `x` is already added: the top bit of `x` enters, and the rest of `x` moves up. -/
theorem crcShl_succ_xor (w poly n r x : Nat) :
    crcShl w poly (n + 1) (r ^^^ x) = crcShl w poly n (crcBit w poly (x.testBit (w - 1)) r ^^^ (2 * x % 2 ^ w)) := by
  have hshift : ((r ^^^ x) <<< 1) % 2 ^ w = (2 * r % 2 ^ w) ^^^ (2 * x % 2 ^ w) := by
    rw [Nat.shiftLeft_xor_distrib, Nat.xor_mod_two_pow, Nat.shiftLeft_eq, Nat.shiftLeft_eq, Nat.pow_one, Nat.mul_comm r, Nat.mul_comm x]
  have htop : (r ^^^ x).testBit (w - 1) = (r.testBit (w - 1) != x.testBit (w - 1)) := Nat.testBit_xor _ _ _
  rw [crcShl, hshift, htop, crcBit]
  split
  · rw [Nat.xor_assoc, Nat.xor_comm _ poly, Nat.xor_assoc]
  · rfl

/-- Adding the low `n` bits of `v` at the top of the register and shifting `n` times takes them in one by one, from bit `n - 1` down. -/
theorem crcShl_xor_eq_foldl (w poly n r v : Nat) (hn : n ≤ w) :
    crcShl w poly n (r ^^^ (v <<< (w - n) % 2 ^ w)) = (List.range n).reverse.foldl (fun r i => crcBit w poly (v.testBit i) r) r := by
  induction n generalizing r with
  | zero => simp [crcShl, Nat.shiftLeft_eq]
  | succ n ih =>
    have htop : (v <<< (w - (n + 1)) % 2 ^ w).testBit (w - 1) = v.testBit n := by
      rw [Nat.testBit_mod_two_pow, Nat.testBit_shiftLeft, show w - 1 - (w - (n + 1)) = n by omega,
        decide_eq_true (show w - 1 < w by omega), decide_eq_true (show w - 1 ≥ w - (n + 1) by omega), Bool.true_and, Bool.true_and]
    have hrest : 2 * (v <<< (w - (n + 1)) % 2 ^ w) % 2 ^ w = v <<< (w - n) % 2 ^ w := by
      rw [Nat.mul_mod_mod, Nat.shiftLeft_eq, Nat.shiftLeft_eq, show w - n = w - (n + 1) + 1 by omega, Nat.pow_succ, Nat.mul_left_comm, Nat.mul_comm 2]
    rw [crcShl_succ_xor, htop, hrest, ih _ (by omega), List.range_succ, List.reverse_append]
    rfl

theorem crcMsb_append_singleton (w poly r : Nat) (l : List Byte) (b : Byte) (hw : 8 ≤ w) :
    crcMsb w poly r (l ++ [b]) = (List.range 8).reverse.foldl (fun r i => crcBit w poly (b.toNat.testBit i) r) (crcMsb w poly r l) := by
  have hb : b.toNat <<< (w - 8) % 2 ^ w = b.toNat <<< (w - 8) := by
    refine Nat.mod_eq_of_lt ?_
    calc b.toNat <<< (w - 8) = b.toNat * 2 ^ (w - 8) := Nat.shiftLeft_eq _ _
      _ < 2 ^ 8 * 2 ^ (w - 8) := Nat.mul_lt_mul_of_pos_right b.isLt (Nat.two_pow_pos _)
      _ = 2 ^ w := by rw [← Nat.pow_add, Nat.add_sub_cancel' hw]
  rw [← crcShl_xor_eq_foldl w poly 8 _ b.toNat hw, hb, crcMsb, crcMsb, crcRun_eq, crcRun_eq, List.foldl_append]
  rfl

/-! ### The hop CRC -/

/-- R69: each further byte enters most significant bit first. -/
theorem crcHop_append_singleton (l : List Byte) (b : Byte) :
    crcHop (l ++ [b]) = [7, 6, 5, 4, 3, 2, 1, 0].foldl (fun r i => crcBit 16 0x8BB7 (b.toNat.testBit i) r) (crcHop l) :=
  crcMsb_append_singleton 16 0x8BB7 0 l b (by decide)

theorem crcHop_lt (l : List Byte) : crcHop l < 2 ^ 16 := by
  obtain rfl | ⟨l, b, rfl⟩ := l.eq_nil_or_concat
  · decide
  · rw [List.concat_eq_append, crcHop_append_singleton]
    exact crcBit_lt 16 0x8BB7 _ _ (by decide)

end Sys2Proof.Machine

namespace Sys2Proof

open Sys2Proof.Machine

/-! ### A native cell on the wire (R62) -/

@[simp] theorem Cell.length_body (c : Cell) : c.body.length = 276 := by
  simp only [Cell.body, List.length_append, length_leBytes, List.length_take, List.length_replicate]
  omega

@[simp] theorem Cell.length_bytes (c : Cell) : c.bytes.length = 280 := by
  simp [Cell.bytes]

theorem Cell.take_bytes (c : Cell) : c.bytes.take 276 = c.body := by
  rw [Cell.bytes, List.append_assoc, List.take_left' c.length_body]

theorem Cell.numAt_bytes_hopCrc (c : Cell) : numAt c.bytes 276 2 = crcHop c.body := by
  rw [Cell.bytes, List.append_assoc, ← c.length_body, numAt_append_leBytes]
  exact Nat.mod_eq_of_lt (crcHop_lt c.body)

end Sys2Proof

namespace Sys2Proof.Machine

open Sys2Proof

/-- Settles O38: a byte's eight shifts take its bits in one by one, and the hop CRC, below 2^16, is read back whole from its two bytes. -/
theorem hopCrc : Obligations.HopCrc := by
  have hwire (c : Cell) : numAt c.bytes 276 2 = crcHop (c.bytes.take 276) := by
    rw [c.take_bytes, c.numAt_bytes_hopCrc]
  exact ⟨rfl, crcHop_append_singleton, by decide, fun c => ⟨c.length_bytes, hwire c, c.take_bytes⟩⟩

end Sys2Proof.Machine
end

section
/-!
PROOFS. The limits of the accounts (R135): what leaves the words LIMITS of GRN alone, and what a write of an account's limits is refused or accepted with.
-/
namespace Sys2Proof.Machine

open Sys2Proof

/-! ### What leaves the words LIMITS alone -/

/-- A field that lies at the place of a word LIMITS: at the head of a 16-byte block from 0x100 on. -/
def inLimits (g : Fld) : Prop := 0x100 ≤ g.off ∧ g.off < 4096 ∧ g.off % 16 = 0 ∧ g.lsb < 32

theorem inLimits_floor {b : Nat} (hb : b < 10) : inLimits (GRN.LIMITS_floor b) := by
  simp only [inLimits, GRN.LIMITS_floor]
  omega

theorem inLimits_ceiling {b : Nat} (hb : b < 10) : inLimits (GRN.LIMITS_ceiling b) := by
  simp only [inLimits, GRN.LIMITS_ceiling]
  omega

theorem State.rd_setLink (s : State) (p : Port) (x : Link) (q : Nat) (g : Fld) : (s.setLink p x).rd q g = s.rd q g :=
  State.rd_regs _ _ (s.setLink_regs p x) q g

theorem grn_ne_lnk (p : Port) : Pg.grn ≠ Pg.lnk p := by cases p <;> decide

section
variable (s : State) {g : Fld} (hg : inLimits g)
include hg

theorem State.rd_limits_wr_block (f : Fld) (v : Nat) (hf : f.off < 0x100 ∧ f.lsb < 32) : (s.wr Pg.grn f v).rd Pg.grn g = s.rd Pg.grn g := by
  obtain ⟨hlow, -, -, -⟩ := hg
  exact s.rd_wr_ne _ _ _ _ _ (fkey_ne_place _ _ _ (by omega))

theorem State.rd_limits_wr_reserve (a v : Nat) : (s.wr Pg.grn (GRN.RES_reserve a) v).rd Pg.grn g = s.rd Pg.grn g := by
  obtain ⟨-, -, hword, hlsb⟩ := hg
  refine s.rd_wr_ne _ _ _ _ _ (fkey_ne_place _ _ _ ?_)
  simp only [GRN.RES_reserve]
  omega

theorem State.rd_limits_wr_lnk (p : Port) (f : Fld) (v : Nat) (hf : f.off < 4096 ∧ f.lsb < 32) : (s.wr (Pg.lnk p) f v).rd Pg.grn g = s.rd Pg.grn g := by
  obtain ⟨-, hoff, -, hlsb⟩ := hg
  exact s.rd_wr_ne _ _ _ _ _ (fkey_ne_page _ _ _ _ (grn_ne_lnk p) hf ⟨hoff, hlsb⟩)

theorem State.rd_limits_raise (e : Ev) (x : Ctx) (he : e.bit < 32) : (s.raise Pg.grn e x).rd Pg.grn g = s.rd Pg.grn g := by
  obtain ⟨hlow, hoff, -, hlsb⟩ := hg
  exact s.rd_raise_block _ _ _ _ _ (.inr (by omega)) ⟨hoff, hlsb⟩ he

theorem State.rd_limits_setReserve (a v : Nat) : (s.setReserve a v).rd Pg.grn g = s.rd Pg.grn g := by
  unfold State.setReserve
  simp only
  split
  · rw [State.rd_limits_raise _ hg _ _ (by decide), State.rd_limits_wr_block _ hg _ _ (by decide), s.rd_limits_wr_reserve hg]
  · exact s.rd_limits_wr_reserve hg _ _

theorem State.rd_limits_setLimits (p : Port) : (s.setLimits p).rd Pg.grn g = s.rd Pg.grn g := by
  simp only [State.setLimits, State.rd_setLink]
  iterate 5 rw [State.rd_limits_wr_lnk _ hg _ _ _ (by decide)]

theorem State.rd_limits_reserves (l : List (Nat × Nat)) :
    (s.each l (fun s v => s.wr Pg.grn (GRN.RES_reserve v.1) v.2)).rd Pg.grn g = s.rd Pg.grn g := by
  induction l generalizing s with
  | nil => rfl
  | cons v l ih => exact (ih _).trans (s.rd_limits_wr_reserve hg v.1 v.2)

theorem State.rd_limits_shrinkReserves : s.shrinkReserves.rd Pg.grn g = s.rd Pg.grn g :=
  s.rd_limits_reserves hg _

/-- R136 fits the sum by credit limits and reserves, never by the limits of an account. -/
theorem State.rd_limits_fitCredits : s.fitCredits.rd Pg.grn g = s.rd Pg.grn g := by
  have hshort (t : State) : (if t.on Pg.grn GRN.GRN_STAT_short then t else (t.wr Pg.grn GRN.GRN_STAT_short 1).raise Pg.grn GRN.ev_reserve_short).rd Pg.grn g =
      t.rd Pg.grn g := by
    split
    · rfl
    · rw [State.rd_limits_raise _ hg _ _ (by decide), t.rd_limits_wr_block hg _ _ (by decide)]
  have hshrink (t : State) : (if 32768 < t.granSum then t.shrinkReserves else t).rd Pg.grn g = t.rd Pg.grn g := by
    split
    · exact t.rd_limits_shrinkReserves hg
    · rfl
  unfold State.fitCredits
  simp only
  split
  · simp only [State.rd_limits_wr_block _ hg _ _ (show GRN.GRN_STAT_short.off < 0x100 ∧ _ by decide), State.rd_limits_setLimits _ hg, State.rd_setLink]
  · simp only [hshrink, hshort, State.rd_limits_setLimits _ hg, State.rd_setLink]

end

/-! ### The sum of R135 with one floor at another value -/

theorem State.granSum_replaceFloor (s : State) (a f : Nat) (h4 : 4 ≤ a) (h9 : a ≤ 9) :
    s.granSum - s.rd Pg.grn (GRN.LIMITS_floor a) + f =
      s.acctSize 0 + s.acctSize 1 + s.acctSize 2 + s.acctSize 3 + sumNat ([4, 5, 6, 7, 8, 9].map (fun b => if b = a then f else s.rd Pg.grn (GRN.LIMITS_floor b))) := by
  have ha : a = 4 ∨ a = 5 ∨ a = 6 ∨ a = 7 ∨ a = 8 ∨ a = 9 := by omega
  rcases ha with rfl | rfl | rfl | rfl | rfl | rfl <;> simp [State.granSum, sumNat, List.range_succ] <;> omega

/-! ### A write of an account's limits -/

/-- The two fields of an account's word LIMITS at new values. -/
def State.putLimits (s : State) (a f c : Nat) : State := (s.wr Pg.grn (GRN.LIMITS_floor a) f).wr Pg.grn (GRN.LIMITS_ceiling a) c

section
variable (s : State) (a f c : Nat)

theorem State.rd_putLimits_floor : (s.putLimits a f c).rd Pg.grn (GRN.LIMITS_floor a) = f % 2 ^ 16 := by
  rw [State.putLimits, State.rd_wr_ne _ _ _ _ _ _ (fkey_ne_place _ _ _ (by simp [GRN.LIMITS_floor, GRN.LIMITS_ceiling])), State.rd_wr_same]
  rfl

theorem State.rd_putLimits_ceiling : (s.putLimits a f c).rd Pg.grn (GRN.LIMITS_ceiling a) = c % 2 ^ 16 := State.rd_wr_same _ _ _ _

theorem State.rd_putLimits_ne (g : Fld) (hoff : g.off ≠ 0x100 + 0x10 * a) (hlsb : g.lsb < 32) : (s.putLimits a f c).rd Pg.grn g = s.rd Pg.grn g := by
  have inWord (t : State) (x : Fld) (v : Nat) (hx : x.off = 0x100 + 0x10 * a ∧ x.lsb < 32) : (t.wr Pg.grn x v).rd Pg.grn g = t.rd Pg.grn g :=
    t.rd_wr_ne _ _ _ _ _ (fkey_ne_place _ _ _ (by omega))
  rw [State.putLimits, inWord _ _ _ ⟨rfl, by simp [GRN.LIMITS_ceiling]⟩, inWord _ _ _ ⟨rfl, by simp [GRN.LIMITS_floor]⟩]

end

section
variable (s : State) (a v : Nat)

theorem State.acctRw_iff : s.acctRw a = true ↔ 4 ≤ a ∧ (a ≤ 8 ∨ a = 9 ∧ s.mode = .head) := by
  simp [State.acctRw]

theorem State.acctRw_eq_false_iff : s.acctRw a = false ↔ a < 4 ∨ 9 < a ∨ a = 9 ∧ s.mode ≠ .head := by
  rw [← Bool.not_eq_true, s.acctRw_iff]
  by_cases hhead : s.mode = .head
  · simp only [hhead, and_true, ne_eq, not_true, and_false, or_false]
    omega
  · simp only [hhead, and_false, or_false, ne_eq, not_false_eq_true, and_true]
    omega

theorem State.acctLimits_locked (hrw : s.acctRw a = false) : s.acctLimits a v = s := by
  simp [State.acctLimits, hrw]

theorem State.acctLimits_refused (hrw : s.acctRw a = true)
    (hbad : bitsOf v 15 0 < bitsOf v 31 16 ∨ 32768 < s.granSum - s.rd Pg.grn (GRN.LIMITS_floor a) + bitsOf v 31 16) :
    s.acctLimits a v = s.raise Pg.grn GRN.ev_cfg_err := by
  simp [State.acctLimits, hrw, hbad]

/-- An accepted write puts both fields, and the reserve and R136 that follow leave the limits of every account alone. -/
theorem State.rd_limits_acctLimits_accepted (hrw : s.acctRw a = true) (hfc : bitsOf v 31 16 ≤ bitsOf v 15 0)
    (hsum : s.granSum - s.rd Pg.grn (GRN.LIMITS_floor a) + bitsOf v 31 16 ≤ 32768) {g : Fld} (hg : inLimits g) :
    (s.acctLimits a v).rd Pg.grn g = (s.putLimits a (bitsOf v 31 16) (bitsOf v 15 0)).rd Pg.grn g := by
  have hok : ¬ (bitsOf v 15 0 < bitsOf v 31 16 ∨ 32768 < s.granSum - s.rd Pg.grn (GRN.LIMITS_floor a) + bitsOf v 31 16) := by omega
  simp only [State.acctLimits, hrw, Bool.not_true, Bool.false_eq_true, if_false, Bool.or_eq_true, decide_eq_true_eq, hok]
  split
  · rw [State.rd_limits_fitCredits _ hg, State.rd_limits_setReserve _ hg]
    rfl
  · exact State.rd_limits_setReserve _ hg _ _

theorem exec_accountLimitsWrite (hlife : s.life = .running) : exec (.accountLimitsWrite a v) s = .next (s.after (s.acctLimits a v)) :=
  s.run_running (fun t => t.acctLimits a v) hlife

/-- R135: a refused write changes nothing but the header of GRN, in which cfg_err stands. -/
theorem State.raise_cfgErr_changesNothing :
    (s.raise Pg.grn GRN.ev_cfg_err).raised Pg.grn GRN.ev_cfg_err ∧ (s.raise Pg.grn GRN.ev_cfg_err).gran = s.gran ∧ (s.raise Pg.grn GRN.ev_cfg_err).outbox = s.outbox ∧
      ∀ q g, g.off < 4096 → g.lsb < 32 → ¬ (q = Pg.grn ∧ g.off < 0x40) → (s.raise Pg.grn GRN.ev_cfg_err).rd q g = s.rd q g :=
  ⟨s.rd_raise_same _ GRN.ev_cfg_err _ (by decide), s.raise_gran _ _ _, s.raise_outbox _ _ _,
    fun q g hoff hlsb h => s.rd_raise_block _ _ _ q g (by omega) ⟨hoff, hlsb⟩ (by decide)⟩

end

/-- Settles O26: a locked account, a refused write and an accepted one are the three cases of `State.acctLimits`. -/
theorem accountLimits : Obligations.AccountLimits := by
  intro s a v hlife f c total
  simp only [exec_accountLimitsWrite s a v hlife]
  refine ⟨fun hlocked => by rw [s.acctLimits_locked a v ((s.acctRw_eq_false_iff a).2 hlocked)], fun h4 hrange => ?_⟩
  have hrw : s.acctRw a = true := (s.acctRw_iff a).2 ⟨h4, hrange⟩
  have h9 : a ≤ 9 := by omega
  have htotal : s.granSum - s.rd Pg.grn (GRN.LIMITS_floor a) + f = total := s.granSum_replaceFloor a f h4 h9
  refine ⟨fun hfc hsum => ⟨_, rfl, ?_⟩, fun hbad => ⟨_, rfl, ?_⟩⟩
  · have hoff {b : Nat} (hne : b ≠ a) : 0x100 + 0x10 * b ≠ 0x100 + 0x10 * a := by omega
    have hput {g : Fld} (hg : inLimits g) : (s.acctLimits a v).rd Pg.grn g = (s.putLimits a f c).rd Pg.grn g :=
      s.rd_limits_acctLimits_accepted a v hrw hfc (Nat.le_trans (Nat.le_of_eq htotal) hsum) hg
    refine ⟨?_, ?_, fun b hb hne => ⟨?_, ?_⟩⟩
    · rw [hput (inLimits_floor (by omega)), State.rd_putLimits_floor]
      exact Nat.mod_mod _ _
    · rw [hput (inLimits_ceiling (by omega)), State.rd_putLimits_ceiling]
      exact Nat.mod_mod _ _
    · rw [hput (inLimits_floor hb), State.rd_putLimits_ne _ _ _ _ (GRN.LIMITS_floor b) (hoff hne) (show 16 < 32 by decide)]
    · rw [hput (inLimits_ceiling hb), State.rd_putLimits_ne _ _ _ _ (GRN.LIMITS_ceiling b) (hoff hne) (show 0 < 32 by decide)]
  · rw [s.acctLimits_refused a v hrw (htotal ▸ hbad)]
    exact s.raise_cfgErr_changesNothing

end Sys2Proof.Machine
end
